-- ==== Sys2Proof/Word.lean ====
section
/-! DEFINITION. The word types of the module: what the manual treats as bits (R11, R13). -/

namespace Sys2Proof

/-- A 32-bit word: a set-up register, a frame-store word, a window register (R13, R89). -/
abbrev Word := BitVec 32

/-- A byte of memory (R11). -/
abbrev Byte := BitVec 8

/-- A 16-bit parcel of the instruction store (R84). -/
abbrev Parcel := BitVec 16

end Sys2Proof
end

