-- ==== Sys2Proof/Syntax.lean ====
section
/-! DEFINITION. The commands of the block: one constructor of `Instr` per row of
spec/opcode_table.json, in the table's order, with the operands that say which unit takes the
step and what the outside world contributes to it. Where a step takes its input from a queue of
the machine, the input is not an operand: the step takes the head of that queue. -/

namespace Sys2Proof

/-- Where a mode command comes from (R485): a write of MODE_CMD, or the head of the command ring. -/
inductive CmdOrigin where
  /-- MODE_CMD written, with its slot field (meaningful for LOAD). -/
  | register (slot : BitVec 2)
  /-- The entry at the head of the command engine's queue, op 0x10. -/
  | ring
  deriving DecidableEq, Repr

/-- The monitored field supplies (R352, sources 1 to 3). -/
inductive Rail where
  | core | io | dram
  deriving DecidableEq, Repr

/-- What a supply does (R352, R475, R516, R517). -/
inductive Excursion where
  /-- Above its window. -/
  | above
  /-- Below its window. -/
  | below
  /-- Below its window for 1 ms (R475). -/
  | belowHeld
  /-- Back inside its window. -/
  | inside
  deriving DecidableEq, Repr

/-- Which report pair a wire defect concerns (R349, R375). -/
inductive WireSel where
  | source (n : Nat)
  /-- The dual-rail safe line to the field I/O (R375). -/
  | safeLine
  /-- The readback of a TIO pin, which agrees again (R413). No wire of the collector, so it never breaks. -/
  | readback (pin : Nat)
  deriving DecidableEq, Repr

/-- The details a unit sends with a report (R348): master, access type, address, syndrome. -/
structure Details where
  master : BitVec 10
  access : BitVec 3
  addr   : Word
  syn    : Word
  deriving DecidableEq, Repr

/-- Which report the collector takes next (R348, R350). -/
inductive ReportSel where
  /-- The oldest report that waits at the collector. -/
  | waiting
  /-- A unit raises this report now, for a cause inside the silicon (R346). -/
  | raised (source : Nat) (d : Details)
  /-- The collector's own copies disagree (R375). -/
  | collectorSelf
  deriving DecidableEq, Repr

/-- A timing message (R382). -/
structure TimingMsg where
  kind   : Byte
  seq    : BitVec 16
  origin : BitVec 16
  time   : BitVec 64
  corr   : BitVec 64
  deriving DecidableEq, Repr

/-- A failing bit of an SRAM macro (R298, R302). -/
structure FailBit where
  row : Nat
  col : Nat
  deriving DecidableEq, Repr

/-- The failing bits that a march finds in one macro (R298, R299). -/
structure MacroFail where
  macroId : Nat
  bits    : List FailBit
  deriving DecidableEq, Repr

/-- What march, logic self-test and the supplies of the silicon show in one test (R333, R334). -/
structure TestOutcome where
  /-- Physical cells that fail logic self-test. -/
  cells  : List Nat
  /-- Clouds with a failing router, gateway, engine or agent. -/
  clouds : List Nat
  /-- A tree node or root unit fails. -/
  root   : Bool
  macros : List MacroFail
  deriving DecidableEq, Repr

/-- What the error check of the stored words that an access reads finds (R272, R280, R282): no error, a single-bit error, or
an uncorrectable one in the first word or in the k-th word after it. -/
inductive Ecc where
  | good | single | double
  | doubleAt (k : Nat)
  deriving DecidableEq, Repr

/-- The word that an uncorrectable error strikes, counted from the first. -/
def Ecc.struck : Ecc → Option Nat
  | .good | .single => none
  | .double => some 0
  | .doubleAt k => some k

/-- What the ECC of a matching store or a spill level finds in one of the entries that a command reads (R83): nothing, a
single-bit error, or a double-bit error, at a place among them. -/
inductive MatchEcc where
  | good
  | single (place : Nat)
  | double (place : Nat)
  deriving DecidableEq, Repr

/-- What the check of a lock directory finds in one record that an operation reads (R294, R308): nothing, an error in one
copy, or errors in both, in an entry or in a waiter record of that number. -/
inductive LockEcc where
  | good
  | single (waiter : Bool) (record : Nat)
  | double (waiter : Bool) (record : Nat)
  deriving DecidableEq, Repr

/-- A cell, and what the ECC of the entries that a command of it reads finds. -/
structure CellRead where
  pcell : Nat
  ecc   : MatchEcc
  deriving DecidableEq, Repr

/-- A cloud, and what the ECC of the spill entries that a command of it reads finds. -/
structure CloudRead where
  cloud : Nat
  ecc   : MatchEcc
  deriving DecidableEq, Repr

/-- A bank, and what the check of the directory records that a command of it reads finds. -/
structure LockRead where
  bank : Nat
  ecc  : LockEcc
  deriving DecidableEq, Repr

/-- The comparator of a pair station that judges wrongly (R328): neither, A or B. -/
inductive CmpFault where
  | sound | a | b
  deriving DecidableEq, Repr

/-- An origin of set-up accesses (R443, R507, R526). -/
inductive Origin where
  /-- Register messages and the command ring. -/
  | host
  /-- The service port. -/
  | service
  /-- The image loader. -/
  | loader
  deriving DecidableEq, Repr

/-- A unit that waits for the answer to a request (R239, R322). -/
inductive Requester where
  | cell (pcell : Nat)
  | station (st : Nat)
  deriving DecidableEq, Repr

/-- What moves over a jetstream link in one hop (R233, R237, R238), with a number. -/
inductive HopSel where
  /-- The cell of this number launches the head of its output queue (R244). -/
  | fromCell
  /-- The cell of this number launches the head of its request queue (R239). -/
  | request
  /-- The bank of this number, the DRAM, MRAM and semaphore units as 152, or the spill engine of cloud c as 160 + c,
  launches the head of what it sends; 256 + i launches the answer at place i of those that routers and agents make. -/
  | answer
  /-- The root egress launches the packet at this place of its buffer. -/
  | fromRoot
  /-- The egress agent of a cloud forwards the packet at this place of its buffer. -/
  | egress (cloud : Nat)
  /-- The ingress agent of a cloud forwards the packet at this place of its buffer. -/
  | ingress (cloud : Nat)
  /-- The packet at this place of the packets inside links. -/
  | inFlight
  deriving DecidableEq, Repr

/-- A level that comes at a pin: its time, and the ns for which it then stays (R403). -/
structure EdgeTime where
  time : Nat
  held : Nat
  deriving DecidableEq, Repr

/-- An answer to a MEM_RD or MEM_WR, or a part of one (R430): the tag of the access, the offset in what it reads, a
status, and bytes. -/
structure ReadPart where
  tag    : Nat
  offset : Nat
  status : Byte
  bytes  : List Byte
  deriving DecidableEq, Repr

/-- A Powyn frame, less its len and its crc (R428). -/
structure Frame where
  type    : Byte
  dst     : BitVec 6
  isLocal : Bool
  up      : Bool
  src     : BitVec 6
  adapter : Bool
  seq     : BitVec 16
  payload : List Byte
  deriving DecidableEq, Repr

/-- The AUTH payload (R466). -/
structure AuthPayload where
  key        : BitVec 256
  rights     : Byte
  expiry     : BitVec 64
  serial     : BitVec 64
  signer     : BitVec 256
  signerSig  : BitVec 512
  ownSig     : BitVec 512
  deriving DecidableEq, Repr

/-- The 96 bytes of an authorisation or a trailer (R469, R472). -/
structure SigBlock where
  key : BitVec 256
  sig : BitVec 512
  deriving DecidableEq, Repr

/-- How a serial frame ends (R418). -/
inductive FrameEnd where
  /-- TXEND of an SPI frame, or the stop of an I²C write. -/
  | txend
  /-- The end of an I²C read. -/
  | readDone
  /-- UART idle, or 2,047 bytes. -/
  | idle
  deriving DecidableEq, Repr

/-- Who waits for a credit too long (R242, R262). -/
inductive Holder where
  | cell (pcell : Nat)
  | egress (cloud : Nat)
  | ingress (cloud : Nat)
  /-- The spill engine of a cloud (R237). -/
  | engine (cloud : Nat)
  | root
  deriving DecidableEq, Repr

/-- The commands, in the order of spec/opcode_table.json. -/
inductive Instr where
  -- modes and resets
  | fieldRstNLow
  | fieldRstNHigh
  | hostRstNLow
  | hostRstNHigh
  | testEntry
  | testComplete (r : TestOutcome)
  | standaloneTimeout
  | verifyDone
  | checkDone
  | writeDone (badStations : List Nat)
  | loadCommand (o : CmdOrigin)
  | runCommand (o : CmdOrigin)
  | safeCommand (o : CmdOrigin)
  | retestCommand (o : CmdOrigin)
  | commit (o : CmdOrigin)
  | modeBootWrite (v : Word)
  | attach
  | detach
  | haltAction
  | resume
  | step
  -- the fault collector
  | supplyExcursion (r : Rail) (x : Excursion)
  | temperatureThreshold (t : BitVec 8)
  | pllUnlock (cloud : Option Nat)
  | referenceLoss
  | faultReport (r : ReportSel)
  | brokenWire (w : WireSel)
  | fltPendWrite (i : Nat) (v : Word)
  | fltRecInfoWrite (c : Nat) (v : Word)
  | fltSrcWrite (n : Nat) (v : Word)
  | fltClearCounts
  | restart (p : BitVec 3)
  | faultNReadback
  -- zenith
  | timeMarker
  | syncResult
  | syncTimeout
  | holdoverExpiry
  | zenCmdSet
  | zenCmdStep
  | discEnWrite (v : Word)
  | zenNowloRead
  | timerTick (n : Nat)
  | sync (m : TimingMsg) (arrival : BitVec 64) (departs : List (Nat × BitVec 64))
  | followUp (m : TimingMsg)
  | delayReqSend (departure : BitVec 64)
  | delayReq (port : Nat) (m : TimingMsg) (b c : BitVec 64)
  | delayResp (m : TimingMsg) (arrival : BitVec 64)
  -- the field side
  | captureEdge (pin : Nat) (rising : Bool) (edge : EdgeTime)
  | quadratureStep (pin : Nat) (a b : Bool) (time : Nat)
  | releaseToken
  | low (pin : Nat)
  | high (pin : Nat)
  | toggle (pin : Nat)
  | hiz (pin : Nat)
  | pulse (pin : Nat)
  | pulseEnd (pin : Nat)
  | duty (pin : Nat)
  | pwmPeriodStart (pin : Nat)
  | txb (port : Nat)
  | txh (port : Nat)
  | txend (port : Nat)
  | i2cStart (port : Nat)
  | readbackMismatch (pin : Nat)
  | tioCfgWrite (pin : Nat) (v : Word)
  | uartRxByte (port : Nat) (b : Byte) (err brk : Bool)
  | frameEnd (port : Nat) (e : FrameEnd)
  | txUnderrun (port : Nat)
  | deOff (port : Nat)
  | i2cNack (port : Nat)
  | clockStretchTimeout (port : Nat)
  | echoMismatch (port : Nat)
  -- the barrier
  | barrierMessage (toField ok : Bool)
  | barrierLaneLoss
  | heartbeatMissing
  | setUpAccess (addr : BitVec 24) (write : Option Word) (o : Origin)
  -- the Powyn link
  | frameReceive (port : Nat) (body : List Byte) (crc : Word)
  | replayRequest (port : Nat) (seq : BitVec 16)
  | errorRateCheck (port : Nat)
  | portDown (port : Nat)
  | trainingTimeout (port : Nat)
  | electricalDetect (port : Nat)
  | laneLock (port : Nat) (inverted : BitVec 2)
  | laneDeskew (port : Nat)
  | rateNegotiation (port : Nat) (partner : BitVec 2)
  | transmitEqualisation (port : Nat) (margins : List Nat)
  | version (port : Nat) (hi lo : BitVec 4)
  | enum (n : BitVec 7) (depth : BitVec 4) (count : BitVec 7)
  | enumRsp (port : Nat) (used : BitVec 7)
  | delayCalibration
  | regRd (addr : BitVec 24)
  | regWr (addr : BitVec 24) (v : Word)
  | doorbell (bitmap : Byte)
  | pollTimer
  | memCpl (part : ReadPart)
  | ringCfgEnWrite (ring : Nat) (v : Word)
  | notify (ring : Nat)
  | completionWrite
  | setupRead
  | setupWrite
  | imageBegin
  | imageBlock
  | imageEnd
  | imageStage
  | imageSequenceTimeout
  | memRead
  | memWrite
  | setView
  | keyView
  | slotView
  | selftest (r : TestOutcome)
  | keyProgram (readBackOk : Bool)
  | injectEntry
  | extractToken
  | extractDrop
  -- the service port
  | usbConnect
  | usbDisconnect
  | sessionTimeout
  | lockoutEnd
  | ident (seq : Byte)
  | challenge (seq : Byte)
  | auth (seq : Byte) (p : AuthPayload)
  | logout (seq : Byte)
  | logread (seq : Byte) (first : BitVec 16) (count : Nat)
  | regread (seq : Byte) (addr : BitVec 24) (count : Nat)
  | svcSelftest (seq : Byte) (r : TestOutcome)
  | imgBegin (seq : Byte) (len : Word)
  | imgBlock (seq : Byte) (off : Word) (bytes : List Byte)
  | imgEnd (seq : Byte)
  | keyProg (seq : Byte) (slot usage : BitVec 2) (digest : BitVec 256) (authz : SigBlock)
      (readBackOk : Bool)
  -- the cell: matching, strands and messages
  | tokenAccept (pcell : Nat) (ecc : MatchEcc)
  | latchSweep (pcell : Nat)
  | prefetchMessage (pcell : Nat)
  | preMatchedActivation (pcell : Nat)
  | agerVisit (pcell : Nat) (ecc : MatchEcc)
  | spillAger (cloud level : Nat)
  | purge (at_ : CellRead)
  | strandStart (pcell : Nat)
  | preemption (pcell : Nat)
  | strandResume (pcell : Nat)
  | divideComplete (pcell slot : Nat)
  | responseArrival (pcell : Nat)
  | lockGrant (pcell : Nat)
  | iterGrantMessage (pcell : Nat)
  | boostApply (pcell : Nat)
  | pairAck (pcell : Nat)
  -- Jithar instructions: the strand in a slot of a physical cell issues
  | add (pcell slot : Nat)
  | sub (pcell slot : Nat)
  | addi (pcell slot : Nat)
  | adds (pcell slot : Nat)
  | subs (pcell slot : Nat)
  | and (pcell slot : Nat)
  | or (pcell slot : Nat)
  | xor (pcell slot : Nat)
  | andi (pcell slot : Nat)
  | ori (pcell slot : Nat)
  | xori (pcell slot : Nat)
  | not (pcell slot : Nat)
  | shl (pcell slot : Nat)
  | shr (pcell slot : Nat)
  | sar (pcell slot : Nat)
  | shli (pcell slot : Nat)
  | shri (pcell slot : Nat)
  | sari (pcell slot : Nat)
  | rol (pcell slot : Nat)
  | ror (pcell slot : Nat)
  | slt (pcell slot : Nat)
  | sltu (pcell slot : Nat)
  | slti (pcell slot : Nat)
  | min (pcell slot : Nat)
  | max (pcell slot : Nat)
  | minu (pcell slot : Nat)
  | maxu (pcell slot : Nat)
  | abs (pcell slot : Nat)
  | abss (pcell slot : Nat)
  | neg (pcell slot : Nat)
  | clz (pcell slot : Nat)
  | mov (pcell slot : Nat)
  | sextb (pcell slot : Nat)
  | sexth (pcell slot : Nat)
  | zextb (pcell slot : Nat)
  | zexth (pcell slot : Nat)
  | movi (pcell slot : Nat)
  | movhi (pcell slot : Nat)
  | movS (pcell slot : Nat)
  | moviS (pcell slot : Nat)
  | addS (pcell slot : Nat)
  | subS (pcell slot : Nat)
  | addiS (pcell slot : Nat)
  | subiS (pcell slot : Nat)
  | beqzS (pcell slot : Nat)
  | bnezS (pcell slot : Nat)
  | sendS (pcell slot : Nat)
  | mul (pcell slot : Nat)
  | mulu (pcell slot : Nat)
  | macc (pcell slot : Nat)
  | maccs (pcell slot : Nat)
  | div (pcell slot : Nat)
  | divu (pcell slot : Nat)
  | beq (pcell slot : Nat)
  | bne (pcell slot : Nat)
  | blt (pcell slot : Nat)
  | bge (pcell slot : Nat)
  | bltu (pcell slot : Nat)
  | bgeu (pcell slot : Nat)
  | beqz (pcell slot : Nat)
  | bnez (pcell slot : Nat)
  | bltz (pcell slot : Nat)
  | bgez (pcell slot : Nat)
  | bgtz (pcell slot : Nat)
  | blez (pcell slot : Nat)
  | j (pcell slot : Nat)
  | jr (pcell slot : Nat)
  | call (pcell slot : Nat)
  | callr (pcell slot : Nat)
  | ret (pcell slot : Nat)
  | nop (pcell slot : Nat)
  | endStrand (pcell slot : Nat)
  | endr (pcell slot : Nat)
  | brk (pcell slot : Nat)
  | fencei (pcell slot : Nat)
  | trap (pcell slot : Nat)
  | rep (pcell slot : Nat)
  | repu (pcell slot : Nat)
  | ldw (pcell slot : Nat)
  | ldh (pcell slot : Nat)
  | ldhu (pcell slot : Nat)
  | ldb (pcell slot : Nat)
  | ldbu (pcell slot : Nat)
  | ldd (pcell slot : Nat)
  | stw (pcell slot : Nat)
  | sth (pcell slot : Nat)
  | stb (pcell slot : Nat)
  | std (pcell slot : Nat)
  | swp (pcell slot : Nat)
  | lck (pcell slot : Nat)
  | tlck (pcell slot : Nat)
  | unl (pcell slot : Nat)
  | sti (pcell slot : Nat)
  | stiH (pcell slot : Nat)
  | stiW (pcell slot : Nat)
  | stiWh (pcell slot : Nat)
  | send (pcell slot : Nat)
  | sendc (pcell slot : Nat)
  | sendcn (pcell slot : Nat)
  | sendx (pcell slot : Nat)
  | sendt (pcell slot : Nat)
  | evs (pcell slot : Nat)
  | iter (pcell slot : Nat)
  -- the spill engine and the sky's own traffic (R274)
  | spill (at_ : CloudRead)
  | recall (cloud : Nat)
  | fetch (cloud : Nat)
  | count (pcell : Nat)
  | sweep (cloud : Nat)
  | enginePurge (cloud : Nat)
  | flush (cloud : Nat)
  | evict (pcell : Nat)
  | moveEntry (old new : Nat) (index : Nat)
  | moveSpill (lid : Nat) (level index : Nat)
  | moveState (old new : Nat) (part : Nat) (off : Nat)
  | moveDone (old new : Nat)
  | copyBlock (pcell : Nat) (istore : Bool) (off : Nat) (heads : Word) (bytes : List Byte)
  | readBlock (pcell : Nat) (istore : Bool) (off : Nat)
  | viewSet (pcell : Nat) (set pair : Nat)
  | viewKey (pcell : Nat) (flow : BitVec 12) (iteration : BitVec 16) (addr : BitVec 14)
  | viewSpill (cloud : Nat) (cell : BitVec 4) (flow : BitVec 12) (iteration : BitVec 16)
      (addr : BitVec 14)
  | viewSlot (pcell : Nat) (pair : Nat)
  | dbgWrite (pcell : Nat) (target : BitVec 2) (rb : BitVec 14) (where_ : BitVec 16) (v : Word)
      (head : Bool)
  | dbgCtrl (pcell : Nat) (rb : BitVec 14) (op : BitVec 2)
  | setupRd (addr : BitVec 24)
  | setupWr (addr : BitVec 24) (v : Word)
  -- banks, locks, semaphores, DRAM, MRAM, march
  | bankLoad (bank : Nat) (ecc : Ecc)
  | bankStore (bank : Nat) (ecc : Ecc)
  | blockLoad (bank : Nat) (ecc : Ecc)
  | blockStore (bank : Nat)
  | setAliasStore (bank : Nat) (ecc : Ecc)
  | clearAliasStore (bank : Nat) (ecc : Ecc)
  | bankSwp (bank : Nat) (ecc : Ecc)
  | bankLck (bank : Nat) (ecc : LockEcc)
  | bankTlck (at_ : LockRead)
  | bankUnl (at_ : LockRead)
  | releaseAbandoned (at_ : LockRead)
  | cancelWait (at_ : LockRead)
  | reprioritiseWaiter (at_ : LockRead)
  | ownerGone (at_ : LockRead)
  | semaphoreAcquire
  | semaphoreRelease
  | hostAcquire (sem : BitVec 6)
  | hostRelease (sem : BitVec 6)
  | clearAbandon
  | forceRelease
  | dramAccess (ecc : Ecc)
  | mramAccess (ecc : Ecc)
  | rollSegment (engine : Nat) (bits : List FailBit)
  -- the dispatcher
  | dispatchEvent (source : Nat)
  | completionReport
  | abortReport
  | frameFreeReport
  | prefetchTakenReport
  | purgeComplete
  | iterRequest
  | boost
  | unboost
  | dspFselWrite (v : Word)
  | flowCommit
  | disable
  | clearFlags
  | clearCounts
  -- the sequencer and the slot engines
  | seqSlotStart (part : Nat)
  | slotAdmit (pcell : Nat)
  | frameBoundary (part : Nat)
  | armHandover (part : Nat) (target : BitVec 16)
  | armGap (part : Nat) (target : BitVec 16)
  | cancel (part : Nat)
  -- pair stations
  | pairToken (station : Nat)
  | pairPacket (station : Nat) (cmpFault : CmpFault)
  | pairWindowTimeout (station : Nat) (checker : Bool) (index : Nat)
  | stationResponse (station : Nat)
  | mirrorRecord (pcell : Nat)
  | checkerOperandTimeout (pcell : Nat)
  | trapNotice (station : Nat)
  | debugStop (station : Nat)
  | replayRecord (pcell : Nat)
  -- the jetstream
  | flitHop (sel : HopSel) (index : Nat) (flips : List (Nat × BitVec 160))
  | creditReturn (index : Nat)
  | creditTimeout (index : Nat)
  | responseTimeout (from_ : Requester) (tag : Nat)
  | stallTimeout (h : Holder)
  | cldCtrlSlowWrite (cloud : Nat) (v : Word)
  | cldCtrlKeepOnWrite (cloud : Nat) (v : Word)
  | drainComplete (cloud : Nat)
  | pllRelockDone (cloud : Nat)
  | parkIdle (cloud : Nat)
  | wakeComplete (cloud : Nat)
  | powerUpComplete (cloud : Nat)
  | prbCfgWrite (probe : Nat) (v : Word)
  -- rolling self-test and shadow swap
  | rollStart
  | rollDrainDone
  | rollDrainTimeout
  | rollCopyDone
  | rollTestDone (passed : Bool) (macros : List MacroFail)
  | quietSpanStart
  | shadowCopyDone
  -- the last rows of the table
  | undefinedEncoding (pcell slot : Nat)
  | sourceHealthy (w : WireSel)
  | fieldSideTimeout
  deriving DecidableEq, Repr

end Sys2Proof
end

