-- ==== Sys2Proof/Decode.lean ====
section
/-! DEFINITION. The word decoder of the block. The opcode table gives its rows no bits (every row
has an empty field list), so no word spells a command. -/

namespace Sys2Proof

/-- The command that a word of the opcode table spells: none, since the table gives no row bits.
Register messages, ring entries, frames and Jithar parcels are decoded by the meanings of the
commands that carry them (R84, R428, R453). -/
def decodeTableWord (_nbits _w : Nat) : Option Instr := none

end Sys2Proof
end

