-- ==== Sys2Proof/Config.lean ====
section
/-! DEFINITION. What an implementation fixes and what the manual leaves open: constants with no
body, so that no proof can see a value. A function here is applied to what its value may depend on,
or to the state's counter of fresh values. Where the manual bounds a value, the bound is kept by the
definition that stands beside the constant. -/

namespace Sys2Proof.Config

/-- The raw stepping fuse (R498). DESIGN CHOICE, log entry 5. -/
opaque steppingFuse : Nat

/-- The silicon stepping, 1 to 255 (R498). -/
def stepping : Nat := steppingFuse % 255 + 1

/-- The raw serial number fuse (R498). DESIGN CHOICE, log entry 5. -/
opaque serialFuse : Nat

/-- The module's serial number: 64 bits, never 0 as a whole (R498). -/
def serial : BitVec 64 := BitVec.ofNat 64 (serialFuse % (2 ^ 64 - 1) + 1)

/-- The raw barrier delay fuse (R384). DESIGN CHOICE, log entry 5. -/
opaque barFuse : Nat

/-- The barrier delay in ns, 20 to 80 (R384). -/
def barDelay : Nat := barFuse % 61 + 20

/-- The integral part of the servo's correction: the rate estimate after the n-th result, for the offset and the estimate
before. The manual gives no coefficient (R385). DESIGN CHOICE, log entry 10. -/
opaque servoEstimate : Nat → Int → Int → Int

/-- The raw proportional part of the servo's correction, in 0.01 ppm, for the n-th result and its offset; its bound is
kept where it is applied (R385). DESIGN CHOICE, log entry 10. -/
opaque servoSlew : Nat → Int → Nat

/-- The zenith time of a Sync that arrives before any time marker, the n-th free value (R384). DESIGN CHOICE, log entry
146. -/
opaque unpairedTime : Nat → Int

/-- Which of the two directions of a quadrature pair counts upward (R406 names none). DESIGN CHOICE, log entry 11. -/
opaque quadSense : Bool

/-- The bit time, in core cycles, of an SPI or UART port (mode 0 or 1) whose divisor lies below the mode's limit, which
the manual does not give (R415). DESIGN CHOICE, log entry 160. -/
opaque bitTime : Nat → Nat → Nat

/-- The level of a serial line where the manual names none, the n-th free value (R415). DESIGN CHOICE, log entry 160. -/
opaque serialLevel : Nat → Bool

/-- A nonce of CHALLENGE, the n-th free value (R466). DESIGN CHOICE, log entries 8 and 114. -/
opaque nonce : Nat → BitVec 128

/-- The level that a pin takes which nothing drives, the n-th free value (R529). DESIGN CHOICE, log entry 9. -/
opaque floatLevel : Nat → Bool

/-- A free word, the n-th (a value that the manual leaves undefined). DESIGN CHOICE, log entry 8. -/
opaque freeWord : Nat → Word

/-- A free byte of memory that an error has left undefined, the n-th. DESIGN CHOICE, log entry 8. -/
opaque freeByte : Nat → Byte

/-- Ed25519 verification: key, message and signature (R469; the scheme is the public standard).
PRESUMED, log entry 12. -/
opaque ed25519 : BitVec 256 → List Byte → BitVec 512 → Bool

end Sys2Proof.Config
end

