-- ==== Sys2Proof/Machine/State.lean ====
section
/-! DEFINITION. The state of the block as plain data: every register, store, queue, counter, mode
and pin the manual gives it, grouped by the unit that holds it, and the queue of the commands that
wait. `State.reset` is the module right after power-up, both resets low. A `Table` and a `Memory`
are lists in one canonical form: keys strictly rising, and no entry equal to what an unlisted key
reads as. -/

namespace Sys2Proof.Machine

/-- A sparse table from numbers to values: keys rise strictly, and no entry holds the default. -/
abbrev Table (α : Type) := List (Nat × α)

/-- An addressed memory (R11): bytes by address, an unlisted address reads 0. -/
abbrev Memory := List Host.Cell

/-- The three variants (R2). -/
inductive Variant where
  | ltm7256 | ltm7128 | ltm7064
  deriving DecidableEq, Repr

/-- The eight modes, in the order of their codes (R376, R474). -/
inductive Mode where
  | reset | test | link | load | run | degraded | halt | safe
  deriving DecidableEq, Repr

/-- The load states, in the order of their codes (MODE_STAT.lstate). -/
inductive LoadState where
  | wait | verify | check | write | done | refused
  deriving DecidableEq, Repr

/-- Zenith's states, in the order of their codes (R387). -/
inductive ZenState where
  | unlocked | acquiring | locked | holdover
  deriving DecidableEq, Repr

/-- The state of a cloud, by CLD_STAT.state (R34). -/
inductive CloudState where
  | off | test | run | drain | parked | waking | fenced
  deriving DecidableEq, Repr

/-- The states of a Scheduled partition (SEQ_PSTAT.state). -/
inductive PartState where
  | idle | run | halted | faulted | armed | gap | wait
  deriving DecidableEq, Repr

/-- Why a step stops with a fault: never. The manual names no event after which the module has no next state,
and a command that names a unit which the variant lacks is an event that does not happen (log entry 1). -/
inductive Fault where
  deriving DecidableEq, Repr

/-- Why a step is refused. -/
inductive Refusal where
  /-- The command has no meaning yet. Raised by the arms of `exec` alone. Safe. -/
  | notModelled (mnemonic : String)
  deriving DecidableEq, Repr

/-- A level on a wire that may be undriven: `none` is high-impedance (R369, R529). -/
abbrev Level := Option Bool

/-! ### Channels and credits -/

/-- A virtual channel, by its code (R229, R235). -/
inductive Vc where
  | t | q | p | s
  deriving DecidableEq, Repr

/-- A terminal buffer (R237). -/
inductive Buffer where
  | tokenQueue (pcell : Nat)
  /-- The prefetch slot of a logical cell, whose one credit the dispatcher holds by its empty-slot record (R178, R237). -/
  | prefetch (lid : Nat)
  | bankQueue (bank : Nat)
  | engineQueue (cloud : Nat)
  | marchQueue (cloud : Nat)
  | ingress (cloud : Nat) (vc : Vc)
  | egress (cloud : Nat) (vc : Vc)
  | rootIngress (vc : Vc)
  deriving DecidableEq, Repr

/-- A spent credit: its holder, its buffer and the launch time, and bits [15:0] and the message type of the packet
launched under it (R238, R242, R262). -/
structure Credit where
  holder : Holder
  buffer : Buffer
  time   : Nat
  head   : BitVec 16
  access : BitVec 3
  deriving DecidableEq, Repr

/-! ### Tokens and messages -/

/-- A token, field by field (R39, R40). -/
structure Token where
  value     : Word
  stamp     : Word
  flow      : BitVec 12
  iteration : BitVec 16
  addr      : BitVec 14
  port      : BitVec 2
  cell      : BitVec 8
  cls       : BitVec 3
  pair      : Bool
  replay    : Bool
  spilled   : Bool
  late      : Bool
  ordered   : Bool
  fmt       : BitVec 4
  deriving DecidableEq, Repr

/-- The activation header words H0 to H3 (R145), field by field. -/
structure Header where
  flow      : BitVec 12
  iteration : BitVec 16
  cls       : BitVec 2
  atomic    : Bool
  base      : BitVec 14
  nareas    : BitVec 3
  areaWords : BitVec 14
  winWords  : BitVec 14
  handler   : BitVec 14
  hen       : Bool
  deriving DecidableEq, Repr

/-- A fired activation: its operands and its tag (R45). -/
structure Activation where
  w0        : Word
  w1        : Word
  stamp     : Word
  flow      : BitVec 12
  iteration : BitVec 16
  addr      : BitVec 14
  cls       : BitVec 2
  late      : Bool
  ordered   : Bool
  pair      : Bool
  replay    : Bool
  /-- The firing number of the slot entry that started it, in a paired cell (R316). -/
  fseq      : BitVec 20
  /-- A trap token's firing, the one that a TRAPPED activation accepts (R143, R159). -/
  trap      : Bool
  deriving DecidableEq, Repr

/-- A Q request (R236, R273, R284): head fields and the data of body and tail flits. -/
structure Request where
  op      : Byte
  addr    : Word
  data    : BitVec 64
  body    : List Byte
  /-- The requester's route: cloud field, router or root cell field, and tag. -/
  rcloud  : BitVec 5
  rcell   : BitVec 4
  unit    : BitVec 3
  tag     : BitVec 6
  /-- The credit of the buffer entry in which the request stands (R238). -/
  credit  : Option Credit
  deriving DecidableEq, Repr

/-- A P response (R236, R275, R285). -/
structure Response where
  addr   : Word
  status : Byte
  /-- The requester that the answer names: cloud field, router or root cell field, and unit. -/
  rcloud : BitVec 5
  rcell  : BitVec 4
  unit   : BitVec 3
  tag    : BitVec 6
  data   : BitVec 64
  body   : List Byte
  deriving DecidableEq, Repr

/-- A message as one network packet carries it (R235, R274, R315). -/
inductive Msg where
  /-- A token (R39), on T or S. -/
  | token (t : Token)
  /-- A start message: header and start firing (R178, R179). -/
  | start (h : Header) (t : Token)
  /-- A prefetch message (R178). -/
  | prefetch (h : Header) (t : Token)
  /-- An ITER grant: header and granted iteration, for a requesting strand (R185). -/
  | grant (h : Header) (reqIteration : BitVec 16)
  /-- A pre-matched activation: the left token, and w1, stamp, class, late and ordered of the firing (R274). -/
  | preMatched (t : Token) (w1 stamp : Word) (cls : BitVec 3) (late ordered : Bool)
  /-- An event of EVS (R130, R164). -/
  | event (flow : BitVec 12) (flag : BitVec 5) (value : Word)
  /-- A request. -/
  | request (r : Request)
  /-- A response. -/
  | response (r : Response)
  deriving DecidableEq, Repr

/-- The kinds of pair packet (R315). -/
inductive PairKind where
  | message | mirror | trapNotice | debugStop
  deriving DecidableEq, Repr

/-- The tail of a mirror record (R318). -/
structure Mirror where
  k       : Word
  tstart  : BitVec 36
  fseq    : BitVec 20
  entry   : BitVec 10
  outcome : BitVec 2
  present : BitVec 2
  mcount  : BitVec 2
  deriving DecidableEq, Repr

/-- A debugger's write, step or resume, recorded for replay (R331). -/
structure Replay where
  /-- 0 frame-store word, 1 special, 2 parcel, 3 step, 4 resume. -/
  what   : BitVec 3
  rb     : BitVec 14
  target : BitVec 16
  value  : Word
  head   : Bool
  /-- The instruction count at which the main stood stopped. -/
  atCount : Nat
  fseq    : BitVec 20
  deriving DecidableEq, Repr

/-- A pair packet: head fields and tail (R315). -/
structure PairPacket where
  fseq      : BitVec 20
  n         : BitVec 8
  checker   : Bool
  kind      : PairKind
  pid       : BitVec 8
  flow      : BitVec 12
  iteration : BitVec 16
  /-- The destination and channel of the carried message (the head's hdr). -/
  dcloud    : BitVec 5
  dcell     : BitVec 4
  vc        : Vc
  /-- The carried message of kind 0. -/
  msg       : Option Msg
  /-- The tail of kinds 1 to 3: the mirror record, the trap word, the instruction count. -/
  mirror    : Option Mirror
  word      : Word
  deriving DecidableEq, Repr

/-- What a packet in the network carries. -/
inductive Cargo where
  | plain (m : Msg)
  | paired (p : PairPacket)
  /-- A replay record for a checker: a token with replay = 1, and what it records (R331). -/
  | replay (t : Token) (r : Replay)
  deriving DecidableEq, Repr

/-- Where a packet stands in the network (R226). -/
inductive Place where
  /-- At mesh router k of a cloud. -/
  | router (cloud k : Nat)
  /-- In the FIFO of a cloud's bridge, upward or downward (R240, R247). -/
  | bridge (cloud : Nat) (up : Bool)
  | level1 (node : Nat)
  | level2 (node : Nat)
  | root
  deriving DecidableEq, Repr

/-- A packet: route, channel, cargo, the bits in error so far, and where it stands. -/
structure Packet where
  dcloud : BitVec 5
  dcell  : BitVec 4
  vc     : Vc
  cargo  : Cargo
  place  : Place
  /-- The input port by which it came (R240). -/
  inPort : Nat
  /-- The output port to be taken where it stands: the la that it was sent with (R229, R233). -/
  la     : Nat
  /-- Errors that the hop checks left in payload and crc, by flit: payload in [127:0], crc above
  (R231, R248). -/
  errs   : Table (BitVec 135)
  /-- Errors that the hop checks left in bits [15:0], by flit, beside those of the head's destination, la and
  vc, which stand in the fields above. -/
  hdrErrs : Table (BitVec 16)
  /-- The physical cell that sent it, or 0x3FF for a root unit. -/
  sender : Nat
  /-- The terminal buffer whose entry it has reserved, with the holder of that credit (R238). -/
  credit : Option Credit
  deriving DecidableEq, Repr

/-! ### A cell -/

/-- An entry of a matching store or of a spill table: token, latch bit, past bit (R53, R58). -/
structure Entry where
  tok   : Token
  latch : Bool
  past  : Bool
  deriving DecidableEq, Repr

/-- A token at the head of a cell's intake, with where it came from (R42, R61, R71). -/
inductive Intake where
  /-- From the network on channel T, with its header when it is a start message. -/
  | network (t : Token) (h : Option Header) (c : Option Credit)
  /-- Returned by the spill engine (R71). -/
  | returned (t : Token) (c : Option Credit)
  /-- The cell's own trap token (R159). -/
  | own (t : Token)
  /-- An ITER grant (R185). -/
  | grant (h : Header) (reqIteration : BitVec 16) (c : Option Credit)
  deriving DecidableEq, Repr

/-- The state of a directory entry (H3.state, R145). -/
inductive DirState where
  | live | done | trapped
  deriving DecidableEq, Repr

/-- A frame-directory entry (R143). -/
structure DirEntry where
  hdr       : Header
  busy      : Byte
  state     : DirState
  /-- Set for an entry of a flow record, which matches every iteration (R202). -/
  scheduled : Bool
  /-- The activation's trap token is on its way to its handler (R159). -/
  trapPending : Bool
  /-- Completion has been reported (R128). -/
  complete  : Bool
  deriving DecidableEq, Repr

/-- What a strand waits for in its slot (R138). -/
inductive Wait where
  | nothing
  /-- The answer to the request with this tag (R118). -/
  | remote (tag : Nat)
  /-- A lock grant, by wait id, with the destination register and the lock address (R285). -/
  | lock (waitId : Nat) (rd : Nat) (ea : Word)
  /-- An ITER grant, with the destination register and the order of the request (R129). -/
  | iter (rd order : Nat)
  /-- A divide in progress, with the quotient and remainder it will write (R108), and whether it
  stands in a multiply's next position, so that it is never abandoned (R154). -/
  | divide (qt md : Word) (kept : Bool)
  /-- At a BRK with the debug list full (R487). -/
  | brk
  /-- For a free entry of the output queue, a free tag, or an acknowledgement: it counts as a wait for a remote
  answer (R239, R244, R317). -/
  | output
  deriving DecidableEq, Repr

/-- The parcels that an STI leaves as they stood for its own strand (R132): nine parcels, each
with its head bit in bit 16, from the address A + 2. -/
structure StiWindow where
  start   : BitVec 14
  parcels : List (BitVec 17)
  deriving DecidableEq, Repr

/-- A strand: its window bases, its program counter, its specials and its firing (R88, R90, R95,
R146, R148). The window words themselves lie in the frame store. -/
structure Strand where
  /-- The model's own number of the strand on its cell, by which answers find it. -/
  uid       : Nat
  flow      : BitVec 12
  iteration : BitVec 16
  start     : BitVec 14
  cls       : BitVec 2
  stamp     : Word
  late      : Bool
  ordered   : Bool
  pair      : Bool
  replay    : Bool
  atomic    : Bool
  area      : BitVec 3
  pc        : BitVec 14
  b         : BitVec 14
  f         : BitVec 14
  l         : BitVec 14
  rb        : BitVec 14
  lk        : Word
  pl        : Word
  ph        : Word
  qt        : Word
  md        : Word
  rc        : Word
  user      : Byte
  depth     : BitVec 5
  rep       : Bool
  repu      : Bool
  k         : BitVec 6
  /-- The step bits of the repeat in progress: sa, sb, sd (R110). -/
  steps     : BitVec 3
  si        : BitVec 16
  /-- The pending result of a multiply (R106, R152). -/
  mulPend   : Option (BitVec 64)
  /-- The strand executes one instruction and ends (R87). -/
  single    : Bool
  wait      : Wait
  /-- The address of the first posted store answered with an error since the last FENCE (R277). -/
  postErr   : Option Word
  stiWins   : List StiWindow
  /-- A debugger's STEP is in force (R488). -/
  stepping  : Bool
  /-- The BRK at the program counter is to be passed as a NOP (R488). -/
  passBrk   : Bool
  /-- Instructions executed, counted for debug stops of a pair (R330). -/
  executed  : Nat
  fseq      : BitVec 20
  /-- Outputs numbered so far, 0 to 256 (R316). -/
  outputs   : Nat
  /-- Outputs the station has not acknowledged (R317). -/
  unacked   : List (BitVec 8)
  /-- The activation has trapped or aborted, and the strand stops at its next pre-emption point
  (R159). -/
  dying     : Bool
  deriving DecidableEq, Repr

/-- A write of a global that has just issued: the register, its value before, the writing strand, the core cycle of its
issue, and the issues of the cell since (R94). -/
structure GlobalWrite where
  reg   : Nat
  old   : Word
  uid   : Nat
  cycle : Nat
  age   : Nat
  deriving DecidableEq, Repr

/-- A purge (R57). -/
structure Purge where
  flow      : BitVec 12
  /-- `none` for (flow, all). -/
  iteration : Option (BitVec 16)
  deriving DecidableEq, Repr

/-- What a cell does with the answer to a request (R118, R119, R120, R276, R287). A destination of 63
is a write that a multiply's update replaces (R152). -/
inductive Pending where
  /-- A load: destination, size in bytes, sign extension. -/
  | load (rd size : Nat) (signed : Bool)
  | swp (rd : Nat)
  | lck (rd waitId : Nat) (flow : BitVec 12)
  | tlck (rd : Nat) (flow : BitVec 12)
  | unl (flow : BitVec 12)
  | store
  /-- A release-abandoned request of the cell itself (R287). -/
  | release (flow : BitVec 12)
  /-- A cancel of a wait (R292). -/
  | cancel (waitId : Nat)
  /-- A reprioritise request (R291). -/
  | reprioritise
  /-- A message to the spill engine (R274). -/
  | engine
  /-- The engine's part of a purge, whose completion the cell then reports (R57). -/
  | purge (p : Purge)
  deriving DecidableEq, Repr

/-- What the head of a pair packet says of an output: its sequence number, and the flow and iteration of the strand that
emits it (R315, R316). -/
structure OutputSeq where
  fseq      : BitVec 20
  n         : BitVec 8
  flow      : BitVec 12
  iteration : BitVec 16
  deriving DecidableEq, Repr

/-- A request of the cell itself, formed and not yet under a tag (R239, R274, R287, R291, R292): what its answer does,
the address, the operation, and the data of its head and its tail. A message to the spill engine carries the
engine's address fields, and no effective address. -/
structure HouseReq where
  what : Pending
  ea   : Word
  op   : Byte
  data : BitVec 64
  body : List Byte
  /-- In a paired cell: the firing number, output number, flow and iteration under which it leaves (R314, R315). -/
  seq  : OutputSeq
  deriving DecidableEq, Repr

/-- An outstanding request of a cell (R239): tag, strand, address, launch time, and bits [15:0] of its head. -/
structure Outstanding where
  tag  : Nat
  head : BitVec 16
  uid  : Nat
  what : Pending
  ea   : Word
  time : Nat
  deriving DecidableEq, Repr

/-- An entry of a held-lock table (R286). -/
structure HeldLock where
  flow : BitVec 12
  addr : Word
  deriving DecidableEq, Repr

/-- A wait record of a cell (R285). -/
structure WaitRec where
  waitId : Nat
  uid    : Nat
  flow   : BitVec 12
  addr   : Word
  /-- The bank that holds the waiter, by its number. -/
  bank   : Nat
  deriving DecidableEq, Repr

/-- The slot engine of a Scheduled cell (R199, R211, R221, R319). -/
structure CellRuntime where
  /-- The next entry of the active bank, in table order (R211). -/
  pos   : Nat
  /-- The firing number of the next entry (R316). -/
  fseq  : BitVec 20
  /-- The active bank is B; and the frame at which the engine changes to the other (R221). -/
  bankB : Bool
  swapAt : Option Word
  /-- Bits [31:0] of the frame of the latest mirror record, in a checker (R319). -/
  frame : Word
  /-- Last good values, by store entry 2m or 2m + 1 (R211). -/
  good  : Table Word
  /-- Flows whose directory entry is TRAPPED until the next frame boundary (R213). -/
  trapped : List (BitVec 12)
  deriving DecidableEq, Repr

/-- A physical cell. -/
structure Cell where
  /-- Token input queue, 32 entries (R61, R237); returned and trap tokens stand ahead (R71, R159). -/
  inQ       : List Intake
  /-- Scheduled queue, 8 entries (R241). -/
  schedQ    : List Token
  /-- Matching store: entry set × 8 + way (R58), or 2m and 2m + 1 (R208). -/
  store     : Table Entry
  /-- The latch whose sweep is running (R48, R49). -/
  sweep     : Option Token
  /-- Spill counters by set, 12 bits (R68). -/
  spillCnt  : Table Nat
  /-- Late-policy table, 4,096 entries of 2 bits (R55). -/
  latePol   : Table (BitVec 2)
  /-- Late-drop counter (R54). -/
  lateDrops : Nat
  /-- The set the ager visits next, 0 to 255 (R53). -/
  ager      : Nat
  /-- Ready queue, 64 activations, head first (R74). -/
  readyQ    : List Activation
  /-- The prefetch slot (R150). -/
  prefetch  : Option Activation
  /-- A prefetch message that has arrived and not yet filled the slot (R178). -/
  prefetchIn : Option (Header × Token)
  /-- Pre-matched activations delivered by the spill engine and not yet taken (R70). -/
  preQ      : List (Activation × Option Credit)
  /-- Trap tokens of the cell that wait for one of its two credits (R159, R237). -/
  trapQ     : List Token
  /-- The eight strand slots (R138). -/
  slots     : Table Strand
  /-- Slots by their last issue, the latest first, with zenith's count at it (R138, R139). -/
  issued    : List (Nat × Nat)
  /-- Resume list (R156) and debug list (R487), 8 entries each. -/
  resume    : List Strand
  debugList : List Strand
  /-- Frame directory, 128 entries (R143). -/
  dir       : List DirEntry
  /-- Frame store, 64 KiB (R144, R263). -/
  frame     : Memory
  /-- Instruction store: 16,384 parcels, head bit in bit 16 (R84, R86). -/
  istore    : Table (BitVec 17)
  /-- Globals g0 to g7 (R89). -/
  globals   : Table Word
  /-- Writes of globals that other strands may not see yet, the latest first (R94). -/
  lately    : List GlobalWrite
  /-- Held-lock table, 32 entries (R286). -/
  held      : List HeldLock
  /-- Wait records, 16 (R285). -/
  waits     : List WaitRec
  /-- Outstanding requests, 16 tags (R239). -/
  tags      : List Outstanding
  /-- Requests of strands, formed and not yet launched. -/
  reqQ      : List Packet
  /-- Requests of the cell itself and its messages to the spill engine, which take a tag when they are launched
  (R274, R287, R291, R292). -/
  houseQ    : List HouseReq
  /-- Output queue of tokens and event messages, 16 entries (R244). -/
  outQ      : List Packet
  /-- Answers and grants that have arrived (R239, R285). -/
  respQ     : List Response
  /-- Purges from the dispatcher (R57). -/
  purges    : List Purge
  /-- Class boosts by flow, and boost messages not yet applied (R139, R190). -/
  boosts    : Table (BitVec 2)
  boostQ    : List (BitVec 12 × Option (BitVec 2))
  /-- An EVICT from the spill engine is asked for (R274). -/
  evictAsk  : Bool
  /-- Mirror and replay records that a checker has received (R319, R331), and acknowledgements of
  the station (R317). -/
  mirrorQ   : List Mirror
  replayQ   : List Replay
  ackQ      : List (BitVec 20 × BitVec 8)
  /-- Trap notices that wait for the other strands of their activation to stop (R327): the strand and the trap
  word. -/
  notices   : List (Strand × Word)
  /-- Debug stops of the main by firing number, for a checker (R330). -/
  stops     : List (BitVec 20 × Nat)
  /-- Slot engine (R211). -/
  engine    : CellRuntime
  /-- View buffer of the store and of the slots (R274). -/
  viewStore : List (Option Entry)
  viewSlots : List (List Byte)
  viewWhen  : Nat
  /-- The next strand number of the model; 0 stands for the cell itself. -/
  nextUid   : Nat
  /-- The cell is stopped by a fence, by SAFE or by a warm start (R359, R370, R478). -/
  stopped   : Bool
  deriving DecidableEq, Repr

/-! ### A cloud -/

/-- Why a cloud drains (R252). -/
inductive DrainCause where
  /-- An island frequency change, to 500 MHz when set (R35). -/
  | freq (slow : Bool)
  /-- A switch of a logical id (R36). -/
  | move
  /-- A park (R254). -/
  | park
  /-- A return to OFF (R258). -/
  | off
  deriving DecidableEq, Repr

/-- A physical cloud. -/
structure Cloud where
  state     : CloudState
  /-- The island runs at 500 MHz; the PLL is locked (CLD_STAT). -/
  slowAct   : Bool
  pllLock   : Bool
  /-- Repair has retired the cloud (CLD_STAT). -/
  retired   : Bool
  /-- The running cause of a drain, and the causes that wait (R38). -/
  cause     : Option DrainCause
  waiting   : List DrainCause
  /-- The island PLL relocks (R35). -/
  relock    : Bool
  /-- Step 4 of R252 is complete, and the switch of a logical id is awaited. -/
  drained   : Bool
  /-- The cloud powers up from OFF, and not from PARKED (R258). -/
  cold      : Bool
  /-- A wake was asked for during a drain, or a flit waits at the ingress (R38, R254, R256). -/
  wakeAsk   : Bool
  /-- Spill engine: level 2 by set × 7 + position, level 3 by bucket × 63 + position (R67). -/
  l2        : Table Entry
  l3        : Table Entry
  engineQ   : List Request
  /-- Answers, returns and pre-matched activations that the engine has still to launch (R274). -/
  engineOut : List Packet
  /-- Tokens of each physical cell's set that left levels 2 and 3 since the last COUNT (R274):
  router × 256 + set. -/
  left      : Table Nat
  /-- A FLUSH is asked for, and has completed (R254). -/
  flushAsk  : Bool
  flushed   : Bool
  /-- Buffers of the cloud's agents at the level-one node (R237). -/
  ingressB  : List Packet
  egressB   : List Packet
  /-- The ingress agent's table of requests forwarded into the cloud, 64 entries (R257). -/
  forwarded : List Packet
  /-- Scratchpad, 512 KiB (R269). -/
  scratch   : Memory
  deriving DecidableEq, Repr

/-! ### Banks, locks and the root memories -/

/-- A waiter record (R283). -/
structure Waiter where
  cell   : BitVec 8
  flow   : BitVec 12
  cls    : BitVec 2
  waitId : BitVec 4
  /-- The number of its record, 0 to 63 (R308). -/
  record : Nat
  /-- The requester's route, to which the grant goes. -/
  rcloud : BitVec 5
  rcell  : BitVec 4
  deriving DecidableEq, Repr

/-- A lock-directory entry (R283). -/
structure LockEntry where
  addr    : Nat
  /-- HELD when set, ABANDONED-FREE when not. -/
  held    : Bool
  cell    : BitVec 8
  flow    : BitVec 12
  cls     : BitVec 2
  waiters : List Waiter
  /-- The best waiter that the latest boost for the owner named, by its record, and the boost's class (R290). -/
  boosted : Option (Nat × BitVec 2)
  deriving DecidableEq, Repr

/-- A bank: 0 to 143 cloud × 8 + bank, 144 to 151 global banks (LCK_DIR). -/
structure Bank where
  /-- Request queue, 24 entries for a cloud bank (R237). -/
  queue : List Request
  /-- The source that the round-robin served last, by its number among the 18 (R270). -/
  turn  : Nat
  /-- Answers and grants not yet launched. -/
  answers : List Packet
  /-- Lock directory by record number, 32 entries, 64 waiter records in all (R283, R308). -/
  dir   : Table LockEntry
  /-- Most entries in use since reset (LCK_DIR.peak). -/
  peak  : Nat
  /-- Owner-gone notices for departed logical ids (R288). -/
  gone  : List (BitVec 8)
  deriving DecidableEq, Repr

/-- The root memories and the banks (R269, R271, R278, R281). -/
structure MemUnit where
  banks   : Table Bank
  /-- Global memory, 3 MiB; DRAM; MRAM. -/
  glob    : Memory
  dram    : Memory
  mram    : Memory
  /-- Poisoned words: memory number and word address (R272). Memory n is scratchpad n for n below
  18, 18 global memory, 19 DRAM, and 32 + pcell a frame store. -/
  poison  : List (Nat × Nat)
  /-- Requests at the DRAM and the MRAM controller and at the semaphores, and their answers. -/
  dramQ   : List Request
  mramQ   : List Request
  semQ    : List Request
  rootAns : List Packet
  /-- Semaphore counts and maxima are registers (SEM_CFG); march: next segment of each engine. -/
  marchAt : Table Nat
  /-- Spare rows and columns used, by macro id: rows, columns (R298, R302). -/
  spares  : Table (Nat × Nat)
  /-- The answer the latest message of R274 received: status and data. -/
  reply   : Byte × List Byte
  deriving DecidableEq, Repr

/-! ### The dispatcher -/

/-- An event at the dispatcher (R164, R166). -/
structure Event where
  flow  : BitVec 12
  flag  : BitVec 5
  value : Word
  /-- Line time, and the local mark taken with it. -/
  time  : Nat
  local_ : Bool
  deriving DecidableEq, Repr

/-- A pending activation (R171). -/
structure PendAct where
  value : Word
  time  : Nat
  src   : BitVec 3
  local_ : Bool
  deriving DecidableEq, Repr

/-- A report from a cell or a bank (R165, R181, R290). -/
inductive Report where
  | completion (lid : Nat) (flow : BitVec 12) (iteration : BitVec 16)
  | abort (lid : Nat) (flow : BitVec 12) (iteration : BitVec 16) (hen : Bool)
  | frameFree (lid : Nat) (flow : BitVec 12) (iteration : BitVec 16)
  | prefetchTaken (lid : Nat)
  | purgeDone (lid : Nat) (p : Purge)
  | boost (lid : Nat) (flow : BitVec 12) (bank : Nat) (cls : BitVec 2)
  | unboost (lid : Nat) (flow : BitVec 12) (bank : Nat)
  deriving DecidableEq, Repr

/-- An ITER request (R185). -/
structure IterReq where
  lid       : Nat
  flow      : BitVec 12
  iteration : BitVec 16
  deriving DecidableEq, Repr

/-- A frame that the dispatcher has allocated (R177). -/
structure FrameRec where
  lid       : Nat
  flow      : BitVec 12
  iteration : BitVec 16
  granule   : Nat
  len       : Nat
  deriving DecidableEq, Repr

/-- An outstanding purge and the cells that have still to report it (R182). -/
structure PurgeRec where
  purge : Purge
  cells : List Nat
  deriving DecidableEq, Repr

/-- An entry of the boost table (R190). -/
structure BoostRec where
  lid  : Nat
  flow : BitVec 12
  bank : Nat
  cls  : BitVec 2
  deriving DecidableEq, Repr

/-- The dispatcher. The flow table itself lies in global memory (R167). -/
structure Dispatcher where
  /-- Input queues by source code 1 to 5, 16 entries each (R164, R165). -/
  events   : Table (List Event)
  /-- The source that the round-robin served last (R165). -/
  lastSrc  : Nat
  /-- Sources whose queue is held, with the flow that holds it (R187). -/
  holding  : Table (BitVec 12)
  reports  : List Report
  iters    : List IterReq
  /-- Waiting ITER requests by flow (R185). -/
  iterQ    : Table (List IterReq)
  /-- Pending activations by flow: on chip, and in DRAM (R171, R188). -/
  onChip   : Table (List PendAct)
  inDram   : Table (List PendAct)
  /-- Staging copy of the window's entry, 16 words (R168). -/
  staging  : List Word
  frames   : List FrameRec
  /-- Purges of (flow, i) already sent, so that frame free sends none again (R181). -/
  purged   : List (BitVec 12 × BitVec 16)
  purges   : List PurgeRec
  /-- Flows that are disabled and wait for their last activation (R184). -/
  disabling : List (BitVec 12)
  boosts   : List BoostRec
  /-- Logical cells that drain, whose prefetch slot is full (DSP_CELL). -/
  drain    : List Nat
  pfFull   : List Nat
  /-- Flows inside an episode of DSP_NOCELL already reported (R194). -/
  noCell   : List (BitVec 12)
  /-- Trace buffer: records not yet drained, oldest first, and where the next goes (R192). -/
  trace    : List (BitVec 128)
  tracePos : Nat
  traceDram : Nat
  deriving DecidableEq, Repr

/-! ### The sequencer -/

/-- An armed swap (R221): a handover or a gap, its target frame, and whether that frame has begun. -/
structure Swap where
  handover : Bool
  target   : Int
  begun    : Bool
  deriving DecidableEq, Repr

/-- A Scheduled partition at the sequencer (R195, R219, R221). -/
structure SeqPart where
  state     : PartState
  /-- The frame that runs and the next slot whose samples go (R195, R214). -/
  frame     : Int
  slot      : Nat
  /-- Active bank: B when set (SEQ_PCFG.bank). -/
  bankB     : Bool
  /-- The first frame allowed to fire in WAIT (R219). -/
  resumeAt  : Nat
  haltAsk   : Bool
  armed     : Option Swap
  /-- The staged schedule: its header words 0 to 3 and its root entries (R200, R220). -/
  staged    : Option (List Word)
  /-- Root entries per bank. -/
  nrootA    : Nat
  nrootB    : Nat
  /-- Path records of the running and of the staged schedule (R205, R215). -/
  paths     : List (BitVec 64)
  stagedPaths : List (BitVec 64)
  /-- Preset tokens, in image order (R206, R224). -/
  presets   : Nat
  /-- Flow records of the running schedule (R201). -/
  records   : List (List Word)
  deriving DecidableEq, Repr

/-! ### Pair stations -/

/-- A window entry of a station (R320). -/
structure WindowEntry where
  packet : PairPacket
  time   : Nat
  deriving DecidableEq, Repr

/-- A station request under one of the 64 tags, and the requesters of the halves (R322). -/
structure StationTag where
  tag     : Nat
  /-- The launch time, and bits [15:0] of the head (R242). -/
  time    : Nat
  head    : BitVec 16
  main    : Request
  checker : Request
  mainCell : Nat
  checkCell : Nat
  deriving DecidableEq, Repr

/-- Outputs dropped after a trap: until this time (R327). -/
structure TrapDrop where
  flow      : BitVec 12
  iteration : BitVec 16
  pid       : BitVec 8
  until_    : Nat
  deriving DecidableEq, Repr

/-- A pair station (R309, R320). Its PAIR_* registers are in the register file. -/
structure Station where
  inQ       : List Packet
  mains     : List WindowEntry
  checkers  : List WindowEntry
  tags      : List StationTag
  answers   : List Response
  notices   : List WindowEntry
  drops     : List TrapDrop
  peak      : Nat
  fenced    : Bool
  deriving DecidableEq, Repr

/-! ### Repair -/

/-- The phases of a rolling self-test or shadow swap (REP_ROLLST.phase). -/
inductive RollPhase where
  | idle | drain | copy | switch | test | return_
  deriving DecidableEq, Repr

/-- The repair controller (R333 to R343). -/
structure Repair where
  /-- Placement: logical cell to physical cell plus 1; 0 when unplaced (R7, R232). -/
  place    : Table Nat
  /-- The placement that TEST gave (REP_MAP.reloc). -/
  tested   : Table Nat
  /-- Scratchpads: logical cloud to physical cloud plus 1 (R264). -/
  cloudOf  : Table Nat
  /-- Physical cells mapped out, and fenced ones (R334, R359). -/
  failed   : List Nat
  fenced   : List Nat
  /-- Refills whose cloud has still to power up or to drain: the logical id and its new cell (R252, R360). -/
  refills  : List (Nat × Nat)
  /-- Quiet spans in µs by logical cell (R341). -/
  quiet    : Table Nat
  phase    : RollPhase
  lid      : Nat
  sub      : Nat
  old      : Nat
  /-- The relocation is a shadow swap, and goes back from substitute to cell (R339, R342). -/
  shadow   : Bool
  back     : Bool
  /-- The cell taken last, and the frames a shadow swap has waited (R338, R342). -/
  lastLid  : Option Nat
  /-- The Scheduled cell taken last, and whether a Scheduled cell is due before the next Dynamic one
  (R341). -/
  lastShadow : Option Nat
  turn     : Bool
  waited   : Nat
  skips    : Nat
  /-- Entries appended to the repair log, and the next sequence number (R305). -/
  logCount : Nat
  logSeq   : BitVec 16
  deriving DecidableEq, Repr

/-- A partition as the image gives it (R26, R481). -/
structure Partition where
  used  : Bool
  sched : Bool
  dbg   : Bool
  cells : BitVec 256
  deriving DecidableEq, Repr

/-! ### The fault collector -/

/-- A report on its way to the collector (R346, R348). -/
structure FaultIn where
  source  : Nat
  /-- Zenith's count in the core cycle of the report (R350). -/
  time    : Nat
  /-- `none` when the detail queue was full, and for a broken wire. -/
  details : Option Details
  /-- The report is of a broken wire on the source's pair (R349). -/
  wire    : Bool := false
  deriving DecidableEq, Repr

/-- The fault collector. Its registers are in the register file. -/
structure Collector where
  inQ     : List FaultIn
  /-- Level sources that assert (R347). -/
  level   : List Nat
  /-- Conditions of the module's own sensors, sources 1 to 6 and 8, that hold in any mode, RESET too, with their
  details (R352, R516). -/
  sensed  : List (Nat × Details)
  /-- Sources with a broken report pair (R349). -/
  wires   : List Nat
  /-- The safe line to the field I/O shows no valid state (R375). -/
  safeLine : Bool
  /-- The partitions that are FAULTED, and the fenced stations and ports (R358, R359). -/
  faulted : BitVec 8
  /-- Cells fenced since FIELD_RST_N (FLT_FUNIT.cells). -/
  cells   : Nat
  /-- The next seq of the fault log, and the line times of the entries written in the last second
  (R376, R377). -/
  seq     : BitVec 16
  /-- The place of the next entry in the log's array. -/
  logPos  : Nat
  recent  : List Nat
  /-- The temperature of the hottest sensor (FLT_TEMP.temp). -/
  temp    : BitVec 8
  deriving DecidableEq, Repr

/-! ### Zenith -/

/-- A sync result as it crosses the barrier (R384). -/
structure SyncRes where
  seq     : BitVec 16
  /-- t1 + corr + dlink in ns, and t2z. -/
  master  : Int
  t2z     : Int
  /-- A Follow_Up was received for the Sync. -/
  complete : Bool
  deriving DecidableEq, Repr

/-- A zenith timer (R394, R395). -/
structure Timer where
  /-- The next tick number to deliver. -/
  next    : Nat
  /-- A tick that is held pending: number, line time, and the local mark taken with it (R166). -/
  pending : Option (Nat × Nat × Bool)
  deriving DecidableEq, Repr

/-- Zenith (R378 to R398). -/
structure Zenith where
  /-- The count of ns, below 2^63, and the fraction in 10^-8 ns (R378, R379). -/
  count     : Nat
  frac      : Nat
  /-- Core cycles since the domain left reset: the model's clock for spans that no step of the count moves (log
  entry 142). -/
  cycle     : Nat
  state     : ZenState
  /-- The count captured by the last read of ZEN_NOWLO (R381). -/
  captured  : Nat
  /-- Sync results not yet taken, the latest offset, and the seq of the latest result. -/
  syncQ     : List SyncRes
  offset    : Option Int
  lastSeq   : Option (BitVec 16)
  /-- Consecutive results that count towards the next transition (R387). -/
  run       : Nat
  /-- Line time at the last valid result, at the entry into HOLDOVER, at the last entry into
  LOCKED (R387, R461). -/
  lastSync  : Nat
  holdSince : Nat
  lockedAt  : Option Nat
  /-- Rates in force while LOCKED with the count at which each began, newest first (R387). -/
  rates     : List (Nat × Int)
  /-- ZEN_SYNC_BAD was reported for an offset beyond 1 s (R386). -/
  farOff    : Bool
  /-- The servo's estimate of the rate (R385). -/
  estimate  : Int
  /-- The millisecond of the latest time marker (R384). -/
  marked    : Nat
  timers    : Table Timer
  deriving DecidableEq, Repr

/-! ### The field I/O -/

/-- A release in a pin's queue (R407, R408): time, action, param, and who sent it. -/
structure Release where
  time   : Int
  action : BitVec 4
  pin    : BitVec 6
  param  : BitVec 16
  flow   : BitVec 12
  sender : Nat
  /-- Partition of the sending cell, if any (R361). -/
  part   : Option Nat
  deriving DecidableEq, Repr

/-- A capture FIFO entry (R405), or a quadrature step event (R406). -/
structure Capture where
  time   : Nat
  /-- The local mark, taken with the time (R166). -/
  local_ : Bool
  rising : Bool
  /-- The count, for a quadrature event. -/
  count  : Option Word
  deriving DecidableEq, Repr

/-- A running PULSE: the level before, and when it ends (R409, R411). -/
structure PulseRun where
  before : Level
  ends   : Nat
  deriving DecidableEq, Repr

/-- The 2 ns capture interval of the latest quadrature step (R406): its number, the levels and the count before it, and
whether it has shown an illegal step. -/
structure QuadInterval where
  at_   : Nat
  a     : Bool
  b     : Bool
  count : Word
  bad   : Bool
  deriving DecidableEq, Repr

/-- A TIO pin (R402). Its TIO_* registers are in the register file. -/
structure Pin where
  /-- The level that the outside drives; `none` when nothing drives it (R529). -/
  ext     : Level
  /-- The level that the module drives; `none` when high-impedance. -/
  drv     : Level
  /-- The core cycle of the latest change of the driven level (R413). -/
  drvAt   : Nat
  /-- The level that the glitch filter passed last (R403). -/
  stable  : Bool
  capQ    : List Capture
  relQ    : List Release
  pulse   : Option PulseRun
  /-- PWM: the duty in force, the duty waiting with its time, running or stopped (R409, R412). -/
  duty    : Nat
  dutyAt  : Option (Nat × Nat)
  pwmOn   : Bool
  /-- The start of the PWM period that runs (R412). -/
  pwmAt   : Option Nat
  /-- Readback differs (R413). -/
  rb      : Bool
  /-- A run of lost edges was reported (R404). -/
  lostRun : Bool
  /-- Edges captured since LOAD, mod 2^16 (R414). -/
  edges   : BitVec 16
  /-- Levels of the two quadrature inputs at the last transition (R406). -/
  quadA   : Bool
  quadB   : Bool
  quadIv  : Option QuadInterval
  deriving DecidableEq, Repr

/-- A transmit FIFO entry (R416, R417). -/
inductive TxEntry where
  | byte (b : Byte)
  | txend
  | i2cStart (param : BitVec 16)
  deriving DecidableEq, Repr

/-- A serial port (R415 to R422). Its SP_* registers are in the register file. -/
structure SerialPort where
  tx      : List TxEntry
  /-- The core cycle at which the entry at the head of the FIFO begins, or at which the last one ended; the bytes sent in
  the open SPI frame; and whether the open frame has been reported as empty (R416). -/
  txAt    : Nat
  sent    : Nat
  under   : Bool
  /-- Serial actions that wait for their time R, in order (R408, R410). -/
  relQ    : List Release
  rx      : List Byte
  /-- A frame is open; its bytes so far, and flags for err, brk, nack (R418). -/
  busy    : Bool
  len     : Nat
  first   : BitVec 16
  err     : Bool
  brk     : Bool
  nack    : Bool
  /-- Bytes written to the ring, free-running (R418). -/
  written : BitVec 32
  fenced  : Bool
  /-- DE is high; the controller's outputs are driven. -/
  de      : Bool
  lostRun : Bool
  /-- The core cycle of the latest byte received (R418). -/
  rxAt    : Nat
  /-- The open frame is an I²C read of so many bytes, or a write. -/
  reading : Nat
  /-- The latest frame value since the port's previous sample (R414). -/
  latest  : Word
  /-- Frame values that wait for the dispatcher (R419, R420). -/
  frames  : List Word
  deriving DecidableEq, Repr

/-- The field I/O (R399 to R426). -/
structure FieldIO where
  pins     : Table Pin
  ports    : Table SerialPort
  /-- Tokens that have arrived, with the physical cell that sent each. -/
  inQ      : List (Token × Nat)
  /-- Copy of each flow's lrel (R392). -/
  lrel     : Table Bool
  /-- The field I/O is configured (R483 step 6). -/
  ready    : Bool
  /-- FAULT_N: the outside's drive on the pin (R368). -/
  faultExt : Level
  /-- Latched sample words by source (R214, R414). -/
  samples  : Table Word
  deriving DecidableEq, Repr

/-! ### The barrier and the horizon die -/

/-- A barrier message on its way (R423). Set-up accesses, ring transfers, inject entries, extract
tokens and image blocks cross within the command that carries them. -/
inductive BarMsg where
  | doorbell (command inject : Word)
  | syncResult (r : SyncRes)
  | marker (z : Nat)
  | log (kind : Byte) (body : List Byte)
  /-- A set-up write to the relay address (R473). -/
  | relay (w : Word)
  deriving DecidableEq, Repr

/-- The barrier (R423 to R425, R476). -/
structure Barrier where
  /-- Lane training is complete with both dies out of reset (R476). -/
  up       : Bool
  /-- Lanes lost (BAR_LINK), host heartbeat missing (HOST_LOST). -/
  lanes    : Bool
  lost     : Bool
  /-- Messages on their way, with the number of failed tries of the first. -/
  toField  : List BarMsg
  toHost   : List BarMsg
  triesF   : Nat
  triesH   : Nat
  /-- Extract tokens that have reached the barrier port. -/
  inQ      : List Token
  /-- Extract entries taken and held, at most 64: bytes 0 to 31 of each (R461). -/
  extractQ : List (List Byte)
  xseq     : Word
  deriving DecidableEq, Repr

/-- A command of the command engine (R453, R454). -/
structure Command where
  id     : BitVec 16
  op     : Byte
  flags  : Byte
  a0     : Word
  a1     : Word
  a2     : Word
  haddr  : BitVec 64
  data   : List Byte
  /-- The entry was in progress when its ring was disabled or enabled anew (R450): the consumer index does not pass
  it. -/
  old    : Bool := false
  deriving DecidableEq, Repr

/-- A MEM_RD that has not been answered whole (R430): its tag and the bytes that have come, by offset. -/
structure HostRead where
  tag : Nat
  got : List (Option Byte)
  deriving DecidableEq, Repr

/-- A completion (R456), with result data for the host buffer. -/
structure Completion where
  id     : BitVec 16
  op     : Byte
  status : Byte
  result : Word
  time   : Nat
  local_ : Bool
  data   : List Byte
  notify : Bool
  haddr  : BitVec 64
  buffer : List Byte
  /-- The consumer index of the command ring passes the entry when the completion is written; not after
  the ring has been enabled anew. -/
  counts : Bool
  deriving DecidableEq, Repr

/-- A ring as the ring engine sees it (R444 to R450): the host's index. -/
structure Ring where
  /-- Producer of rings 0 and 1, consumer of rings 2 to 4, as last read from the page. -/
  host    : Word
  /-- Entries fetched and not yet taken (rings 0 and 1). -/
  fetched : List (List Byte)
  /-- Entries already asked for. -/
  asked   : Word
  deriving DecidableEq, Repr

/-- What a Powyn port puts on its line (R428, R429): a frame, the acknowledgement of one, or the request to replay
one. -/
inductive LineItem where
  | frame (f : Frame)
  | ack (seq : BitVec 16)
  | askReplay (seq : BitVec 16)
  deriving DecidableEq, Repr

/-- A Powyn port (R427 to R441). Its LNK_* registers are in the register file. -/
structure LinkPort where
  /-- Sequence numbers sent and expected, and the last 64 frames sent (R429). -/
  txSeq   : BitVec 16
  rxSeq   : BitVec 16
  sent    : List Frame
  /-- Frames that came ahead of one that is being replayed: they are delivered after it. -/
  early   : List Frame
  /-- What the port has put on its line, oldest first. -/
  line    : List LineItem
  /-- Replays of the frame that is being asked for again, and its sequence number. -/
  replays : Nat
  replaySeq : BitVec 16
  /-- crc failures since the last check (R429). -/
  fails   : Nat
  /-- A partner is detected on the port (R475). -/
  partner : Bool
  deriving DecidableEq, Repr

/-- An enumeration in progress (R436, R440): the downstream port that has still to answer, the number it
was offered, the end of the numbers that may be used, those used so far with the module's own, whether the port alone
joins again, and whether the module itself does, with the ranges that it knows. -/
structure EnumRun where
  port   : Nat
  next   : Nat
  fin    : Nat
  used   : Nat
  rejoin : Bool
  keep   : Bool := false
  deriving DecidableEq, Repr

/-- An image sequence (R458). -/
structure ImageSeq where
  service : Bool
  next    : Nat
  total   : Nat
  deriving DecidableEq, Repr

/-- The service port (R463 to R467). -/
structure Service where
  conn    : Bool
  level   : BitVec 2
  /-- The latest nonce, while it has not been used (R466). -/
  nonce   : Option (BitVec 128)
  /-- Consecutive failed AUTHs, and the lockout (R466). -/
  streak  : Nat
  lockout : Bool
  /-- The answers sent, as text lines (R464), and the line of the last connection (R463). -/
  answers : List (List Byte)
  line    : Option (List Byte)
  deriving DecidableEq, Repr

/-- A key slot's fuses (R468). -/
structure KeySlot where
  digest  : BitVec 256
  usage   : BitVec 2
  revoked : Bool
  prog    : Bool
  deriving DecidableEq, Repr

/-- The horizon die. -/
structure Horizon where
  ports    : Table LinkPort
  rings    : Table Ring
  /-- Page words 0x000 to 0x014 as last read, and whether a page read is outstanding or asked for
  again (R446). -/
  page     : List Word
  reading  : Bool
  again    : Bool
  /-- The MEM_RDs that are outstanding (R430). -/
  reads    : List HostRead
  /-- The heartbeat's last change was reported missing, and the horizon counter at that change (R452). -/
  wdogBad  : Bool
  beatAt   : Nat
  /-- Commands that wait for the engine, and completions that wait for room (R454). -/
  cmdQ     : List Command
  cplQ     : List Completion
  /-- Log records held on the die: kind, then lseq and body (R439, R462). -/
  logQ     : List (Byte × List Byte)
  lseq     : Word
  /-- Entries written to host memory and NOTIFYs due, by ring (R448, R451). -/
  written  : List (Nat × Nat × List Byte)
  notifyDue : List Nat
  /-- The status word at 0x814 as last written, and whether a write of it waits (R445). -/
  status   : Option Word
  statusDue : Bool
  /-- Frames sent to the adapter, oldest first (R430). -/
  outbox   : List Frame
  enumAt   : Option EnumRun
  image    : Option ImageSeq
  svc      : Service
  keys     : Table KeySlot
  /-- Horizon counter, and the pairs (Z, H) of the last 16 markers, newest first (R383, R384). -/
  hcount   : Nat
  markers  : List (Nat × Nat)
  /-- Syncs that wait for their Follow_Up: seq, arrival, departures by port (R383). -/
  syncs    : List (BitVec 16 × BitVec 64 × List (Nat × BitVec 64))
  /-- Delay_Reqs that wait for their response: seq and departure; and the latest 16 results. -/
  delays   : List (BitVec 16 × BitVec 64)
  dlinks   : List Int
  delaySeq : BitVec 16
  lastSync : Option (BitVec 16)
  /-- Register messages that wait for their field-side answer, oldest first: address, and the value of a write (R442). -/
  waitRegs : List (BitVec 24 × Option Word)
  deriving DecidableEq, Repr

/-! ### The jetstream -/

/-- What the arbiter of an output port remembers (R245): when S flits left it in the last 64 cycles, and the pair
(input port, VC), as port × 4 + VC, that it served last. -/
structure Arbiter where
  sTimes : List Nat
  last   : Nat
  deriving DecidableEq, Repr

/-- The network's packets and spent credits (R238). -/
structure Jetstream where
  /-- Packets in the input buffers of routers and nodes and in bridge FIFOs, each buffer in order (R240). -/
  flight  : List Packet
  /-- The arbiters of the output ports, by place and port (R245). -/
  arbiters : Table Arbiter
  rootOut : List Packet
  /-- Answers that routers, agents and the root make in place of a unit, each until its local buffer has room (R240, R249,
  R257, R262). -/
  errOut  : List Packet
  credits : List Credit
  /-- Credits on the return sideband (R238). -/
  returns : List Credit
  /-- Holders inside a reported stall, with the buffer whose credit each lacks (R242). -/
  stalls  : List (Holder × Buffer)
  deriving DecidableEq, Repr

/-! ### The module -/

/-- The mode unit (R474 to R490). -/
structure ModeUnit where
  /-- The reset pins: high when set. -/
  fieldRst  : Bool
  hostRst   : Bool
  mode      : Mode
  lstate    : LoadState
  start     : BitVec 2
  trial     : Bool
  slotB     : Bool
  loaded    : Bool
  halted    : BitVec 8
  attached  : BitVec 8
  /-- A VMON_CORE excursion holds the field side in RESET (R475). -/
  coreLow   : Bool
  /-- Zenith's count at the last entry into the mode. -/
  entered   : Nat
  /-- A RETEST test runs, rather than a cold one (R301). -/
  retest    : Bool
  /-- The copy of the boot record that counts, and its seq (R490). -/
  bootSeq   : Word
  activeB   : Bool
  bootTrial : Bool
  standalone : Bool
  autoload  : Bool
  autorun   : Bool
  validA    : Bool
  validB    : Bool
  hvalid    : Bool
  hgen      : BitVec 16
  digestA   : BitVec 256
  digestB   : BitVec 256
  /-- Interface records of the loaded image (R495) and the extract map (R460). -/
  ifc       : List (BitVec 64)
  extract   : Table Bool
  parts     : Table Partition
  /-- Firing generation of the loaded image, kept until the load completes (R494). -/
  gen       : BitVec 16
  deriving DecidableEq, Repr

/-- The state of the block. -/
structure State where
  /-- The commands that wait, first in, first out. -/
  pending : List Instr
  /-- The variant that the fuses name (R2, R498). -/
  variant : Variant
  /-- The set-up registers' stored values by address; an unlisted register holds its reset value
  (R13, R16). -/
  regs    : Table Word
  mode    : ModeUnit
  zen     : Zenith
  flt     : Collector
  dsp     : Dispatcher
  seq     : Table SeqPart
  jet     : Jetstream
  mem     : MemUnit
  pairs   : Table Station
  rep     : Repair
  fio     : FieldIO
  bar     : Barrier
  hor     : Horizon
  clouds  : Table Cloud
  cells   : Table Cell
  /-- The model's own counter, by which each free value is a fresh one. -/
  fresh   : Nat
  deriving DecidableEq, Repr

/-! ### Reset -/

/-- A slot engine with nothing fired. -/
def CellRuntime.idle : CellRuntime :=
  { pos := 0, fseq := 0, bankB := false, swapAt := none, frame := 0, good := [], trapped := [] }

/-- A physical cell with every store empty. -/
def Cell.idle : Cell :=
  { inQ := [], schedQ := [], store := [], sweep := none, spillCnt := [], latePol := [],
    lateDrops := 0, ager := 0, readyQ := [], prefetch := none, prefetchIn := none, preQ := [], trapQ := [],
    slots := [], issued := [],
    resume := [], debugList := [], dir := [], frame := [], istore := [], globals := [], lately := [], held := [],
    waits := [], tags := [], reqQ := [], houseQ := [], outQ := [], respQ := [], purges := [], boosts := [],
    boostQ := [], evictAsk := false, mirrorQ := [], replayQ := [], ackQ := [],
    notices := [], stops := [], engine := CellRuntime.idle, viewStore := [], viewSlots := [], viewWhen := 0,
    nextUid := 1, stopped := true }

/-- A cloud that is OFF, with every store empty (R34). -/
def Cloud.idle : Cloud :=
  { state := .off, slowAct := false, pllLock := false, retired := false, cause := none,
    waiting := [], relock := false, drained := false, cold := false, wakeAsk := false, l2 := [], l3 := [], engineQ := [], engineOut := [],
    left := [], flushAsk := false, flushed := false, ingressB := [],
    egressB := [], forwarded := [], scratch := [] }

/-- An output port that has served nothing. -/
def Arbiter.idle : Arbiter := { sTimes := [], last := 0 }

/-- A bank with an empty directory. -/
def Bank.idle : Bank := { queue := [], turn := 0, answers := [], dir := [], peak := 0, gone := [] }

/-- A partition that is IDLE at the sequencer. -/
def SeqPart.idle : SeqPart :=
  { state := .idle, frame := 0, slot := 0, bankB := false, resumeAt := 0, haltAsk := false,
    armed := none, staged := none, nrootA := 0, nrootB := 0, paths := [], stagedPaths := [],
    presets := 0, records := [] }

/-- A pair station with empty windows. -/
def Station.idle : Station :=
  { inQ := [], mains := [], checkers := [], tags := [], answers := [], notices := [], drops := [],
    peak := 0, fenced := false }

/-- A partition that no image uses. -/
def Partition.unused : Partition := { used := false, sched := false, dbg := false, cells := 0 }

/-- A timer that has delivered nothing. -/
def Timer.idle : Timer := { next := 0, pending := none }

/-- A pin that nothing drives. -/
def Pin.idle : Pin :=
  { ext := none, drv := none, drvAt := 0, stable := false, capQ := [], relQ := [], pulse := none, duty := 0,
    dutyAt := none, pwmOn := false, pwmAt := none, rb := false, lostRun := false, edges := 0, quadA := false,
    quadB := false, quadIv := none }

/-- A serial port with empty FIFOs. -/
def SerialPort.idle : SerialPort :=
  { tx := [], txAt := 0, sent := 0, under := false, relQ := [], rx := [], busy := false, len := 0, first := 0, err := false,
    brk := false, nack := false, written := 0, fenced := false, de := false,
    lostRun := false, rxAt := 0, reading := 0, latest := 0, frames := [] }

/-- A ring whose page words have been read as 0. -/
def Ring.idle : Ring := { host := 0, fetched := [], asked := 0 }

/-- A Powyn port without a partner. -/
def LinkPort.idle : LinkPort :=
  { txSeq := 0, rxSeq := 0, sent := [], early := [], line := [], replays := 0, replaySeq := 0, fails := 0
    partner := false }

/-- A key slot whose fuses are whole (R468). -/
def KeySlot.blank : KeySlot := { digest := 0, usage := 0, revoked := false, prog := false }

/-- The mode unit in RESET with both reset pins low. -/
def ModeUnit.reset : ModeUnit :=
  { fieldRst := false, hostRst := false, mode := .reset, lstate := .wait, start := 0,
    trial := false, slotB := false, loaded := false, halted := 0, attached := 0, coreLow := false,
    entered := 0, retest := false, bootSeq := 0, activeB := false, bootTrial := false,
    standalone := false, autoload := false, autorun := false, validA := false, validB := false,
    hvalid := false, hgen := 0, digestA := 0, digestB := 0, ifc := [], extract := [], parts := [],
    gen := 0 }

/-- Zenith UNLOCKED at count 0 (R378, R387). -/
def Zenith.reset : Zenith :=
  { count := 0, frac := 0, cycle := 0, state := .unlocked, captured := 0, syncQ := [], offset := none,
    lastSeq := none, run := 0, lastSync := 0, holdSince := 0, lockedAt := none, rates := [],
    farOff := false, estimate := 0, marked := 0, timers := [] }

/-- The fault collector held reset (R356). -/
def Collector.reset : Collector :=
  { inQ := [], level := [], sensed := [], wires := [], safeLine := false, faulted := 0, cells := 0, seq := 0, logPos := 0, recent := [],
    temp := 0 }

/-- The dispatcher with empty queues. -/
def Dispatcher.reset : Dispatcher :=
  { events := [], lastSrc := 0, holding := [], reports := [], iters := [], iterQ := [], onChip := [],
    inDram := [], staging := [], frames := [], purged := [], purges := [], disabling := [],
    boosts := [], drain := [], pfFull := [], noCell := [], trace := [],
    tracePos := 0, traceDram := 0 }

/-- The network with no packet and no spent credit. -/
def Jetstream.reset : Jetstream :=
  { flight := [], arbiters := [], rootOut := [], errOut := [], credits := [], returns := [], stalls := [] }

/-- The memories, nothing listed. -/
def MemUnit.reset : MemUnit :=
  { banks := [], glob := [], dram := [], mram := [], poison := [], dramQ := [], mramQ := [],
    semQ := [], rootAns := [], marchAt := [], spares := [], reply := (0, []) }

/-- The repair controller with nothing placed. -/
def Repair.reset : Repair :=
  { place := [], tested := [], cloudOf := [], failed := [], fenced := [], refills := [], quiet := [],
    phase := .idle, lid := 0, sub := 0, old := 0, shadow := false, back := false, lastLid := none,
    lastShadow := none, turn := false, waited := 0, skips := 0, logCount := 0, logSeq := 0 }

/-- The field I/O with every output high-impedance (R399). -/
def FieldIO.reset : FieldIO :=
  { pins := [], ports := [], inQ := [], lrel := [], ready := false, faultExt := none,
    samples := [] }

/-- The barrier before lane training (R476). -/
def Barrier.reset : Barrier :=
  { up := false, lanes := false, lost := false, toField := [], toHost := [], triesF := 0,
    triesH := 0, inQ := [], extractQ := [], xseq := 0 }

/-- The service port detached, with no session (R467). -/
def Service.reset : Service :=
  { conn := false, level := 0, nonce := none, streak := 0, lockout := false, answers := [],
    line := none }

/-- The horizon die in reset, key fuses whole. -/
def Horizon.reset : Horizon :=
  { ports := [], rings := [], page := [], reading := false, again := false, reads := [], wdogBad := false, beatAt := 0,
    cmdQ := [], cplQ := [], logQ := [], lseq := 0, written := [], notifyDue := [],
    status := none, statusDue := false, outbox := [], enumAt := none, image := none, svc := Service.reset,
    keys := [], hcount := 0, markers := [], syncs := [], delays := [], dlinks := [], delaySeq := 0,
    lastSync := none, waitRegs := [] }

/-- The module at power-up: an LTM7256-E as it left the factory, with both resets low, every
register at the value of R16 and every store empty. What the manual gives no reset value starts at 0 or
empty (DESIGN CHOICE: log entries 4 to 6). -/
def State.reset : State :=
  { pending := [], variant := .ltm7256, regs := [], mode := ModeUnit.reset, zen := Zenith.reset,
    flt := Collector.reset, dsp := Dispatcher.reset, seq := [], jet := Jetstream.reset,
    mem := MemUnit.reset, pairs := [], rep := Repair.reset, fio := FieldIO.reset,
    bar := Barrier.reset, hor := Horizon.reset, clouds := [], cells := [], fresh := 0 }

end Sys2Proof.Machine
end

