-- ==== Sys2Proof/Machine/RegMap.lean ====
section
/-! DEFINITION. The set-up space: the address of every register (R13, the register index of
"Set-up Space and Register Index"), the bits of each type in its map (R14), its reset value (R16),
and the sources of the fault collector with their classes, reactions and fences (R352). -/

namespace Sys2Proof.Machine

/-! ### Addresses -/

/-- CAP_ID (15). -/
def aCapId : Nat := 0x0
/-- CAP_CELLS (15). -/
def aCapCells : Nat := 0x4
/-- CAP_IO (15). -/
def aCapIo : Nat := 0x8
/-- CAP_MEM (15). -/
def aCapMem : Nat := 0xC
/-- CAP_UNITS (15). -/
def aCapUnits : Nat := 0x10
/-- CAP_SNLO (15). -/
def aCapSnlo : Nat := 0x14
/-- CAP_SNHI (15). -/
def aCapSnhi : Nat := 0x18
/-- MODE_STAT (14). -/
def aModeStat : Nat := 0x10000
/-- MODE_CMD (14). -/
def aModeCmd : Nat := 0x10004
/-- MODE_CAUSE (14). -/
def aModeCause : Nat := 0x10008
/-- MODE_TLO (14). -/
def aModeTlo : Nat := 0x1000C
/-- MODE_THI (14). -/
def aModeThi : Nat := 0x10010
/-- MODE_BOOT (14). -/
def aModeBoot : Nat := 0x10014
/-- MODE_CNT[i] (14). -/
def aModeCnt (i : Nat) : Nat := 0x10040 + i * 4
/-- FLT_CTRL (10). -/
def aFltCtrl : Nat := 0x20000
/-- FLT_STAT (10). -/
def aFltStat : Nat := 0x20004
/-- FLT_CMD (10). -/
def aFltCmd : Nat := 0x20008
/-- FLT_TEMP (10). -/
def aFltTemp : Nat := 0x2000C
/-- FLT_LOG (10). -/
def aFltLog : Nat := 0x20010
/-- FLT_FUNIT (10). -/
def aFltFunit : Nat := 0x20014
/-- FLT_PEND[i] (10). -/
def aFltPend (i : Nat) : Nat := 0x20020 + i * 4
/-- FLT_ASRT[i] (10). -/
def aFltAsrt (i : Nat) : Nat := 0x20030 + i * 4
/-- FLT_WIRE[i] (10). -/
def aFltWire (i : Nat) : Nat := 0x20040 + i * 4
/-- FLT_REC_TLO[i] (10). -/
def aFltRecTlo (i : Nat) : Nat := 0x20100 + i * 32
/-- FLT_REC_THI[i] (10). -/
def aFltRecThi (i : Nat) : Nat := 0x20104 + i * 32
/-- FLT_REC_INFO[i] (10). -/
def aFltRecInfo (i : Nat) : Nat := 0x20108 + i * 32
/-- FLT_REC_ADDR[i] (10). -/
def aFltRecAddr (i : Nat) : Nat := 0x2010C + i * 32
/-- FLT_REC_SYN[i] (10). -/
def aFltRecSyn (i : Nat) : Nat := 0x20110 + i * 32
/-- FLT_REC_MORE[i] (10). -/
def aFltRecMore (i : Nat) : Nat := 0x20114 + i * 32
/-- FLT_SRC[i] (10). -/
def aFltSrc (i : Nat) : Nat := 0x20400 + i * 4
/-- ZEN_CTRL (11). -/
def aZenCtrl : Nat := 0x30000
/-- ZEN_STAT (11). -/
def aZenStat : Nat := 0x30004
/-- ZEN_NOWLO (11). -/
def aZenNowlo : Nat := 0x30008
/-- ZEN_NOWHI (11). -/
def aZenNowhi : Nat := 0x3000C
/-- ZEN_RATE (11). -/
def aZenRate : Nat := 0x30010
/-- ZEN_DELAY (11). -/
def aZenDelay : Nat := 0x30014
/-- ZEN_SETLO (11). -/
def aZenSetlo : Nat := 0x30018
/-- ZEN_SETHI (11). -/
def aZenSethi : Nat := 0x3001C
/-- ZEN_CMD (11). -/
def aZenCmd : Nat := 0x30020
/-- ZEN_CNT[i] (11). -/
def aZenCnt (i : Nat) : Nat := 0x30040 + i * 4
/-- ZEN_TMR_CFG[i] (11). -/
def aZenTmrCfg (i : Nat) : Nat := 0x30100 + i * 16
/-- ZEN_TMR_PER[i] (11). -/
def aZenTmrPer (i : Nat) : Nat := 0x30104 + i * 16
/-- ZEN_TMR_PH[i] (11). -/
def aZenTmrPh (i : Nat) : Nat := 0x30108 + i * 16
/-- ZEN_TMR_STAT[i] (11). -/
def aZenTmrStat (i : Nat) : Nat := 0x3010C + i * 16
/-- DSP_CTRL (05). -/
def aDspCtrl : Nat := 0x40000
/-- DSP_FSEL (05). -/
def aDspFsel : Nat := 0x40004
/-- DSP_FCMD (05). -/
def aDspFcmd : Nat := 0x40008
/-- DSP_OVF (05). -/
def aDspOvf : Nat := 0x4000C
/-- DSP_TRC (05). -/
def aDspTrc : Nat := 0x40010
/-- DSP_TRCD (05). -/
def aDspTrcd : Nat := 0x40014
/-- DSP_TMASK (05). -/
def aDspTmask : Nat := 0x40018
/-- DSP_POOL (05). -/
def aDspPool : Nat := 0x4001C
/-- DSP_PCFG[i] (05). -/
def aDspPcfg (i : Nat) : Nat := 0x40020 + i * 4
/-- DSP_CNT[i] (05). -/
def aDspCnt (i : Nat) : Nat := 0x40040 + i * 4
/-- DSP_GROUP[i][k] (05). -/
def aDspGroup (i k : Nat) : Nat := 0x40400 + i * 32 + k * 4
/-- DSP_CELL[i] (05). -/
def aDspCell (i : Nat) : Nat := 0x40C00 + i * 4
/-- FLOW_W[i] (05). -/
def aFlowW (i : Nat) : Nat := 0x41000 + i * 4
/-- SEQ_RTBASE (06). -/
def aSeqRtbase : Nat := 0x60000
/-- SEQ_PRBASE (06). -/
def aSeqPrbase : Nat := 0x60004
/-- SEQ_PCFG[i] (06). -/
def aSeqPcfg (i : Nat) : Nat := 0x60100 + i * 32
/-- SEQ_PHASE[i] (06). -/
def aSeqPhase (i : Nat) : Nat := 0x60104 + i * 32
/-- SEQ_MARGIN[i] (06). -/
def aSeqMargin (i : Nat) : Nat := 0x60108 + i * 32
/-- SEQ_SWAP[i] (06). -/
def aSeqSwap (i : Nat) : Nat := 0x6010C + i * 32
/-- SEQ_FRAME[i] (06). -/
def aSeqFrame (i : Nat) : Nat := 0x60110 + i * 32
/-- SEQ_PSTAT[i] (06). -/
def aSeqPstat (i : Nat) : Nat := 0x60114 + i * 32
/-- SEQ_MISS[i] (06). -/
def aSeqMiss (i : Nat) : Nat := 0x60118 + i * 32
/-- SEQ_SUBST[i] (06). -/
def aSeqSubst (i : Nat) : Nat := 0x6011C + i * 32
/-- JET_CTRL (07). -/
def aJetCtrl : Nat := 0x80000
/-- JET_TMO (07). -/
def aJetTmo : Nat := 0x80004
/-- JET_PCTL (07). -/
def aJetPctl : Nat := 0x80008
/-- JET_TBUD[i] (07). -/
def aJetTbud (i : Nat) : Nat := 0x80100 + i * 4
/-- JET_CNT[i] (07). -/
def aJetCnt (i : Nat) : Nat := 0x80200 + i * 4
/-- PRB_SEL[i] (07). -/
def aPrbSel (i : Nat) : Nat := 0x84000 + i * 32
/-- PRB_CFG[i] (07). -/
def aPrbCfg (i : Nat) : Nat := 0x84004 + i * 32
/-- PRB_DST[i] (07). -/
def aPrbDst (i : Nat) : Nat := 0x84008 + i * 32
/-- PRB_FLOW[i] (07). -/
def aPrbFlow (i : Nat) : Nat := 0x8400C + i * 32
/-- PRB_CNT[i] (07). -/
def aPrbCnt (i : Nat) : Nat := 0x84010 + i * 32
/-- PRB_DROP[i] (07). -/
def aPrbDrop (i : Nat) : Nat := 0x84014 + i * 32
/-- MEM_PRIGHT[i] (08). -/
def aMemPright (i : Nat) : Nat := 0xA0000 + i * 4
/-- MEM_DWIN[i] (08). -/
def aMemDwin (i : Nat) : Nat := 0xA0020 + i * 4
/-- MEM_GSYS (08). -/
def aMemGsys : Nat := 0xA0040
/-- MEM_CNT[i] (08). -/
def aMemCnt (i : Nat) : Nat := 0xA0080 + i * 4
/-- LCK_CMD (08). -/
def aLckCmd : Nat := 0xA1000
/-- LCK_CADDR (08). -/
def aLckCaddr : Nat := 0xA1004
/-- LCK_DIR[i] (08). -/
def aLckDir (i : Nat) : Nat := 0xA1100 + i * 4
/-- SEM_CFG[i] (08). -/
def aSemCfg (i : Nat) : Nat := 0xA2000 + i * 4
/-- SEM_RIGHTS[i] (08). -/
def aSemRights (i : Nat) : Nat := 0xA2100 + i * 4
/-- SEM_HOP (08). -/
def aSemHop : Nat := 0xA2120
/-- MAR_CTRL (08). -/
def aMarCtrl : Nat := 0xA3000
/-- MAR_ROLL (08). -/
def aMarRoll : Nat := 0xA3004
/-- MAR_ENG[i] (08). -/
def aMarEng (i : Nat) : Nat := 0xA3100 + i * 4
/-- MEM_SPILL_CFG[i] (02). -/
def aMemSpillCfg (i : Nat) : Nat := 0xA8000 + i * 64
/-- MEM_SPILL_L3[i] (02). -/
def aMemSpillL3 (i : Nat) : Nat := 0xA8004 + i * 64
/-- MEM_SPILL_L2CNT[i] (02). -/
def aMemSpillL2cnt (i : Nat) : Nat := 0xA8008 + i * 64
/-- MEM_SPILL_L3CNT[i] (02). -/
def aMemSpillL3cnt (i : Nat) : Nat := 0xA800C + i * 64
/-- MEM_SPILL_OUT[i] (02). -/
def aMemSpillOut (i : Nat) : Nat := 0xA8010 + i * 64
/-- MEM_SPILL_RET[i] (02). -/
def aMemSpillRet (i : Nat) : Nat := 0xA8014 + i * 64
/-- MEM_SPILL_FIRE[i] (02). -/
def aMemSpillFire (i : Nat) : Nat := 0xA8018 + i * 64
/-- MEM_SPILL_PARKL[i] (02). -/
def aMemSpillParkl (i : Nat) : Nat := 0xA801C + i * 64
/-- MEM_SPILL_PARKH[i] (02). -/
def aMemSpillParkh (i : Nat) : Nat := 0xA8020 + i * 64
/-- PAIR_CTRL (09). -/
def aPairCtrl : Nat := 0xC0000
/-- PAIR_INJ (09). -/
def aPairInj : Nat := 0xC0004
/-- PAIR_CFG[i] (09). -/
def aPairCfg (i : Nat) : Nat := 0xC0100 + i * 64
/-- PAIR_PAIR[i][k] (09). -/
def aPairPair (i k : Nat) : Nat := 0xC0104 + i * 64 + k * 4
/-- PAIR_WIN[i] (09). -/
def aPairWin (i : Nat) : Nat := 0xC0124 + i * 64
/-- PAIR_CNT[i][k] (09). -/
def aPairCnt (i k : Nat) : Nat := 0xC0128 + i * 64 + k * 4
/-- REP_CTRL (09). -/
def aRepCtrl : Nat := 0xC1000
/-- REP_ROLL (09). -/
def aRepRoll : Nat := 0xC1004
/-- REP_ROLLST (09). -/
def aRepRollst : Nat := 0xC1008
/-- REP_STAT (09). -/
def aRepStat : Nat := 0xC100C
/-- REP_MAP[i] (09). -/
def aRepMap (i : Nat) : Nat := 0xC1400 + i * 4
/-- TIO_CFG[i] (12). -/
def aTioCfg (i : Nat) : Nat := 0xE0000 + i * 32
/-- TIO_FLOW[i] (12). -/
def aTioFlow (i : Nat) : Nat := 0xE0004 + i * 32
/-- TIO_PWM[i] (12). -/
def aTioPwm (i : Nat) : Nat := 0xE0008 + i * 32
/-- TIO_QCNT[i] (12). -/
def aTioQcnt (i : Nat) : Nat := 0xE000C + i * 32
/-- TIO_STAT[i] (12). -/
def aTioStat (i : Nat) : Nat := 0xE0010 + i * 32
/-- TIO_ACNT (12). -/
def aTioAcnt : Nat := 0xE0800
/-- TIO_RB[i] (12). -/
def aTioRb (i : Nat) : Nat := 0xE0810 + i * 4
/-- SP_CFG[i] (12). -/
def aSpCfg (i : Nat) : Nat := 0xE1000 + i * 64
/-- SP_CLK[i] (12). -/
def aSpClk (i : Nat) : Nat := 0xE1004 + i * 64
/-- SP_FLOW[i] (12). -/
def aSpFlow (i : Nat) : Nat := 0xE1008 + i * 64
/-- SP_RXBUF[i] (12). -/
def aSpRxbuf (i : Nat) : Nat := 0xE100C + i * 64
/-- SP_TOK[i] (12). -/
def aSpTok (i : Nat) : Nat := 0xE1010 + i * 64
/-- SP_TOK_CELL[i] (12). -/
def aSpTokCell (i : Nat) : Nat := 0xE1014 + i * 64
/-- SP_STAT[i] (12). -/
def aSpStat (i : Nat) : Nat := 0xE1018 + i * 64
/-- LNK_CTRL (13). -/
def aLnkCtrl : Nat := 0x100000
/-- LNK_STAT[i] (13). -/
def aLnkStat (i : Nat) : Nat := 0x100010 + i * 4
/-- LNK_DEV (13). -/
def aLnkDev : Nat := 0x100020
/-- LNK_RANGE[i] (13). -/
def aLnkRange (i : Nat) : Nat := 0x100024 + i * 4
/-- LNK_ERR[i] (13). -/
def aLnkErr (i : Nat) : Nat := 0x100030 + i * 4
/-- LNK_ERRTH (13). -/
def aLnkErrth : Nat := 0x100040
/-- RING_BLO[i] (13). -/
def aRingBlo (i : Nat) : Nat := 0x100100 + i * 32
/-- RING_BHI[i] (13). -/
def aRingBhi (i : Nat) : Nat := 0x100104 + i * 32
/-- RING_CFG[i] (13). -/
def aRingCfg (i : Nat) : Nat := 0x100108 + i * 32
/-- RING_IDX[i] (13). -/
def aRingIdx (i : Nat) : Nat := 0x10010C + i * 32
/-- RING_STAT[i] (13). -/
def aRingStat (i : Nat) : Nat := 0x100110 + i * 32
/-- RING_DBLO (13). -/
def aRingDblo : Nat := 0x100200
/-- RING_DBHI (13). -/
def aRingDbhi : Nat := 0x100204
/-- RING_POLL (13). -/
def aRingPoll : Nat := 0x100208
/-- RING_IRQ (13). -/
def aRingIrq : Nat := 0x10020C
/-- SVC_CTRL (13). -/
def aSvcCtrl : Nat := 0x100300
/-- SVC_STAT (13). -/
def aSvcStat : Nat := 0x100304
/-- SEC_KEY[i] (13). -/
def aSecKey (i : Nat) : Nat := 0x100400 + i * 4
/-- SEC_STAT (13). -/
def aSecStat : Nat := 0x100410
/-- CLD_STAT[i] (01). -/
def aCldStat (i : Nat) : Nat := 0x200000 + i * 65536
/-- CLD_CTRL[i] (01). -/
def aCldCtrl (i : Nat) : Nat := 0x200004 + i * 65536
/-- CLD_CELL[i][k] (01). -/
def aCldCell (i k : Nat) : Nat := 0x200100 + i * 65536 + k * 4
/-- CLD_SBUD[i][k] (07). -/
def aCldSbud (i k : Nat) : Nat := 0x200200 + i * 65536 + k * 4

/-! ### The maps -/

/-- A register or a register group: where it lies, how often it repeats, and its bits by type (R14). -/
structure RegRow where
  base  : Nat
  /-- Instances and their distance, outermost first. -/
  dims  : List (Nat × Nat)
  rw    : Nat
  w1c   : Nat
  wo    : Nat
  rsv   : Nat
  deriving DecidableEq, Repr

/-- The maps of the block at 0x0. -/
def mapCap : List RegRow := [
  ⟨0x0, [], 0x0, 0x0, 0x0, 0x0⟩,
  ⟨0x4, [], 0x0, 0x0, 0x0, 0xF8E0FE00⟩,
  ⟨0x8, [], 0x0, 0x0, 0x0, 0xFFE0C080⟩,
  ⟨0xC, [], 0x0, 0x0, 0x0, 0x0⟩,
  ⟨0x10, [], 0x0, 0x0, 0x0, 0xFFFFFEF8⟩,
  ⟨0x14, [], 0x0, 0x0, 0x0, 0x0⟩,
  ⟨0x18, [], 0x0, 0x0, 0x0, 0x0⟩]
/-- The maps of the block at 0x10000. -/
def mapMode : List RegRow := [
  ⟨0x10000, [], 0x0, 0x0, 0x0, 0xC0000088⟩,
  ⟨0x10004, [], 0x0, 0x0, 0x307, 0xFFFF0CF8⟩,
  ⟨0x10008, [], 0x0, 0x0, 0x0, 0xFF00FF88⟩,
  ⟨0x1000C, [], 0x0, 0x0, 0x0, 0x0⟩,
  ⟨0x10010, [], 0x0, 0x0, 0x0, 0x0⟩,
  ⟨0x10014, [], 0x700, 0x0, 0x0, 0xF0CC⟩,
  ⟨0x10040, [(8, 4)], 0x0, 0x0, 0x0, 0x0⟩]
/-- The maps of the block at 0x20000. -/
def mapFlt : List RegRow := [
  ⟨0x20000, [], 0xFF0B, 0x0, 0x0, 0xFFFF00F0⟩,
  ⟨0x20004, [], 0x0, 0x0, 0x0, 0xFFFC00E0⟩,
  ⟨0x20008, [], 0x700, 0x0, 0x7, 0xFFFF08F8⟩,
  ⟨0x2000C, [], 0xFFFF00, 0x0, 0x0, 0xFF000000⟩,
  ⟨0x20010, [], 0x0, 0x0, 0x0, 0x0⟩,
  ⟨0x20014, [], 0x0, 0x0, 0x0, 0x0⟩,
  ⟨0x20020, [(3, 4)], 0x0, 0xFFFFFFFF, 0x0, 0x0⟩,
  ⟨0x20030, [(3, 4)], 0x0, 0x0, 0x0, 0x0⟩,
  ⟨0x20040, [(3, 4)], 0x0, 0x0, 0x0, 0x0⟩,
  ⟨0x20100, [(3, 32)], 0x0, 0x0, 0x0, 0x0⟩,
  ⟨0x20104, [(3, 32)], 0x0, 0x0, 0x0, 0x0⟩,
  ⟨0x20108, [(3, 32)], 0x0, 0x80000000, 0x0, 0x7C000000⟩,
  ⟨0x2010C, [(3, 32)], 0x0, 0x0, 0x0, 0x0⟩,
  ⟨0x20110, [(3, 32)], 0x0, 0x0, 0x0, 0x0⟩,
  ⟨0x20114, [(3, 32)], 0x0, 0x0, 0x0, 0x0⟩,
  ⟨0x20400, [(96, 4)], 0x7, 0x0, 0x0, 0xE000⟩]
/-- The maps of the block at 0x30000. -/
def mapZen : List RegRow := [
  ⟨0x30000, [], 0xFF01, 0x0, 0x0, 0xFFFF00FE⟩,
  ⟨0x30004, [], 0x0, 0x0, 0x0, 0xF8FC⟩,
  ⟨0x30008, [], 0x0, 0x0, 0x0, 0x0⟩,
  ⟨0x3000C, [], 0x0, 0x0, 0x0, 0x0⟩,
  ⟨0x30010, [], 0xFFFF, 0x0, 0x0, 0xFFFF0000⟩,
  ⟨0x30014, [], 0x0, 0x0, 0x0, 0x0⟩,
  ⟨0x30018, [], 0xFFFFFFFF, 0x0, 0x0, 0x0⟩,
  ⟨0x3001C, [], 0xFFFFFFFF, 0x0, 0x0, 0x0⟩,
  ⟨0x30020, [], 0x0, 0x0, 0x3, 0xFFFF7CFC⟩,
  ⟨0x30040, [(8, 4)], 0x0, 0x0, 0x0, 0x0⟩,
  ⟨0x30100, [(16, 16)], 0x8001FFFF, 0x0, 0x0, 0x7FFE0000⟩,
  ⟨0x30104, [(16, 16)], 0xFFFFFFFF, 0x0, 0x0, 0x0⟩,
  ⟨0x30108, [(16, 16)], 0xFFFFFFFF, 0x0, 0x0, 0x0⟩,
  ⟨0x3010C, [(16, 16)], 0x0, 0x0, 0x0, 0x0⟩]
/-- The maps of the block at 0x40000. -/
def mapDsp : List RegRow := [
  ⟨0x40000, [], 0x3, 0x0, 0x0, 0xFFFFFFFC⟩,
  ⟨0x40004, [], 0xFFF, 0x0, 0x0, 0xFFFFF000⟩,
  ⟨0x40008, [], 0x0, 0x0, 0x7, 0xFFFF78F8⟩,
  ⟨0x4000C, [], 0xFF0FFF, 0x0, 0x0, 0xFF00F000⟩,
  ⟨0x40010, [], 0xFFF0FFF, 0x0, 0x0, 0xF000F000⟩,
  ⟨0x40014, [], 0xFF0FFF, 0x0, 0x0, 0xFF00F000⟩,
  ⟨0x40018, [], 0xFFFF, 0x0, 0x0, 0xFFFF0000⟩,
  ⟨0x4001C, [], 0xFFF, 0x0, 0x0, 0x8000F000⟩,
  ⟨0x40020, [(8, 4)], 0xFF, 0x0, 0x0, 0xFFFFFF00⟩,
  ⟨0x40040, [(16, 4)], 0x0, 0x0, 0x0, 0x0⟩,
  ⟨0x40400, [(64, 32), (8, 4)], 0xFFFFFFFF, 0x0, 0x0, 0x0⟩,
  ⟨0x40C00, [(256, 4)], 0x0, 0x0, 0x0, 0xFFF00000⟩,
  ⟨0x41000, [], 0xFF3F3FFF, 0x0, 0x0, 0xC0C000⟩,
  ⟨0x41004, [], 0xFFFFFFFF, 0x0, 0x0, 0x0⟩,
  ⟨0x41008, [], 0x0, 0x0, 0x0, 0x0⟩,
  ⟨0x4100C, [(2, 4)], 0x3FFF3FFF, 0x0, 0x0, 0xC000C000⟩,
  ⟨0x41014, [], 0xFF07, 0x0, 0x0, 0xFE0000F8⟩,
  ⟨0x41018, [], 0xFFFF, 0x0, 0x0, 0xFFFF0000⟩,
  ⟨0x4101C, [(2, 4)], 0x0, 0x0, 0x0, 0x0⟩,
  ⟨0x41024, [], 0x0, 0x0, 0x0, 0xFF000000⟩,
  ⟨0x41028, [(2, 4)], 0x0, 0x0, 0x0, 0x0⟩,
  ⟨0x41030, [(3, 4)], 0x0, 0x0, 0x0, 0xFFFFFFFF⟩,
  ⟨0x4103C, [], 0xFFFFFFFF, 0x0, 0x0, 0x0⟩]
/-- The maps of the block at 0x60000. -/
def mapSeq : List RegRow := [
  ⟨0x60000, [], 0xFFF, 0x0, 0x0, 0xFFFFF000⟩,
  ⟨0x60004, [], 0xFFF, 0x0, 0x0, 0xF000F000⟩,
  ⟨0x60100, [(8, 32)], 0x0, 0x0, 0x0, 0xFCFE⟩,
  ⟨0x60104, [(8, 32)], 0x0, 0x0, 0x0, 0x0⟩,
  ⟨0x60108, [(8, 32)], 0x0, 0x0, 0x0, 0x0⟩,
  ⟨0x6010C, [(8, 32)], 0xFFFF0000, 0x0, 0x3, 0x78FC⟩,
  ⟨0x60110, [(8, 32)], 0x0, 0x0, 0x0, 0x0⟩,
  ⟨0x60114, [(8, 32)], 0x0, 0x0, 0x0, 0xFFF0⟩,
  ⟨0x60118, [(8, 32)], 0x0, 0x0, 0x0, 0x0⟩,
  ⟨0x6011C, [(8, 32)], 0x0, 0x0, 0x0, 0x0⟩]
/-- The maps of the block at 0x80000. -/
def mapJet : List RegRow := [
  ⟨0x80000, [], 0x3, 0x0, 0x0, 0xFFFFFFFC⟩,
  ⟨0x80004, [], 0xFFFFFFFF, 0x0, 0x0, 0x0⟩,
  ⟨0x80008, [], 0xFFFF, 0x0, 0x0, 0xFFFF0000⟩,
  ⟨0x80100, [(9, 4)], 0x0, 0x0, 0x0, 0xC0000000⟩,
  ⟨0x80200, [(16, 4)], 0x0, 0x0, 0x0, 0x0⟩,
  ⟨0x84000, [(32, 32)], 0xFFFF, 0x0, 0x0, 0xFFFF0000⟩,
  ⟨0x84004, [(32, 32)], 0xFFFF, 0x0, 0x0, 0xFFFF0000⟩,
  ⟨0x84008, [(32, 32)], 0x3FF, 0x0, 0x0, 0xFFFFFC00⟩,
  ⟨0x8400C, [(32, 32)], 0xFFF0FFF, 0x0, 0x0, 0xF000F000⟩,
  ⟨0x84010, [(32, 32)], 0x0, 0x0, 0x0, 0x0⟩,
  ⟨0x84014, [(32, 32)], 0x0, 0x0, 0x0, 0x0⟩]
/-- The maps of the block at 0xA0000. -/
def mapMem : List RegRow := [
  ⟨0xA0000, [(8, 4)], 0x1FFF, 0x0, 0x0, 0xFFFFE000⟩,
  ⟨0xA0020, [(8, 4)], 0xFFF0FFF, 0x0, 0x0, 0xF000F000⟩,
  ⟨0xA0040, [], 0xFFF, 0x0, 0x0, 0xFFFFF000⟩,
  ⟨0xA0080, [(16, 4)], 0x0, 0x0, 0x0, 0x0⟩,
  ⟨0xA1000, [], 0x0, 0x0, 0x3, 0xFFFF7CFC⟩,
  ⟨0xA1004, [], 0xFFFFFFFF, 0x0, 0x0, 0x0⟩,
  ⟨0xA1100, [(152, 4)], 0x0, 0x0, 0x0, 0xC080C0C0⟩,
  ⟨0xA2000, [(64, 4)], 0xFFFF0000, 0x0, 0x0, 0x0⟩,
  ⟨0xA2100, [(8, 4)], 0x1FF, 0x0, 0x0, 0xFFFFFE00⟩,
  ⟨0xA2120, [], 0x3F00, 0x0, 0x3, 0xFFFCC0FC⟩,
  ⟨0xA3000, [], 0x1, 0x0, 0x0, 0xFFFFFFFE⟩,
  ⟨0xA3004, [], 0xFFFF, 0x0, 0x0, 0xFFFF0000⟩,
  ⟨0xA3100, [(19, 4)], 0x0, 0x0, 0x0, 0xFF0000F8⟩,
  ⟨0xA8000, [(18, 64)], 0x1073F, 0x0, 0x0, 0xFFFEF8C0⟩,
  ⟨0xA8004, [(18, 64)], 0x3FF, 0x0, 0x0, 0xFFFFFC00⟩,
  ⟨0xA8008, [(18, 64)], 0x0, 0x0, 0x0, 0xFFFF8000⟩,
  ⟨0xA800C, [(18, 64)], 0x0, 0x0, 0x0, 0xFFFC0000⟩,
  ⟨0xA8010, [(18, 64)], 0x0, 0x0, 0x0, 0x0⟩,
  ⟨0xA8014, [(18, 64)], 0x0, 0x0, 0x0, 0x0⟩,
  ⟨0xA8018, [(18, 64)], 0x0, 0x0, 0x0, 0x0⟩,
  ⟨0xA801C, [(18, 64)], 0x0, 0x0, 0x0, 0x0⟩,
  ⟨0xA8020, [(18, 64)], 0x0, 0x0, 0x0, 0x0⟩]
/-- The maps of the block at 0xC0000. -/
def mapRep : List RegRow := [
  ⟨0xC0000, [], 0x1, 0x0, 0x0, 0xFFFFFFFE⟩,
  ⟨0xC0004, [], 0x7F, 0x0, 0x0, 0xFF80⟩,
  ⟨0xC0100, [(16, 64)], 0x3FF, 0x0, 0x0, 0xFFFFFC00⟩,
  ⟨0xC0104, [(16, 64), (8, 4)], 0x80FF00FF, 0x0, 0x0, 0x7F008F00⟩,
  ⟨0xC0124, [(16, 64)], 0x0, 0x0, 0x0, 0xC0C0C0C0⟩,
  ⟨0xC0128, [(16, 64), (6, 4)], 0x0, 0x0, 0x0, 0x0⟩,
  ⟨0xC1000, [], 0x3, 0x0, 0x0, 0xFFFFFFFC⟩,
  ⟨0xC1004, [], 0xFFFFFFFF, 0x0, 0x0, 0x0⟩,
  ⟨0xC1008, [], 0x0, 0x0, 0x0, 0xE0000⟩,
  ⟨0xC100C, [], 0x0, 0x0, 0x0, 0xF000FE00⟩,
  ⟨0xC1400, [(256, 4)], 0x0, 0x0, 0x0, 0xFE00⟩]
/-- The maps of the block at 0xE0000. -/
def mapFio : List RegRow := [
  ⟨0xE0000, [(64, 32)], 0xFF7FFFFF, 0x0, 0x0, 0x800000⟩,
  ⟨0xE0004, [(64, 32)], 0xFFFF0FFF, 0x0, 0x0, 0xF000⟩,
  ⟨0xE0008, [(64, 32)], 0xFFFFFFFF, 0x0, 0x0, 0x0⟩,
  ⟨0xE000C, [(64, 32)], 0x0, 0x0, 0x0, 0x0⟩,
  ⟨0xE0010, [(64, 32)], 0x0, 0x0, 0x0, 0xE0E0F8⟩,
  ⟨0xE0800, [], 0x0, 0x0, 0x0, 0x0⟩,
  ⟨0xE0810, [(2, 4)], 0x0, 0x0, 0x0, 0x0⟩,
  ⟨0xE1000, [(8, 64)], 0xFFFFF807, 0x0, 0x0, 0x7F8⟩,
  ⟨0xE1004, [(8, 64)], 0xFFFF, 0x0, 0x0, 0xFFFF0000⟩,
  ⟨0xE1008, [(8, 64)], 0x1FFFF, 0x0, 0x0, 0xFFFE0000⟩,
  ⟨0xE100C, [(8, 64)], 0xFFFFF, 0x0, 0x0, 0xFFF00000⟩,
  ⟨0xE1010, [(8, 64)], 0x3FFFFFF, 0x0, 0x0, 0xFC000000⟩,
  ⟨0xE1014, [(8, 64)], 0xFF, 0x0, 0x0, 0xFFFFFF00⟩,
  ⟨0xE1018, [(8, 64)], 0x0, 0x0, 0x0, 0xF8⟩]
/-- The maps of the block at 0x100000. -/
def mapHor : List RegRow := [
  ⟨0x100000, [], 0x1F, 0x0, 0x0, 0xFFFFFFE0⟩,
  ⟨0x100010, [(4, 4)], 0x0, 0x0, 0x0, 0xFF00CCF0⟩,
  ⟨0x100020, [], 0x0, 0x0, 0x0, 0xFFFFF880⟩,
  ⟨0x100024, [(3, 4)], 0x0, 0x0, 0x0, 0xFFFF80C0⟩,
  ⟨0x100030, [(4, 4)], 0x0, 0x0, 0x0, 0xFF000000⟩,
  ⟨0x100040, [], 0xFFFF, 0x0, 0x0, 0xFFFF0000⟩,
  ⟨0x100100, [(5, 32)], 0xFFFFF000, 0x0, 0x0, 0xFFF⟩,
  ⟨0x100104, [(5, 32)], 0xFFFFFFFF, 0x0, 0x0, 0x0⟩,
  ⟨0x100108, [(5, 32)], 0x31F, 0x0, 0x0, 0xFFFFFCE0⟩,
  ⟨0x10010C, [(5, 32)], 0x0, 0x0, 0x0, 0x0⟩,
  ⟨0x100110, [(5, 32)], 0x0, 0x0, 0x0, 0xFFCE⟩,
  ⟨0x100200, [], 0xFFFFF000, 0x0, 0x0, 0xFFF⟩,
  ⟨0x100204, [], 0xFFFFFFFF, 0x0, 0x0, 0x0⟩,
  ⟨0x100208, [], 0xFFFFFFFF, 0x0, 0x0, 0x0⟩,
  ⟨0x10020C, [], 0x1FFFFF, 0x0, 0x0, 0xFFE00000⟩,
  ⟨0x100300, [], 0x3, 0x0, 0x0, 0xFFFFFFFC⟩,
  ⟨0x100304, [], 0x0, 0x0, 0x0, 0xFFFF00F0⟩,
  ⟨0x100400, [(4, 4)], 0x0, 0x0, 0x0, 0xF0⟩,
  ⟨0x100410, [], 0x0, 0x0, 0x0, 0xFFFFFFC8⟩]
/-- The maps of the block at 0x200000. -/
def mapCld : List RegRow := [
  ⟨0x200000, [(18, 65536)], 0x0, 0x0, 0x0, 0xFFFF0018⟩,
  ⟨0x200004, [(18, 65536)], 0x3, 0x0, 0x0, 0xFFFFFFFC⟩,
  ⟨0x200100, [(18, 65536), (16, 4)], 0x0, 0x0, 0x0, 0x301FFF00⟩,
  ⟨0x200200, [(18, 65536), (16, 4)], 0x0, 0x0, 0x0, 0xC0000000⟩]

/-- The maps of the block that holds an address; none for an address outside every block (R502). -/
def mapOf (a : Nat) : Option (List RegRow) :=
  match a / 0x10000 with
  | 0 => some mapCap
  | 1 => some mapMode
  | 2 => some mapFlt
  | 3 => some mapZen
  | 4 => some mapDsp
  | 6 => some mapSeq
  | 8 => some mapJet
  | 10 => some mapMem
  | 12 => some mapRep
  | 14 => some mapFio
  | 16 => some mapHor
  | 5 => some []
  | 7 => some []
  | 9 => some []
  | 11 => some []
  | 13 => some []
  | 15 => some []
  | b => if 0x20 ≤ b ∧ b < 0x32 then some mapCld else none

/-- The instance of a group at an offset from its base, one index for each dimension. -/
def instanceAt : List (Nat × Nat) → Nat → Option (List Nat)
  | [], off => if off = 0 then some [] else none
  | (n, d) :: ds, off =>
    if off / d < n then (instanceAt ds (off % d)).map (fun is => off / d :: is) else none

/-- The row of a map that an address lies in, with its instance. -/
def findRow : List RegRow → Nat → Option (RegRow × List Nat)
  | [], _ => none
  | r :: rs, a =>
    if a < r.base then findRow rs a
    else match instanceAt r.dims (a - r.base) with
      | some is => some (r, is)
      | none => findRow rs a

/-! ### Reset values (R16) -/

/-- The reset values of FLT_SRC (R352): react, allow, class and fence. -/
def srcReset0 : List Nat := [0x284, 0x284, 0x284, 0x284, 0x88, 0x284, 0x284, 0x9A2, 0x284, 0x1C8, 0x1C8, 0x1C8, 0x1C8, 0x1C8, 0x1C8, 0x1C8, 0x4A8, 0x5E8, 0x5E8, 0x1C8, 0x1C8, 0x1D9, 0x1C8, 0x88]
/-- FLT_SRC, sources 24 to 47. -/
def srcReset1 : List Nat := [0x88, 0x1C8, 0x1C3, 0x1C8, 0xC8, 0x88, 0x9A8, 0x188, 0x188, 0x188, 0x188, 0x188, 0x9A2, 0x188, 0x88, 0x1D8, 0x1D8, 0x88, 0x1D8, 0x188, 0x88, 0x88, 0x284, 0x88]
/-- FLT_SRC, sources 48 to 71. -/
def srcReset2 : List Nat := [0x88, 0x15A8, 0x284, 0x88, 0x188, 0x1C3, 0x1C3, 0x1C3, 0x1C8, 0x1C3, 0xEA4, 0x284, 0x5A8, 0x188, 0x284, 0x188, 0x88, 0x88, 0x88, 0x188, 0x188, 0x88, 0x1D8, 0x88]
/-- FLT_SRC, sources 72 to 95. -/
def srcReset3 : List Nat := [0x88, 0x188, 0x1C8, 0x1C8, 0x188, 0x11A8, 0x10A8, 0x88, 0x11A8, 0x11AA, 0x18C, 0x188, 0x188, 0x188, 0x188, 0x88, 0x188, 0x188, 0x88, 0x1C8, 0x188, 0x1C8, 0x88, 0x88]

/-- The reset value of FLT_SRC[n]. -/
def srcReset (n : Nat) : Nat := (srcReset0 ++ srcReset1 ++ srcReset2 ++ srcReset3).getD n 0

/-- The reset value of the register at an address. -/
def regReset (a : Nat) : Word :=
  BitVec.ofNat 32 <|
    if a = aModeCmd then 0x8000 else
    if a = aFltCtrl then 0x6 else
    if a = aFltCmd then 0x8000 else
    if a = aFltTemp then 0x736900 else
    if a = aZenCtrl then 0xA01 else
    if a = aZenCmd then 0x8000 else
    if a = aDspFcmd then 0x8000 else
    if a = aDspTmask then 0xFFFF else
    if a = aJetCtrl then 0x1 else
    if a = aJetTmo then 0x3E82710 else
    if a = aJetPctl then 0x3E8 else
    if a = aMemGsys then 0x100 else
    if a = aLckCmd then 0x8000 else
    if a = aMarRoll then 0x64 else
    if a = aRepRoll then 0x640258 else
    if a = aLnkCtrl then 0x1E else
    if a = aLnkErrth then 0x64 else
    if a = aRingPoll then 0x32 else
    if a = aRingIrq then 0x1C000A else
    if a = aSvcCtrl then 0x3 else
    if 0x6010C ≤ a ∧ a < 0x6020C ∧ (a - 0x6010C) % 32 = 0 then 0x8000 else
    if 0xE0000 ≤ a ∧ a < 0xE0800 ∧ (a - 0xE0000) % 32 = 0 then 0x20000 else
    if 0xE0010 ≤ a ∧ a < 0xE0810 ∧ (a - 0xE0010) % 32 = 0 then 0x4 else
    if 0x100108 ≤ a ∧ a < 0x1001A8 ∧ (a - 0x100108) % 32 = 0 then 0x4 else
    if 0x20400 ≤ a ∧ a < 0x20580 then srcReset ((a - 0x20400) / 4) else 0

/-! ### The sources (R352) -/

/-- Source 0, FLT_SELF: class F. -/
def srcFltSelf : Nat := 0
/-- Source 1, VMON_CORE: class F. -/
def srcVmonCore : Nat := 1
/-- Source 2, VMON_IO: class F. -/
def srcVmonIo : Nat := 2
/-- Source 3, VMON_DRAM: class F. -/
def srcVmonDram : Nat := 3
/-- Source 4, TEMP_WARN: class C. -/
def srcTempWarn : Nat := 4
/-- Source 5, TEMP_CRIT: class F. -/
def srcTempCrit : Nat := 5
/-- Source 6, PLL_CORE: class F. -/
def srcPllCore : Nat := 6
/-- Source 7, PLL_CLOUD: class U. -/
def srcPllCloud : Nat := 7
/-- Source 8, REF_CLK: class F. -/
def srcRefClk : Nat := 8
/-- Source 9, TOKEN_BAD: class U. -/
def srcTokenBad : Nat := 9
/-- Source 10, DUP: class U. -/
def srcDup : Nat := 10
/-- Source 11, PORT_MIX: class U. -/
def srcPortMix : Nat := 11
/-- Source 12, MATCH_FULL: class U. -/
def srcMatchFull : Nat := 12
/-- Source 13, SPILL_FULL: class U. -/
def srcSpillFull : Nat := 13
/-- Source 14, TOKEN_LATE: class U. -/
def srcTokenLate : Nat := 14
/-- Source 15, ORPHAN: class U. -/
def srcOrphan : Nat := 15
/-- Source 16, MATCH_ECC (C): class C. -/
def srcMatchEccC : Nat := 16
/-- Source 17, MATCH_ECC (U): class U. -/
def srcMatchEccU : Nat := 17
/-- Source 18, CELL_TRAP: class U. -/
def srcCellTrap : Nat := 18
/-- Source 19, FRAME_MISS: class U. -/
def srcFrameMiss : Nat := 19
/-- Source 20, DSP_OVF_FULL: class U. -/
def srcDspOvfFull : Nat := 20
/-- Source 21, ITER_STALL: class U. -/
def srcIterStall : Nat := 21
/-- Source 22, DSP_NOCELL: class U. -/
def srcDspNocell : Nat := 22
/-- Source 23, DSP_EVT_BAD: class C. -/
def srcDspEvtBad : Nat := 23
/-- Source 24, BOOST_FULL: class C. -/
def srcBoostFull : Nat := 24
/-- Source 25, SCHED_LATE: class U. -/
def srcSchedLate : Nat := 25
/-- Source 26, SCHED_LIMIT: class U. -/
def srcSchedLimit : Nat := 26
/-- Source 27, SCHED_TAG: class U. -/
def srcSchedTag : Nat := 27
/-- Source 28, SCHED_REALIGN: class C. -/
def srcSchedRealign : Nat := 28
/-- Source 29, JET_HOP_CE: class C. -/
def srcJetHopCe : Nat := 29
/-- Source 30, JET_HOP_UE: class U. -/
def srcJetHopUe : Nat := 30
/-- Source 31, JET_E2E: class U. -/
def srcJetE2e : Nat := 31
/-- Source 32, JET_CREDIT_LOST: class U. -/
def srcJetCreditLost : Nat := 32
/-- Source 33, JET_RESP_LOST: class U. -/
def srcJetRespLost : Nat := 33
/-- Source 34, JET_STALL: class U. -/
def srcJetStall : Nat := 34
/-- Source 35, JET_BADUNIT: class U. -/
def srcJetBadunit : Nat := 35
/-- Source 36, JET_BRIDGE: class U. -/
def srcJetBridge : Nat := 36
/-- Source 37, JET_SINK: class U. -/
def srcJetSink : Nat := 37
/-- Source 38, MEM_CE: class C. -/
def srcMemCe : Nat := 38
/-- Source 39, MEM_UE: class U. -/
def srcMemUe : Nat := 39
/-- Source 40, MEM_POST_ERR: class U. -/
def srcMemPostErr : Nat := 40
/-- Source 41, DRAM_CE: class C. -/
def srcDramCe : Nat := 41
/-- Source 42, DRAM_UE: class U. -/
def srcDramUe : Nat := 42
/-- Source 43, MRAM_UE: class U. -/
def srcMramUe : Nat := 43
/-- Source 44, LCK_ABANDON: class C. -/
def srcLckAbandon : Nat := 44
/-- Source 45, LCK_DIR_CE: class C. -/
def srcLckDirCe : Nat := 45
/-- Source 46, LCK_DIR_UE: class F. -/
def srcLckDirUe : Nat := 46
/-- Source 47, SEM_OVF: class C. -/
def srcSemOvf : Nat := 47
/-- Source 48, MAR_REPAIR: class C. -/
def srcMarRepair : Nat := 48
/-- Source 49, MAR_UNREP: class U. -/
def srcMarUnrep : Nat := 49
/-- Source 50, MAR_GLOBAL: class F. -/
def srcMarGlobal : Nat := 50
/-- Source 51, REPLOG_CRC: class C. -/
def srcReplogCrc : Nat := 51
/-- Source 52, REPLOG_FULL: class U. -/
def srcReplogFull : Nat := 52
/-- Source 53, PAIR_MISMATCH: class U. -/
def srcPairMismatch : Nat := 53
/-- Source 54, PAIR_TIMEOUT: class U. -/
def srcPairTimeout : Nat := 54
/-- Source 55, PAIR_SEQ: class U. -/
def srcPairSeq : Nat := 55
/-- Source 56, PAIR_ADDR: class U. -/
def srcPairAddr : Nat := 56
/-- Source 57, PAIR_BROKEN: class U. -/
def srcPairBroken : Nat := 57
/-- Source 58, PAIR_CMP: class F. -/
def srcPairCmp : Nat := 58
/-- Source 59, PAIR_INJ_FAIL: class F. -/
def srcPairInjFail : Nat := 59
/-- Source 60, BIST_CELL: class U. -/
def srcBistCell : Nat := 60
/-- Source 61, BIST_CLOUD: class U. -/
def srcBistCloud : Nat := 61
/-- Source 62, BIST_ROOT: class F. -/
def srcBistRoot : Nat := 62
/-- Source 63, REP_NOSPARE: class U. -/
def srcRepNospare : Nat := 63
/-- Source 64, REP_REFUSED: class C. -/
def srcRepRefused : Nat := 64
/-- Source 65, REP_ROLL_FAIL: class C. -/
def srcRepRollFail : Nat := 65
/-- Source 66, ROLL_SKIP: class C. -/
def srcRollSkip : Nat := 66
/-- Source 67, ZEN_UNLOCK: class U. -/
def srcZenUnlock : Nat := 67
/-- Source 68, ZEN_HOLDOVER: class U. -/
def srcZenHoldover : Nat := 68
/-- Source 69, ZEN_STEP: class C. -/
def srcZenStep : Nat := 69
/-- Source 70, ZEN_REL_REFUSED: class U. -/
def srcZenRelRefused : Nat := 70
/-- Source 71, ZEN_TIMER_OVR: class C. -/
def srcZenTimerOvr : Nat := 71
/-- Source 72, ZEN_SYNC_BAD: class C. -/
def srcZenSyncBad : Nat := 72
/-- Source 73, TIO_OVR: class U. -/
def srcTioOvr : Nat := 73
/-- Source 74, TIO_LATE: class U. -/
def srcTioLate : Nat := 74
/-- Source 75, TIO_QFULL: class U. -/
def srcTioQfull : Nat := 75
/-- Source 76, TIO_READBACK: class U. -/
def srcTioReadback : Nat := 76
/-- Source 77, SP_OVR: class U. -/
def srcSpOvr : Nat := 77
/-- Source 78, SP_FRAME: class C. -/
def srcSpFrame : Nat := 78
/-- Source 79, SP_NACK: class C. -/
def srcSpNack : Nat := 79
/-- Source 80, SP_UNDER: class U. -/
def srcSpUnder : Nat := 80
/-- Source 81, SP_BUS: class U. -/
def srcSpBus : Nat := 81
/-- Source 82, FAULTN_RB: class U. -/
def srcFaultnRb : Nat := 82
/-- Source 83, BAR_CRC: class U. -/
def srcBarCrc : Nat := 83
/-- Source 84, BAR_LINK: class U. -/
def srcBarLink : Nat := 84
/-- Source 85, HOST_LOST: class U. -/
def srcHostLost : Nat := 85
/-- Source 86, LNK_DOWN: class U. -/
def srcLnkDown : Nat := 86
/-- Source 87, LNK_ERR: class C. -/
def srcLnkErr : Nat := 87
/-- Source 88, RING_ERR: class U. -/
def srcRingErr : Nat := 88
/-- Source 89, SEC_SIG: class U. -/
def srcSecSig : Nat := 89
/-- Source 90, SVC_AUTH: class C. -/
def srcSvcAuth : Nat := 90
/-- Source 91, IFC_VER: class U. -/
def srcIfcVer : Nat := 91
/-- Source 92, IMG_LOAD: class U. -/
def srcImgLoad : Nat := 92
/-- Source 93, HOST_WDOG: class U. -/
def srcHostWdog : Nat := 93
/-- Source 94, MODE_BAD: class C. -/
def srcModeBad : Nat := 94
/-- Source 95, SETUP_RSV: class C. -/
def srcSetupRsv : Nat := 95

end Sys2Proof.Machine
end

