-- ==== Sys2Proof/Machine/Ops.lean ====
section
/-! DEFINITION. The named operations that every meaning is built from: tables and memories in their
canonical form, bit fields, the capacities of a variant, the accessors of the state's parts, the
stored set-up registers, the reports to the fault collector, and the log records. -/

namespace Sys2Proof.Machine

/-- The outcome of a step. -/
abbrev Out := Host.Outcome State Fault Refusal

/-! ### Tables -/

/-- The entry of a table under a key. -/
def tfind {α : Type} : Table α → Nat → Option α
  | [], _ => none
  | (k', v) :: t, k => if k' = k then some v else tfind t k

/-- A table without the entries of a key. -/
def terase {α : Type} (t : Table α) (k : Nat) : Table α := t.filter (fun e => e.1 ≠ k)

/-- A table with an entry put in its place; an entry of the same key is replaced. -/
def tins {α : Type} : Table α → Nat → α → Table α
  | [], k, v => [(k, v)]
  | (k', v') :: t, k, v =>
    if k < k' then (k, v) :: (k', v') :: t
    else if k' = k then (k, v) :: t
    else (k', v') :: tins t k v

/-- What a table reads as at a key, with what an unlisted key reads as. -/
def tget {α : Type} (d : Nat → α) (t : Table α) (k : Nat) : α := (tfind t k).getD (d k)

/-- A table with a value at a key: writing what an unlisted key reads as removes the entry. -/
def tset {α : Type} [DecidableEq α] (d : Nat → α) (t : Table α) (k : Nat) (v : α) : Table α :=
  if v = d k then terase t k else tins t k v

/-- A table with every listed value changed, in canonical form. -/
def tmap {α : Type} [DecidableEq α] (d : Nat → α) (f : Nat → α → α) (t : Table α) : Table α :=
  (t.map (fun e => (e.1, f e.1 e.2))).filter (fun e => decide (e.2 ≠ d e.1))

/-- The canonical form: keys strictly rising, and no entry equal to what it reads as unlisted. -/
def twf {α : Type} [DecidableEq α] (d : Nat → α) (t : Table α) : Bool :=
  decide (List.Pairwise (fun a b => a.1 < b.1) t) && t.all (fun e => decide (e.2 ≠ d e.1))

/-! ### Memories (R11) -/

/-- What an unlisted byte reads as: TEST and LOAD leave memories cleared (R479, R483); before them, the
value is the model's (DESIGN CHOICE: log entry 7). -/
def unlisted : Nat → Byte := fun _ => 0

/-- The canonical form of a memory. -/
abbrev Memory.wf (m : Memory) : Bool := twf unlisted m

/-- One byte of a memory. -/
def mget (m : Memory) (a : Nat) : Byte := tget unlisted m a

/-- A memory with one byte written. -/
def mset (m : Memory) (a : Nat) (b : Byte) : Memory := tset unlisted m a b

/-- Consecutive bytes of a memory, lowest address first. -/
def mread (m : Memory) (a : Nat) : Nat → List Byte
  | 0 => []
  | n + 1 => mget m a :: mread m (a + 1) n

/-- A memory with consecutive bytes written, lowest address first. -/
def mwrite (m : Memory) (a : Nat) : List Byte → Memory
  | [] => m
  | b :: bs => mwrite (mset m a b) (a + 1) bs

/-- A memory with a range cleared. -/
def mclear (m : Memory) (a n : Nat) : Memory := m.filter (fun c => c.1 < a ∨ a + n ≤ c.1)

/-- The number that bytes hold, least significant byte first (R11). -/
def leNat : List Byte → Nat
  | [] => 0
  | b :: bs => b.toNat + 256 * leNat bs

/-- The n bytes of a number, least significant byte first (R11). -/
def leBytes : Nat → Nat → List Byte
  | 0, _ => []
  | n + 1, v => BitVec.ofNat 8 v :: leBytes n (v / 256)

/-- A 32-bit word of a memory. -/
def mword (m : Memory) (a : Nat) : Word := BitVec.ofNat 32 (leNat (mread m a 4))

/-- A memory with a 32-bit word written. -/
def mputWord (m : Memory) (a : Nat) (v : Word) : Memory := mwrite m a (leBytes 4 v.toNat)

/-! ### Bits and numbers -/

/-- Bits [hi:lo] of a number. -/
def bitsOf (v hi lo : Nat) : Nat := v / 2 ^ lo % 2 ^ (hi + 1 - lo)

/-- Field [hi:lo] of a word. -/
def fld (v : Word) (hi lo : Nat) : Nat := bitsOf v.toNat hi lo

/-- A word with field [hi:lo] replaced. -/
def putFld (v : Word) (hi lo x : Nat) : Word :=
  BitVec.ofNat 32 (v.toNat - fld v hi lo * 2 ^ lo + x % 2 ^ (hi + 1 - lo) * 2 ^ lo)

/-- 1 for true. -/
def b2n (b : Bool) : Nat := if b then 1 else 0

/-- The smaller of a number and a bound (a saturating counter). -/
def sat (bound n : Nat) : Nat := if n ≤ bound then n else bound

/-- A signed number as a 32-bit word, saturating (R398). -/
def satWord (z : Int) : Word :=
  if z > 0x7FFFFFFF then 0x7FFFFFFF else if z < -0x80000000 then 0x80000000 else BitVec.ofInt 32 z

/-- Serial-number order on 16 bits: a lies before b (R12). -/
def before16 (a b : BitVec 16) : Bool := a ≠ b && decide ((b - a).toNat < 0x8000)

/-- The first places of a list that satisfy a test, as an index. -/
def indexOf? {α : Type} (p : α → Bool) : List α → Option Nat
  | [] => none
  | x :: xs => if p x then some 0 else (indexOf? p xs).map (· + 1)

/-- A list with the element at a place replaced. -/
def replaceAt {α : Type} : List α → Nat → α → List α
  | [], _, _ => []
  | _ :: xs, 0, y => y :: xs
  | x :: xs, n + 1, y => x :: replaceAt xs n y

/-- Numbers below n, rising. -/
def upTo (n : Nat) : List Nat := List.range n

/-! ### Capacities (R2, R22, R500) -/

/-- Physical clouds. -/
def Variant.clouds : Variant → Nat
  | .ltm7256 => 18 | .ltm7128 => 9 | .ltm7064 => 5

/-- Spare clouds. -/
def Variant.spares : Variant → Nat
  | .ltm7256 => 2 | .ltm7128 => 1 | .ltm7064 => 1

/-- Logical clouds. -/
def Variant.lclouds (v : Variant) : Nat := v.clouds - v.spares

/-- Physical cells. -/
def Variant.pcells (v : Variant) : Nat := v.clouds * 16

/-- Logical cells. -/
def Variant.lcells (v : Variant) : Nat := v.lclouds * 16

/-- Pair stations. -/
def Variant.stations : Variant → Nat
  | .ltm7256 => 16 | .ltm7128 => 8 | .ltm7064 => 0

/-- Downstream Powyn ports. -/
def Variant.dsports : Variant → Nat
  | .ltm7256 => 3 | .ltm7128 => 3 | .ltm7064 => 1

/-- Serial ports. -/
def Variant.sports : Variant → Nat
  | .ltm7256 => 8 | .ltm7128 => 8 | .ltm7064 => 4

/-- TIO pins. -/
def Variant.pins : Variant → Nat
  | .ltm7256 => 64 | .ltm7128 => 64 | .ltm7064 => 32

/-- DRAM before inline ECC, in MiB. -/
def Variant.dramMiB : Variant → Nat
  | .ltm7256 => 4096 | .ltm7128 => 2048 | .ltm7064 => 1024

/-- Usable bytes of DRAM: inline ECC takes one eighth (R278). -/
def Variant.dramBytes (v : Variant) : Nat := v.dramMiB * 0x100000 / 8 * 7

/-- MRAM in 256 KiB units. -/
def Variant.mramUnits : Variant → Nat
  | .ltm7256 => 16 | .ltm7128 => 16 | .ltm7064 => 4

/-- The part number (R498). -/
def Variant.part : Variant → Nat
  | .ltm7256 => 0x7256 | .ltm7128 => 0x7128 | .ltm7064 => 0x7064

/-- The variant's bit in an image's mask (R480). -/
def Variant.bit : Variant → Nat
  | .ltm7256 => 0 | .ltm7128 => 1 | .ltm7064 => 2

/-- The level-one node of a cloud (R22). -/
def level1Of (cloud : Nat) : Nat := cloud / 3

/-- The level-two node of a level-one node (R22). -/
def level2Of (node : Nat) : Nat := node / 3

/-! ### Parts of the state -/

/-- A physical cell (R6). -/
def State.cell (s : State) (p : Nat) : Cell := tget (fun _ => Cell.idle) s.cells p

/-- The state with a physical cell replaced. -/
def State.setCell (s : State) (p : Nat) (c : Cell) : State :=
  { s with cells := tset (fun _ => Cell.idle) s.cells p c }

/-- The state with a physical cell changed. -/
def State.modCell (s : State) (p : Nat) (f : Cell → Cell) : State := s.setCell p (f (s.cell p))

/-- The state with every physical cell in use changed; one never written stays idle. -/
def State.mapCells (s : State) (f : Nat → Cell → Cell) : State :=
  { s with cells := tmap (fun _ => Cell.idle) f s.cells }

/-- A physical cloud. -/
def State.cloud (s : State) (c : Nat) : Cloud := tget (fun _ => Cloud.idle) s.clouds c

/-- The state with a physical cloud changed. -/
def State.modCloud (s : State) (c : Nat) (f : Cloud → Cloud) : State :=
  { s with clouds := tset (fun _ => Cloud.idle) s.clouds c (f (s.cloud c)) }

/-- The state with every physical cloud in use changed; one never written stays idle. -/
def State.mapClouds (s : State) (f : Nat → Cloud → Cloud) : State :=
  { s with clouds := tmap (fun _ => Cloud.idle) f s.clouds }

/-- A bank. -/
def State.bank (s : State) (b : Nat) : Bank := tget (fun _ => Bank.idle) s.mem.banks b

/-- The state with a bank changed. -/
def State.modBank (s : State) (b : Nat) (f : Bank → Bank) : State :=
  { s with mem := { s.mem with banks := tset (fun _ => Bank.idle) s.mem.banks b (f (s.bank b)) } }

/-- A TIO pin. -/
def State.pin (s : State) (n : Nat) : Pin := tget (fun _ => Pin.idle) s.fio.pins n

/-- What a change of a pin brings with it (R413): the core cycle of a change of the driven level is kept, and a readback
failure ends where the levels agree again, or where nothing is driven. -/
def Pin.settled (now : Nat) (old new : Pin) : Pin :=
  { new with
    drvAt := if new.drv = old.drv then old.drvAt else now
    rb := new.rb && new.drv.isSome && new.ext.isSome && decide (new.ext ≠ new.drv) }

/-- The state with a TIO pin changed. -/
def State.modPin (s : State) (n : Nat) (f : Pin → Pin) : State :=
  { s with fio := { s.fio with
      pins := tset (fun _ => Pin.idle) s.fio.pins n ((s.pin n).settled s.zen.cycle (f (s.pin n))) } }

/-- A serial port. -/
def State.port (s : State) (p : Nat) : SerialPort :=
  tget (fun _ => SerialPort.idle) s.fio.ports p

/-- The state with a serial port changed. -/
def State.modPort (s : State) (p : Nat) (f : SerialPort → SerialPort) : State :=
  { s with fio := { s.fio with
      ports := tset (fun _ => SerialPort.idle) s.fio.ports p (f (s.port p)) } }

/-- A Scheduled partition at the sequencer. -/
def State.part (s : State) (p : Nat) : SeqPart := tget (fun _ => SeqPart.idle) s.seq p

/-- The state with a partition at the sequencer changed. -/
def State.modPart (s : State) (p : Nat) (f : SeqPart → SeqPart) : State :=
  { s with seq := tset (fun _ => SeqPart.idle) s.seq p (f (s.part p)) }

/-- A pair station. -/
def State.station (s : State) (i : Nat) : Station := tget (fun _ => Station.idle) s.pairs i

/-- The state with a pair station changed. -/
def State.modStation (s : State) (i : Nat) (f : Station → Station) : State :=
  { s with pairs := tset (fun _ => Station.idle) s.pairs i (f (s.station i)) }

/-- A Powyn port. -/
def State.link (s : State) (k : Nat) : LinkPort := tget (fun _ => LinkPort.idle) s.hor.ports k

/-- The state with a Powyn port changed. -/
def State.modLink (s : State) (k : Nat) (f : LinkPort → LinkPort) : State :=
  { s with hor := { s.hor with
      ports := tset (fun _ => LinkPort.idle) s.hor.ports k (f (s.link k)) } }

/-- A host ring. -/
def State.ring (s : State) (r : Nat) : Ring := tget (fun _ => Ring.idle) s.hor.rings r

/-- The state with a host ring changed. -/
def State.modRing (s : State) (r : Nat) (f : Ring → Ring) : State :=
  { s with hor := { s.hor with rings := tset (fun _ => Ring.idle) s.hor.rings r (f (s.ring r)) } }

/-- A key slot (R468). -/
def State.key (s : State) (i : Nat) : KeySlot := tget (fun _ => KeySlot.blank) s.hor.keys i

/-- The state with a key slot changed. -/
def State.modKey (s : State) (i : Nat) (f : KeySlot → KeySlot) : State :=
  { s with hor := { s.hor with
      keys := tset (fun _ => KeySlot.blank) s.hor.keys i (f (s.key i)) } }

/-- A zenith timer. -/
def State.timer (s : State) (n : Nat) : Timer := tget (fun _ => Timer.idle) s.zen.timers n

/-- The state with a zenith timer changed. -/
def State.modTimer (s : State) (n : Nat) (f : Timer → Timer) : State :=
  { s with zen := { s.zen with
      timers := tset (fun _ => Timer.idle) s.zen.timers n (f (s.timer n)) } }

/-- A partition as the image gives it (R26). -/
def State.partition (s : State) (p : Nat) : Partition :=
  tget (fun _ => Partition.unused) s.mode.parts p

/-- The partition that a logical cell belongs to (R26). -/
def State.partOf (s : State) (lid : Nat) : Option Nat :=
  (upTo 8).find? (fun p => (s.partition p).used && (s.partition p).cells.getLsbD lid)

/-- The physical cell that holds a logical id, where one does (R7). -/
def State.placeOf (s : State) (lid : Nat) : Option Nat :=
  match tget (fun _ => 0) s.rep.place lid with
  | 0 => none
  | p + 1 => some p

/-- The logical id that a physical cell holds, where it holds one (R7). -/
def State.lidOf (s : State) (pcell : Nat) : Option Nat :=
  (s.rep.place.find? (fun e => e.2 = pcell + 1)).map Prod.fst

/-- The partition of a physical cell, through its logical id. -/
def State.partOfCell (s : State) (pcell : Nat) : Option Nat := (s.lidOf pcell).bind s.partOf

/-- A physical cell belongs to a Scheduled partition. -/
def State.isSched (s : State) (pcell : Nat) : Bool :=
  match s.partOfCell pcell with
  | some p => (s.partition p).sched
  | none => false

/-- A number that no earlier step has taken, by which a free value is found. -/
def State.takeFresh (s : State) : Nat × State := (s.fresh, { s with fresh := s.fresh + 1 })

/-! ### Time -/

/-- A cell's now (R51, R380): bits [35:4] of the count. -/
def State.now (s : State) : Word := BitVec.ofNat 32 (s.zen.count / 16)

/-- The local mark (R166): zenith is UNLOCKED or ACQUIRING. -/
def State.isLocal (s : State) : Bool :=
  match s.zen.state with
  | .unlocked | .acquiring => true
  | .locked | .holdover => false

/-- A record's 64-bit time: the count in [62:0] and the local mark in [63] (R376, R456). -/
def timeWord (count : Nat) (loc : Bool) : Nat := count % 2 ^ 63 + b2n loc * 2 ^ 63

/-! ### Stored registers -/

/-- The stored value of the set-up register at an address (R13, R16). -/
def State.reg (s : State) (a : Nat) : Word := tget regReset s.regs a

/-- The state with the stored value of a set-up register replaced. -/
def State.setReg (s : State) (a : Nat) (v : Word) : State :=
  { s with regs := tset regReset s.regs a v }

/-- Field [hi:lo] of a stored register. -/
def State.regF (s : State) (a hi lo : Nat) : Nat := fld (s.reg a) hi lo

/-- The state with a field of a stored register replaced. -/
def State.setRegF (s : State) (a hi lo x : Nat) : State := s.setReg a (putFld (s.reg a) hi lo x)

/-- A counter field [hi:lo] that rises by n and saturates. -/
def State.addRegF (s : State) (a hi lo n : Nat) : State :=
  s.setRegF a hi lo (sat (2 ^ (hi + 1 - lo) - 1) (s.regF a hi lo + n))

/-- A 32-bit counter that rises by 1 and saturates at 0xFFFF_FFFF. -/
def State.bump (s : State) (a : Nat) : State := s.addRegF a 31 0 1

/-! ### Reports to the fault collector (R346 to R348) -/

/-- Masters of a report (R351). -/
def masterNone : BitVec 10 := 0x3FB
def masterDispatcher : BitVec 10 := 0x3FC
def masterSequencer : BitVec 10 := 0x3FD
def masterHost : BitVec 10 := 0x3FE
def masterDma : BitVec 10 := 0x3FF

/-- Access types of a report (R351). -/
def accFetch : BitVec 3 := 0
def accRead : BitVec 3 := 1
def accWrite : BitVec 3 := 2
def accAtomic : BitVec 3 := 3
def accToken : BitVec 3 := 4
def accLock : BitVec 3 := 5
def accNone : BitVec 3 := 6

/-- A report joins those that wait: behind every report of an earlier core cycle, and among those of its own cycle by
ascending source (R350). A core cycle is one count of zenith (DESIGN CHOICE: log entry 123). -/
def putReport (r : FaultIn) : List FaultIn → List FaultIn
  | [] => [r]
  | x :: xs =>
    if x.time = r.time ∧ r.source < x.source then r :: x :: xs else x :: putReport r xs

/-- A unit raises a report: it waits at the collector with its details, or without them when 64
detail sets wait already (R348). In RESET the collector is held reset (R356). -/
def State.raise (s : State) (source : Nat) (master : BitVec 10) (access : BitVec 3)
    (addr syn : Word) : State :=
  if s.mode.mode = .reset then s else
  let d : Details := { master, access, addr, syn }
  let held := (s.flt.inQ.filter (fun r => r.details.isSome)).length
  { s with flt := { s.flt with
      inQ := putReport { source, time := s.zen.count, details := if held < 64 then some d else none }
        s.flt.inQ } }

/-- A word of a number. -/
def w32 (n : Nat) : Word := BitVec.ofNat 32 n

/-- The register that an address lies in, with its instance's first index: none for an address that is no
register's (R502, R503). -/
def regAt (a : Nat) : Option (RegRow × Nat) :=
  ((mapOf a).bind (fun m => findRow m a)).map (fun r => (r.1, r.2.headD 0))

/-- A write to a reserved field, a reserved offset or an absent block is reported (R15, R526). -/
def State.setupRsv (s : State) (loader : Bool) (a : Nat) (v : Word) : State :=
  s.raise srcSetupRsv (if loader then masterDma else masterHost) accWrite (w32 a) v

/-- The reserved bits of the register at an address (R14). Bit 9 of RING_CFG is reserved in every ring but
ring 2. -/
def rsvBits (a : Nat) : Nat :=
  match regAt a with
  | none => 0
  | some (row, i) => row.rsv ||| (if a = aRingCfg i ∧ i ≠ 2 then 512 else 0)

/-! ### Absent blocks (R500) -/

/-- Level-one nodes of a variant (R22). -/
def Variant.nodes1 (v : Variant) : Nat := (v.clouds + 2) / 3

/-- A register address lies in a block that the variant does not have (R500). -/
def Variant.absent (v : Variant) (a : Nat) : Bool :=
  let group (base stride count n : Nat) : Bool :=
    decide (base ≤ a ∧ a < base + stride * count ∧ n ≤ (a - base) / stride)
  decide (0x200000 ≤ a ∧ v.clouds ≤ (a - 0x200000) / 0x10000)
    || group 0xA8000 0x40 18 v.clouds
    || (group 0xA3100 4 18 v.clouds)
    || group 0xA1100 4 144 (v.clouds * 8)
    || (v.stations = 0 && decide (a = aPairCtrl ∨ a = aPairInj))
    || group 0xC0100 0x40 16 v.stations
    || group 0x40C00 4 256 v.lcells
    || group 0xC1400 4 256 v.lcells
    || decide (0x40400 ≤ a ∧ a < 0x40C00 ∧ v.lcells / 32 ≤ (a - 0x40400) % 32 / 4)
    || group 0xE0000 0x20 64 v.pins
    || group 0xE0810 4 2 (v.pins / 32)
    || group 0xE1000 0x40 8 v.sports
    || group 0x100010 4 4 (v.dsports + 1)
    || group 0x100030 4 4 (v.dsports + 1)
    || group 0x100024 4 3 v.dsports
    || group 0x80100 4 6 v.nodes1
    || (decide (v.clouds ≤ 9) && decide (a = aJetTbud 7))

/-- A write that sets any reserved bit of a register is counted once (R15). -/
def State.countRsv (s : State) (loader : Bool) (a : Nat) (v : Word) : State :=
  if v &&& w32 (rsvBits a) ≠ 0 then s.setupRsv loader a v else s

/-- The field side takes set-up writes: it is out of RESET (R475). -/
def State.fieldOn (s : State) : Bool := decide (s.mode.mode ≠ .reset)

/-- From the start of CHECK until DONE or REFUSED the loader alone writes these addresses (R505). -/
def State.loaderOwns (s : State) (a : Nat) : Bool :=
  let loading := match s.mode.mode, s.mode.lstate with
    | .load, .check => true
    | .load, .write => true
    | _, _ => false
  loading && (decide (0x20000 ≤ a ∧ a < 0xF0000) || decide (0x200000 ≤ a ∧ a < 0x320000))

/-- A host's write of this address is performed: the field side is out of RESET (R475) and the loader does not own the
address (R505). -/
def State.hostWrites (s : State) (a : Nat) : Bool := s.fieldOn && !s.loaderOwns a

/-- A write of the register at an address that has a row of its own: its effect is t. One to an absent block is
counted and changes nothing (R501), and reserved bits are counted (R15). -/
def State.ownWrite (s : State) (a : Nat) (v : Word) (t : State) : State :=
  if ¬ s.hostWrites a then s
  else if s.variant.absent a then s.setupRsv false a v
  else t.countRsv false a v

/-- The sources of the module's sensors whose condition goes on through RESET: supplies, temperature, the core PLL and the
reference (R352). -/
def sensorSource (n : Nat) : Bool := decide (1 ≤ n ∧ n ≤ 8 ∧ n ≠ srcPllCloud)

/-- The condition of a sensor's source begins (R352). -/
def State.noteSensed (s : State) (source : Nat) (d : Details) : State :=
  if sensorSource source ∧ ¬ s.flt.sensed.any (fun x => x.1 = source)
  then { s with flt := { s.flt with sensed := s.flt.sensed ++ [(source, d)] } } else s

/-- A level source starts to assert: one detail set is sent, and none while it goes on (R527). In RESET the collector is
held reset (R356), and a sensor's condition is reported when it leaves RESET. -/
def State.assertLevel (s : State) (source : Nat) (master : BitVec 10) (access : BitVec 3)
    (addr syn : Word) : State :=
  if source ∈ s.flt.level then s else
  let s := s.noteSensed source { master, access, addr, syn }
  if s.mode.mode = .reset then s else
  let s := s.raise source master access addr syn
  { s with flt := { s.flt with level := s.flt.level ++ [source] } }

/-- A level source asserts (R347). TIO_READBACK holds for as long as a pin fails readback (R413). -/
def State.levelOn (s : State) (source : Nat) : Bool :=
  decide (source ∈ s.flt.level) &&
    (decide (source ≠ srcTioReadback) || s.fio.pins.any (fun e => e.2.rb))

/-- A level source is healthy again (R347). -/
def State.endLevel (s : State) (source : Nat) : State :=
  { s with flt := { s.flt with
      level := s.flt.level.filter (· ≠ source), sensed := s.flt.sensed.filter (fun x => x.1 ≠ source) } }

/-- The field core supply lies outside its window, so that no MRAM write starts (R517). -/
def State.mramStopped (s : State) : Bool := s.flt.sensed.any (fun x => x.1 = srcVmonCore)

/-! ### Log records and messages to the horizon die (R423, R462) -/

/-- The field side sends a barrier message. -/
def State.toHost (s : State) (m : BarMsg) : State :=
  { s with bar := { s.bar with toHost := s.bar.toHost ++ [m] } }

/-- The horizon die sends a barrier message. -/
def State.toField (s : State) (m : BarMsg) : State :=
  { s with bar := { s.bar with toField := s.bar.toField ++ [m] } }

/-- The field side sends a log record: its kind and its body (R462). -/
def State.logField (s : State) (kind : Byte) (body : List Byte) : State :=
  s.toHost (.log kind body)

/-- A log record reaches the ring engine and takes the next lseq. At most 64 are held while the ring
cannot take them; further ones are dropped and counted (R439, R462). -/
def State.logRing (s : State) (kind : Byte) (body : List Byte) : State :=
  let s := if s.hor.logQ.length < 64
    then { s with hor := { s.hor with
             logQ := s.hor.logQ ++ [(kind, leBytes 4 s.hor.lseq.toNat ++ body)] } }
    else s.addRegF (aRingStat 4) 31 16 1
  { s with hor := { s.hor with lseq := s.hor.lseq + 1 } }

/-- The host-side fault relay writes a relay word (R473). -/
def State.relay (s : State) (source : Nat) (asserting : Bool) (port detail : Nat) : State :=
  s.toField (.relay (BitVec.ofNat 32
    (source % 128 + b2n asserting * 128 + port % 256 * 256 + detail % 65536 * 65536)))

/-- The status word at 0x814 of the page is due (R445). -/
def State.statusChanged (s : State) : State := { s with hor := { s.hor with statusDue := true } }

/-! ### Modes (R474, R475) -/

/-- The code of a mode (R376). -/
def Mode.code : Mode → Nat
  | .reset => 0 | .test => 1 | .link => 2 | .load => 3
  | .run => 4 | .degraded => 5 | .halt => 6 | .safe => 7

/-- The code of a load state (MODE_STAT.lstate). -/
def LoadState.code : LoadState → Nat
  | .wait => 0 | .verify => 1 | .check => 2 | .write => 3 | .done => 4 | .refused => 5

/-- The code of a zenith state (R387). -/
def ZenState.code : ZenState → Nat
  | .unlocked => 0 | .acquiring => 1 | .locked => 2 | .holdover => 3

/-- The code of a cloud state (R34). -/
def CloudState.code : CloudState → Nat
  | .off => 0 | .test => 1 | .run => 2 | .drain => 3 | .parked => 4 | .waking => 5 | .fenced => 6

/-- The code of a partition's state (SEQ_PSTAT.state). -/
def PartState.code : PartState → Nat
  | .idle => 0 | .run => 1 | .halted => 2 | .faulted => 3 | .armed => 4 | .gap => 5 | .wait => 6

/-- A transition of the mode: MODE_CAUSE, MODE_TLO and MODE_THI are written and a log entry of
kind 5 follows (R475); the page's status word is due (R445). -/
def State.transit (s : State) (new : Mode) (cause : Nat) : State :=
  let old := s.mode.mode
  let t := timeWord s.zen.count s.isLocal
  let s := s.setReg aModeCause (BitVec.ofNat 32 (cause * 65536 + new.code * 16 + old.code))
  let s := s.setReg aModeTlo (BitVec.ofNat 32 t)
  let s := s.setReg aModeThi (BitVec.ofNat 32 (t / 2 ^ 32))
  let s := { s with mode := { s.mode with
      mode := new, entered := s.zen.count,
      lstate := if new = Mode.load then s.mode.lstate else .wait } }
  let s := s.logField 5 [BitVec.ofNat 8 old.code, BitVec.ofNat 8 new.code, BitVec.ofNat 8 cause]
  if new = old then s else s.statusChanged


/-- RUN, DEGRADED or HALT. -/
def State.running (s : State) : Bool :=
  match s.mode.mode with
  | .run | .degraded | .halt => true
  | _ => false

/-- R358: a unit is fenced or a partition is FAULTED. -/
def State.isDegraded (s : State) : Bool :=
  decide (s.flt.faulted ≠ 0) || decide (s.rep.fenced ≠ [])
    || s.clouds.any (fun e => e.2.state = .fenced)
    || s.pairs.any (fun e => e.2.fenced)
    || s.fio.ports.any (fun e => e.2.fenced)

/-- The mode among RUN, DEGRADED and HALT follows the halted partitions and R358 (R474), with the
cause that MODE_CAUSE records. -/
def State.settle (s : State) : State :=
  if s.running then
    let target : Mode :=
      if s.mode.halted ≠ 0 then .halt else if s.isDegraded then .degraded else .run
    if target = s.mode.mode then s
    else
      let cause :=
        if target = .halt then 13
        else if s.mode.mode = .halt then 14
        else if target = .degraded then 11 else 12
      s.transit target cause
  else s

/-! ### Events for the dispatcher (R164, R165) -/

/-- A source's input queue at the dispatcher. -/
def State.events (s : State) (src : Nat) : List Event := tget (fun _ => []) s.dsp.events src

/-- A source's input queue has room (R165). -/
def State.eventRoom (s : State) (src : Nat) : Bool := decide ((s.events src).length < 16)

/-- An event enters its source's input queue. -/
def State.postEvent (s : State) (src : Nat) (e : Event) : State :=
  { s with dsp := { s.dsp with
      events := tset (fun _ => []) s.dsp.events src (s.events src ++ [e]) } }

/-- A report enters the dispatcher's queue (R165). -/
def State.report (s : State) (r : Report) : State :=
  { s with dsp := { s.dsp with reports := s.dsp.reports ++ [r] } }

/-! ### Poisoned words (R272) -/

/-- A word of a memory is poisoned. Memory n is scratchpad n below 18, 18 global memory, 19 DRAM,
32 + pcell a frame store, 1024 + pcell an instruction store, and 2048 + pcell a matching store. -/
def State.poisoned (s : State) (memory word : Nat) : Bool := decide ((memory, word) ∈ s.mem.poison)

/-- A word is poisoned. -/
def State.setPoison (s : State) (memory word : Nat) : State :=
  if s.poisoned memory word then s
  else { s with mem := { s.mem with poison := s.mem.poison ++ [(memory, word)] } }

/-- A word is poisoned no more. -/
def State.clearPoison (s : State) (memory word : Nat) : State :=
  { s with mem := { s.mem with poison := s.mem.poison.filter (· ≠ (memory, word)) } }

/-- The first n words of a memory are copied from another: what is poisoned there is poisoned in the copy (R272). -/
def State.carryPoison (s : State) (from_ to_ n : Nat) : State :=
  let kept := s.mem.poison.filter (fun w => ¬ (w.1 = to_ ∧ w.2 < n))
  let came := (s.mem.poison.filter (fun w => w.1 = from_ ∧ w.2 < n)).map (fun w => (to_, w.2))
  { s with mem := { s.mem with poison := kept ++ came } }

/-- Bytes are written to MRAM: no write starts after VMON_CORE has tripped (R517). -/
def State.mramWrite (s : State) (a : Nat) (bs : List Byte) : State :=
  if s.mramStopped then s
  else { s with mem := { s.mem with mram := mwrite s.mem.mram a bs } }

/-! ### Checks of the units that a command names -/

/-- A meaning that has its effect when the command names units that the variant has. The variant has no
other unit (R2, R500), so nothing happens in one, and the state stays (DESIGN CHOICE: log entry 1). -/
def unitOk (s : State) (ok : Bool) (t : State) : Out := .next (if ok then t else s)

/-- A meaning that has its effect when its condition holds, and leaves the state as it is when the
condition does not: no such event takes place. -/
def whenHolds (cond : Bool) (s t : State) : State := if cond then t else s

/-! ### Turns -/

/-- The next of several numbers in turn after the one that was served last. -/
def roundRobin (last : Nat) (codes : List Nat) : Option Nat :=
  match codes.filter (last < ·) with
  | [] => codes.min?
  | later => later.min?

end Sys2Proof.Machine
end

