-- ==== Sys2Proof/Machine/Clock.lean ====
section
/-! DEFINITION. The passage of time: what one core cycle does to zenith's count and to the horizon
counter (R378, R379, R383). -/

namespace Sys2Proof.Machine

/-- A signed rate in units of 0.01 ppm, held in [-10,000, 10,000] (R379). -/
def clampRate (r : Int) : Int := if r > 10000 then 10000 else if r < -10000 then -10000 else r

/-- The rate in force, signed (ZEN_RATE.rate). -/
def State.rate (s : State) : Int := (BitVec.ofNat 16 (s.regF aZenRate 15 0)).toInt

/-- The state with ZEN_RATE.rate stored, clamped (R379). -/
def State.setRate (s : State) (r : Int) : State :=
  s.setRegF aZenRate 15 0 (BitVec.ofInt 16 (clampRate r)).toNat

/-- The advance of one core cycle in units of 10^-8 ns: 1 ns and the fraction that the rate sets, a unit of
0.01 ppm being 10^-8 ns (R379), so that the remainder carried is exact (log entry 139). -/
def cycleAdvance (rate : Int) : Int := 10 ^ 8 + rate

/-- One core cycle: the count advances by the whole part of the accumulator, once FIELD_RST_N is
released (R378); the horizon counter advances with its own domain out of reset (R383). -/
def State.coreCycle (s : State) : State :=
  let s := if s.mode.fieldRst then
      let acc := (s.zen.frac : Int) + cycleAdvance s.rate
      { s with zen := { s.zen with
          count := (s.zen.count + (acc / 10 ^ 8).toNat) % 2 ^ 63
          cycle := s.zen.cycle + 1
          frac := (acc % 10 ^ 8).toNat } }
    else s
  if s.mode.hostRst then { s with hor := { s.hor with hcount := s.hor.hcount + 1 } } else s

end Sys2Proof.Machine
end

