-- ==== Sys2Proof/Machine/Route.lean ====
section
/-! DEFINITION. Where a message goes: pairs and their stations, the route map, the token as 128 bits,
the flit's route header, the fault sink, and the launch queue of the root (R24, R25, R39, R229, R232,
R312, R530). -/

namespace Sys2Proof.Machine

/-! ### Pairs (R309, R312) -/

/-- The pair registers of a station that are valid: station, index, main and checker. -/
def State.pairs? (s : State) : List (Nat × Nat × Nat × Nat) :=
  (upTo s.variant.stations).flatMap fun i => (upTo 8).filterMap fun j =>
    let r := s.reg (aPairPair i j)
    if fld r 31 31 = 1 then some (i, j, fld r 7 0, fld r 23 16) else none

/-- The pair that a logical id is a half of: station, index, main and checker. -/
def State.pairOf (s : State) (lid : Nat) : Option (Nat × Nat × Nat × Nat) :=
  s.pairs?.find? (fun q => q.2.2.1 = lid || q.2.2.2 = lid)

/-- The logical id under which a cell works: a checker uses its pair id (R310). -/
def State.workId (s : State) (lid : Nat) : Nat :=
  match s.pairOf lid with
  | some (_, _, main, _) => main
  | none => lid

/-- A logical cell is the checker of a pair. -/
def State.isChecker (s : State) (lid : Nat) : Bool :=
  match s.pairOf lid with
  | some (_, _, _, checker) => checker = lid
  | none => false

/-! ### Tokens as bits (R39, R40) -/

/-- A token's 128 bits, as a number. -/
def Token.toNat (t : Token) : Nat :=
  t.value.toNat + t.stamp.toNat * 2 ^ 32 + t.flow.toNat * 2 ^ 64 + t.iteration.toNat * 2 ^ 76
    + t.addr.toNat * 2 ^ 92 + t.port.toNat * 2 ^ 106 + t.cell.toNat * 2 ^ 108
    + t.cls.toNat * 2 ^ 116 + b2n t.pair * 2 ^ 119 + b2n t.replay * 2 ^ 120
    + b2n t.spilled * 2 ^ 121 + b2n t.late * 2 ^ 122 + b2n t.ordered * 2 ^ 123
    + t.fmt.toNat * 2 ^ 124

/-- The token that 128 bits hold in the layout of format 3. -/
def Token.ofNat (v : Nat) : Token :=
  { value := BitVec.ofNat 32 v
    stamp := BitVec.ofNat 32 (v / 2 ^ 32)
    flow := BitVec.ofNat 12 (v / 2 ^ 64)
    iteration := BitVec.ofNat 16 (v / 2 ^ 76)
    addr := BitVec.ofNat 14 (v / 2 ^ 92)
    port := BitVec.ofNat 2 (v / 2 ^ 106)
    cell := BitVec.ofNat 8 (v / 2 ^ 108)
    cls := BitVec.ofNat 3 (v / 2 ^ 116)
    pair := bitsOf v 119 119 = 1
    replay := bitsOf v 120 120 = 1
    spilled := bitsOf v 121 121 = 1
    late := bitsOf v 122 122 = 1
    ordered := bitsOf v 123 123 = 1
    fmt := BitVec.ofNat 4 (v / 2 ^ 124) }

/-- The tag of a token as a debugger and a report see it: flow in [11:0], iteration above. -/
def tagWord (flow : BitVec 12) (iteration : BitVec 16) : Word :=
  BitVec.ofNat 32 (flow.toNat + iteration.toNat * 65536)

/-! ### The route map (R232) -/

/-- The cloud field and the cell field of a physical cell (R24). -/
def cellRoute (pcell : Nat) : BitVec 5 × BitVec 4 :=
  (BitVec.ofNat 5 (pcell / 16), BitVec.ofNat 4 (pcell % 16))

/-- Root units by their cell field (R24). -/
def unitDispatcher : BitVec 4 := 0
def unitSequencer : BitVec 4 := 1
def unitGlobal : BitVec 4 := 2
def unitDram : BitVec 4 := 3
def unitMram : BitVec 4 := 4
def unitFieldIO : BitVec 4 := 5
def unitZenith : BitVec 4 := 6
def unitFaults : BitVec 4 := 7
def unitBarrier : BitVec 4 := 8
def unitMarch : BitVec 4 := 9

/-- The cloud field of the root units, and of the pair stations. -/
def cloudRoot : BitVec 5 := 31
def cloudStation : BitVec 5 := 30

/-- Where a token for a logical cell goes: the station of a paired cell, else the physical cell that
holds the id; none for an id that no cell holds or that belongs to no partition (R25, R28). -/
def State.tokenRoute (s : State) (lid : Nat) : Option (BitVec 5 × BitVec 4) :=
  match s.pairOf lid with
  | some (station, _) => some (cloudStation, BitVec.ofNat 4 station)
  | none => if (s.partOf lid).isSome then (s.placeOf lid).map cellRoute else none

/-! ### Routes (R226, R233) -/

/-- The port that router k of a cloud takes towards router t: X first, then Y; 0 at t itself. -/
def meshPort (k t : Nat) : Nat :=
  if k % 4 < t % 4 then 1
  else if t % 4 < k % 4 then 2
  else if k / 4 < t / 4 then 3
  else if t / 4 < k / 4 then 4
  else 0

/-- The output port that a router or node takes for a destination (R233). -/
def nextPort (at_ : Place) (dcloud dcell : Nat) : Nat :=
  match at_ with
  | .router c k =>
    if dcloud = c then meshPort k dcell
    else if k = 0 then 5
    else meshPort k 0
  | .bridge _ _ => 0
  | .level1 n => if dcloud < 18 ∧ level1Of dcloud = n then 1 + dcloud % 3 else 0
  | .level2 m => if dcloud < 18 ∧ level2Of (level1Of dcloud) = m then 1 + level1Of dcloud % 3 else 0
  | .root =>
    if dcloud < 18 then 1 + level2Of (level1Of dcloud)
    else if dcloud = 31 then 3
    else if dcloud = 30 then 4
    else 0

/-! ### Packets and the fault sink (R25, R530) -/

/-- The code of a virtual channel (R229). -/
def Vc.code : Vc → Nat
  | .t => 0 | .q => 1 | .p => 2 | .s => 3

/-- Body and tail flits of data bytes after a head (R236). -/
def bodyFlits (body : List Byte) : Nat := (body.length + 15) / 16

/-- The flits of a packet (R178, R185, R236, R274, R315). -/
def Packet.flits (p : Packet) : Nat :=
  match p.cargo with
  | .plain (.start _ _) | .plain (.prefetch _ _) | .plain (.grant _ _) => 2
  | .plain (.preMatched _ _ _ _ _ _) => 2
  | .plain (.request r) => 1 + bodyFlits r.body
  | .plain (.response r) => 1 + bodyFlits r.body
  | .plain (.token _) | .plain (.event _ _ _) => 1
  | .paired _ => 2
  | .replay _ _ => 1

/-- The kind of flit i of a packet: single, head, body or tail (R229). -/
def Packet.kind (p : Packet) (i : Nat) : Nat :=
  if p.flits = 1 then 0 else if i = 0 then 1 else if i + 1 = p.flits then 3 else 2

/-- Bits [15:0] of flit i of a packet, with what errors have left changed in it (R229). -/
def Packet.flit16 (p : Packet) (i : Nat) : Nat :=
  (p.dcloud.toNat + p.dcell.toNat * 32 + p.la % 8 * 512 + p.vc.code * 4096 + p.kind i * 16384)
    ^^^ (tget (fun _ => 0) p.hdrErrs i).toNat

/-- Bits [15:0] of a packet's first flit. -/
def Packet.head16 (p : Packet) : Nat := p.flit16 0

/-- A packet with the la that its sender writes for the place where it stands (R229, R233). -/
def Packet.routed (p : Packet) : Packet :=
  { p with la := nextPort p.place p.dcloud.toNat p.dcell.toNat }

/-- The token that a packet carries. -/
def Packet.token? (p : Packet) : Option Token :=
  match p.cargo with
  | .plain (.token t) => some t
  | .plain (.start _ t) => some t
  | .plain (.prefetch _ t) => some t
  | .plain (.preMatched t _ _ _ _ _) => some t
  | .paired q => match q.msg with
    | some (.token t) => some t
    | _ => none
  | .replay t _ => some t
  | _ => none

/-- The access type of a request (R273, R351): read, write, atomic or lock, by its operation. -/
def opAccess (op : Byte) : BitVec 3 :=
  let n := op.toNat
  if n < 0x20 then accRead
  else if n < 0x30 then accWrite
  else if n < 0x50 then accAtomic
  else if n < 0x58 then accLock
  else if n < 0x60 then accAtomic
  else if n = 0x75 ∨ (0x80 ≤ n ∧ n ≤ 0x83) ∨ n = 0xA0 then accRead
  else accWrite

/-- The access type of a message (R530). The rule names a type for tokens and requests; a response shows the type read,
and an event, a mirror record, a trap notice or a debug stop shows token (DESIGN CHOICE: log entry 148). -/
def Packet.access (p : Packet) : BitVec 3 :=
  match p.cargo with
  | .plain (.request r) => opAccess r.op
  | .plain (.response _) => accRead
  | .paired q => match q.msg with
    | some (.request r) => opAccess r.op
    | _ => accToken
  | _ => accToken

/-- The fault sink takes a packet and reports each of its flits with its bits and the reason (R25, R530). -/
def State.sink (s : State) (p : Packet) (reason : Nat) : State :=
  let lid := match p.token? with
    | some t => t.cell.toNat
    | none => 0
  (upTo p.flits).foldl (fun s i =>
    (s.bump (aJetCnt 5)).raise srcJetSink masterDma p.access
      (BitVec.ofNat 32 (p.dcloud.toNat + p.dcell.toNat * 32 + lid * 65536))
      (BitVec.ofNat 32 (p.flit16 i % 65536 + reason * 65536))) s

/-- A packet of a root unit or a pair station, ready at the root egress (R237). -/
def rootPacket (dest : BitVec 5 × BitVec 4) (vc : Vc) (c : Cargo) : Packet :=
  { dcloud := dest.1, dcell := dest.2, vc, cargo := c, place := .root, inPort := 3, la := 0, errs := []
    hdrErrs := [], sender := 0x3FF, credit := none }

/-- The answer to a request, from a place (R236); it names the requester, whose unit is a cell, a station or a root
unit. -/
def Request.answer (r : Request) (place : Place) (status : Nat) (data : BitVec 64)
    (body : List Byte) : Packet :=
  { dcloud := r.rcloud, dcell := r.rcell, vc := .p
    cargo := .plain (.response
      { addr := r.addr, status := BitVec.ofNat 8 status, rcloud := r.rcloud, rcell := r.rcell, unit := 0
        tag := r.tag, data, body })
    place, inPort := if place = .root then 3 else 0, la := 0, errs := [], hdrErrs := [], sender := 0x3FF
    credit := none }

/-- A packet waits at the root egress. -/
def State.rootSend (s : State) (p : Packet) : State :=
  { s with jet := { s.jet with rootOut := s.jet.rootOut ++ [p] } }

/-- The destination fields with which a token for a logical cell leaves a sender in another cloud (R232): its cloud,
with dcell 0 for its ingress agent to fill, or its station. For an id that no cell holds the route map has no cloud;
the fields then name the undefined destination 31, 15 (DESIGN CHOICE: log entry 47). -/
def State.outwardDest (s : State) (lid : Nat) : BitVec 5 × BitVec 4 :=
  match s.pairOf lid with
  | some (station, _) => (cloudStation, BitVec.ofNat 4 station)
  | none => match s.placeOf lid with
    | some p => (BitVec.ofNat 5 (p / 16), 0)
    | none => (cloudRoot, 15)

/-- The destination fields of a root unit's message for a logical cell: a message with a token is translated at the cloud
(R232), one without it, a grant, names the router itself (DESIGN CHOICE: log entry 47). -/
def State.msgDest (s : State) (lid : Nat) (m : Msg) : BitVec 5 × BitVec 4 :=
  match m with
  | .grant _ _ => (s.tokenRoute lid).getD (s.outwardDest lid)
  | .token _ | .start _ _ | .prefetch _ _ | .preMatched _ _ _ _ _ _ | .event _ _ _ | .request _ | .response _ =>
    s.outwardDest lid

/-- A root unit sends a message for a logical cell; one that no cell holds, or that belongs to no partition, goes to
the fault sink with the la that its source writes (R25, R28, R233). -/
def State.sendToLid (s : State) (lid : Nat) (vc : Vc) (m : Msg) : State :=
  let p := rootPacket (s.msgDest lid m) vc (.plain m)
  if (s.tokenRoute lid).isSome then s.rootSend p else s.sink p.routed 3

end Sys2Proof.Machine
end

