-- ==== Sys2Proof/Machine/FieldIO.lean ====
section
/-! DEFINITION. The timed I/O pins: captures, quadrature, releases, pulses, PWM, readback and samples
(R399 to R414), and the serial ports (R415 to R422). -/

namespace Sys2Proof.Machine

/-! ### Pins -/

/-- A pin's function (R402): the odd pin of a quadrature pair reads 4. -/
def State.pinFunc (s : State) (n : Nat) : Nat :=
  if n % 2 = 1 ∧ s.regF (aTioCfg (n - 1)) 2 0 = 4 then 4 else s.regF (aTioCfg n) 2 0

/-- The level at a pin: what the outside drives, else what the module drives, else the level that a
floating input takes, which nothing defines and which may change at any time: each core cycle has a free value of its
own (R400, R529). -/
def State.pinLevel (s : State) (n : Nat) : Bool :=
  match (s.pin n).ext with
  | some b => b
  | none => match (s.pin n).drv with
    | some b => b
    | none => Config.floatLevel ((s.fresh * 2 ^ 63 + s.zen.count) * 64 + n)

/-- The partition of a pin is FAULTED (R361, R408). -/
def State.pinFaulted (s : State) (n : Nat) : Bool :=
  s.flt.faulted.getLsbD (s.regF (aTioCfg n) 22 20)

/-- The level of TIO_CFG.init (R399); 3 acts as 2. -/
def State.initLevel (s : State) (n : Nat) : Level :=
  match s.regF (aTioCfg n) 17 16 with
  | 0 => some false
  | 1 => some true
  | _ => none

/-- A pin drives a level: a running pulse ends (R411). -/
def State.drivePin (s : State) (n : Nat) (l : Level) : State :=
  s.modPin n (fun p => { p with drv := l, pulse := none })

/-- Every field output is high-impedance, and the queued releases and serial transmissions are
discarded (R370, R478). -/
def State.releaseOutputs (s : State) : State :=
  { s with fio := { s.fio with
      pins := tmap (fun _ => Pin.idle) (fun _ p => p.settled s.zen.cycle { p with
        drv := none, relQ := [], pulse := none, dutyAt := none, pwmOn := false, pwmAt := none }) s.fio.pins
      ports := tmap (fun _ => SerialPort.idle) (fun _ p => { p with
        tx := [], relQ := [], de := false, busy := false, reading := 0, sent := 0, under := false }) s.fio.ports } }

/-! ### Captures (R403 to R406) -/

/-- A captured edge or count step is lost: TIO_STAT.ovr rises, and TIO_OVR is reported once for each
run of lost edges (R404). -/
def State.loseCapture (s : State) (n : Nat) : State :=
  let s := s.addRegF (aTioStat n) 31 24 1
  if (s.pin n).lostRun then s
  else (s.modPin n (fun p => { p with lostRun := true })).raise srcTioOvr masterDma accNone
    (BitVec.ofNat 32 n) 0

/-- The event of a capture FIFO entry (R403, R406). -/
def State.captureEvent (s : State) (n : Nat) (c : Capture) : Event :=
  { flow := BitVec.ofNat 12 (s.regF (aTioFlow n) 11 0)
    flag := BitVec.ofNat 5 (if c.rising then s.regF (aTioCfg n) 9 5 else s.regF (aTioCfg n) 14 10)
    value := c.count.getD (BitVec.ofNat 32 c.time)
    time := c.time
    local_ := c.local_ }

/-- A pin's entries leave its capture FIFO in edge order while the dispatcher's queue has room
(R404). -/
def State.pumpPin (s : State) (n : Nat) : Nat → State
  | 0 => s
  | k + 1 =>
    match (s.pin n).capQ with
    | [] => s
    | c :: rest =>
      if s.eventRoom 1 then
        let s := s.postEvent 1 (s.captureEvent n c)
        (s.modPin n (fun p => { p with capQ := rest })).pumpPin n k
      else s

/-- Every capture FIFO passes on what the dispatcher's queue takes. -/
def State.pumpPins (s : State) : State :=
  (upTo s.variant.pins).foldl (fun s n => s.pumpPin n 16) s

/-- An entry is written to the 16-entry capture FIFO of a pin, or lost (R404). -/
def State.writeCapture (s : State) (n : Nat) (c : Capture) : State :=
  if 16 ≤ (s.pin n).capQ.length then s.loseCapture n
  else (s.modPin n (fun p => { p with
      capQ := p.capQ ++ [c], lostRun := false, edges := p.edges + 1 })).pumpPin n 16

/-- The field I/O is configured and not in SAFE, where captures and receptions are ignored (R371). -/
def State.fieldLive (s : State) : Bool :=
  s.fio.ready && decide (s.mode.mode ≠ .safe)

/-- A level that a pin holds for so many ns passes its glitch filter (R403). -/
def State.passesFilter (s : State) (pin held : Nat) : Bool := decide (s.regF (aTioCfg pin) 31 24 * 4 ≤ held)

/-- CAPTURE_EDGE (R403): the outside moves the level of a pin, which then stays so for a while. A transition that
passes the glitch filter and changes the filtered level is an edge; an enabled edge of a capture pin is stamped at 2 ns
resolution and written to the FIFO. -/
def execCaptureEdge (pin : Nat) (rising : Bool) (edge : EdgeTime) (s : State) : Out :=
  let passed := s.passesFilter pin edge.held
  let s1 := s.modPin pin (fun p => { p with ext := some rising, stable := if passed then rising else p.stable })
  let enabled := if rising then s.regF (aTioCfg pin) 3 3 = 1 else s.regF (aTioCfg pin) 4 4 = 1
  unitOk s (pin < s.variant.pins) <|
    if s.fieldLive ∧ s.pinFunc pin = 1 ∧ enabled ∧ edge.time ≤ s.zen.count ∧ passed ∧ (s.pin pin).stable ≠ rising then
      s1.writeCapture pin { time := edge.time - edge.time % 2, local_ := s.isLocal, rising, count := none }
    else s1

/-- The place of a pair of levels in the cycle of 4× decoding (R406). -/
def quadPhase (a b : Bool) : Nat :=
  match a, b with
  | false, false => 0
  | true, false => 1
  | true, true => 2
  | false, true => 3

/-- The 2 ns capture interval of a quadrature pair that a time lies in, with the levels and the count before it
(R406). -/
def State.quadInterval (s : State) (pin time : Nat) : QuadInterval :=
  let p := s.pin pin
  let fresh : QuadInterval :=
    { at_ := time / 2, a := p.quadA, b := p.quadB, count := s.reg (aTioQcnt pin), bad := false }
  match p.quadIv with
  | some q => if q.at_ = time / 2 then q else fresh
  | none => fresh

/-- QUADRATURE_STEP (R406): a transition of either pin moves the signed count by one; one of both within a capture
interval is an illegal step, which leaves the count as it was before the interval. The manual names no direction as
upward, so a free value does. -/
def execQuadratureStep (pin : Nat) (a b : Bool) (time : Nat) (s : State) : Out :=
  let p := s.pin pin
  let iv := s.quadInterval pin time
  let old := quadPhase p.quadA p.quadB
  let new := quadPhase a b
  let live := s.fieldLive ∧ s.pinFunc pin = 4 ∧ time ≤ s.zen.count
  let illegal := iv.bad || (a != iv.a && b != iv.b)
  let s1 := s.modPin pin (fun p => { p with
    quadA := a, quadB := b, ext := some a, stable := a
    quadIv := if live then some { iv with bad := illegal } else p.quadIv
    capQ := if live ∧ illegal then p.capQ.filter (fun c => c.time / 2 ≠ iv.at_) else p.capQ })
  let s1 := s1.modPin (pin + 1) (fun p => { p with ext := some b, stable := b })
  unitOk s (pin < s.variant.pins ∧ pin % 2 = 0) <|
    if ¬ live ∨ new = old then s1
    else if illegal then
      let s2 := s1.setReg (aTioQcnt pin) iv.count
      if iv.bad then s2 else s2.addRegF (aTioStat pin) 31 24 1
    else
      let up := ((new + 4 - old) % 4 = 1) == Config.quadSense
      let c := if up then s.reg (aTioQcnt pin) + 1 else s.reg (aTioQcnt pin) - 1
      let s2 := s1.setReg (aTioQcnt pin) c
      if c.toInt % ((s.regF (aTioFlow pin) 31 16 : Int) + 1) = 0 then
        s2.writeCapture pin { time := time - time % 2, local_ := s.isLocal, rising := up, count := some c }
      else s2

/-! ### Releases (R407 to R412) -/

/-- The flow's releases are permitted in zenith's present state (R392). -/
def State.releaseAllowed (s : State) (flow : BitVec 12) : Bool :=
  match s.zen.state with
  | .locked | .holdover => true
  | .unlocked | .acquiring => tget (fun _ => false) s.fio.lrel flow.toNat

/-- A release is refused for the lock state: ZEN_REL_REFUSED (R392, R398). -/
def State.refuseRelease (s : State) (flow : BitVec 12) : State :=
  (s.raise srcZenRelRefused masterDma accNone (BitVec.ofNat 32 flow.toNat)
    (satWord (s.zen.offset.getD 0))).bump (aZenCnt 5)

/-- An action is refused and counted in TIO_ACNT.refused (R408, R422). -/
def State.refuseAction (s : State) : State := s.addRegF aTioAcnt 15 0 1

/-- The full release time R of a token (R407): the line time with the low 36 bits that the token
carries which lies within -2^35 to 2^35 - 1 ns of zenith's count. -/
def releaseTime (count : Nat) (stamp value : Word) : Int :=
  let low : Int := (stamp.toNat * 16 + fld value 7 6 * 4 : Nat)
  let d := (low - (count : Int)) % 2 ^ 36
  (count : Int) + (if d < 2 ^ 35 then d else d - 2 ^ 36)

/-- The pin's function accepts an action code (R402). -/
def funcAccepts (func action : Nat) : Bool :=
  (func = 2 && decide (action ≤ 4)) || (func = 3 && (action = 5 || action = 3))

/-- The param of an action lies in its range (R409). -/
def paramOk (action param : Nat) : Bool :=
  match action with
  | 0 | 1 | 2 | 3 | 10 => param = 0
  | 4 => param ≠ 0
  | 5 | 9 => true
  | 8 => param < 256
  | 11 => param % 2 = 0 || param / 256 ≠ 0
  | _ => false

/-- A serial port's mode (SP_CFG.mode) accepts an action code: I2C_START belongs to I²C. -/
def modeAccepts (mode action : Nat) : Bool := mode < 3 && (action ≠ 11 || mode = 2)

/-- A serial port is present, enabled and not fenced. -/
def State.portOn (s : State) (p : Nat) : Bool :=
  decide (p < s.variant.sports) && s.regF (aSpCfg p) 0 0 = 1 && !(s.port p).fenced

/-- The action of a release is defined, its pin or port exists and accepts it, and its param lies in
range (R408, R409). -/
def State.actionOk (s : State) (action pin param : Nat) : Bool :=
  paramOk action param &&
    (if action ≤ 5 then decide (pin < s.variant.pins) && funcAccepts (s.pinFunc pin) action
     else decide (pin < 8) && s.portOn pin && modeAccepts (s.regF (aSpCfg pin) 2 1) action)

/-- The entries that a serial action appends to the transmit FIFO (R409). -/
def txEntries (action : Nat) (param : BitVec 16) : List TxEntry :=
  match action with
  | 8 => [.byte (param.setWidth 8)]
  | 9 => [.byte (param.setWidth 8), .byte ((param >>> 8).setWidth 8)]
  | 10 => [.txend]
  | 11 => [.i2cStart param]
  | _ => []

/-- The time of one bit on a port's line, in core cycles (R415): a divisor below the mode's limit has no stated rate. -/
def State.bitTime (s : State) (p : Nat) : Nat :=
  let div := s.regF (aSpClk p) 15 0
  match s.regF (aSpCfg p) 2 1 with
  | 0 => if 20 ≤ div then div else Config.bitTime 0 div
  | 1 => if 84 ≤ div then div else Config.bitTime 1 div
  | _ => match s.regF (aSpCfg p) 19 18 with
    | 0 => 10000
    | 1 => 2500
    | _ => 1000

/-- The data bits of a byte on a port's line: 7 or 8 for a UART (SP_CFG.bits7), 8 else. -/
def State.dataBits (s : State) (p : Nat) : Nat :=
  if s.regF (aSpCfg p) 2 1 = 1 ∧ s.regF (aSpCfg p) 11 11 = 1 then 7 else 8

/-- The bit times of a byte on a port's line (R415): for a UART start, data, parity and stop bits; for I²C the
acknowledge too. -/
def State.byteBits (s : State) (p : Nat) : Nat :=
  match s.regF (aSpCfg p) 2 1 with
  | 0 => 8
  | 1 => 2 + s.dataBits p + b2n (s.regF (aSpCfg p) 13 12 ≠ 0) + b2n (s.regF (aSpCfg p) 14 14 = 1)
  | _ => 9

/-- The transmission stands still before its next byte (R417, R420): an SPI port whose receive FIFO could not take the
byte that comes back, or an I²C port inside a read. -/
def SerialPort.paused (mode : Nat) (q : SerialPort) : Bool :=
  (mode = 0 && q.busy && decide (64 ≤ q.rx.length + (q.sent - q.len))) || (mode = 2 && decide (q.reading ≠ 0))

/-- What the head of the transmit FIFO does by a time, where it does anything (R416, R417): a byte leaves when it has been
sent, and opens an SPI frame before; a UART ignores a marker; I2C_START opens a frame or starts anew, and takes ten
bit times; TXEND waits for FRAME_END while a frame is open; without an open I²C frame bytes are skipped (log entry
144). -/
def SerialPort.sendNext (mode bit bits now : Nat) (q : SerialPort) : Option SerialPort :=
  let gone := q.txAt + bits * bit
  match mode, q.tx with
  | _, [] => none
  | 1, .byte _ :: es => if gone ≤ now then some { q with tx := es, txAt := gone } else none
  | 1, _ :: es => some { q with tx := es }
  | 0, .byte _ :: es =>
    if ¬ q.busy then some { q with busy := true, sent := 0, txAt := q.txAt + bit }
    else if ¬ q.paused 0 ∧ gone ≤ now then some { q with tx := es, txAt := gone, sent := q.sent + 1 } else none
  | 0, _ :: es => if q.busy then none else some { q with tx := es }
  | _, .i2cStart param :: es =>
    if ¬ q.paused 2 ∧ q.txAt ≤ now then
      some { q with
        tx := es, busy := true, txAt := q.txAt + 10 * bit
        reading := if param.toNat % 2 = 1 then param.toNat / 256 else 0 }
    else none
  | _, .byte _ :: es =>
    if ¬ q.busy then some { q with tx := es }
    else if ¬ q.paused 2 ∧ gone ≤ now then some { q with tx := es, txAt := gone } else none
  | _, .txend :: es => if q.busy then none else some { q with tx := es }

/-- The transmit FIFO as it stands at a time; a transmission that stands still goes on from there (R416). -/
def SerialPort.drain (mode bit bits now : Nat) : Nat → SerialPort → SerialPort
  | 0, q => q
  | k + 1, q =>
    match q.sendNext mode bit bits now with
    | some q' => q'.drain mode bit bits now k
    | none => if q.paused mode then { q with txAt := max q.txAt now } else q

/-- A port with its transmit FIFO as it stands now (R416). -/
def State.portNow (s : State) (p : Nat) : SerialPort :=
  let q := s.port p
  q.drain (s.regF (aSpCfg p) 2 1) (s.bitTime p) (s.byteBits p) s.zen.cycle (2 * q.tx.length + 1)

/-- The state with a port's transmit FIFO as it stands now. -/
def State.drainPort (s : State) (p : Nat) : State := s.modPort p (fun _ => s.portNow p)

/-- A serial action takes effect: its entries enter the 256-byte transmit FIFO, or it is discarded
and reported as TIO_QFULL (R416). DE of a UART rises one bit time before the start bit. -/
def State.serialAction (s : State) (p : Nat) (r : Release) : State :=
  if ¬ s.portOn p then s.refuseAction
  else
    let es := txEntries r.action.toNat r.param
    let q := s.portNow p
    let data := decide (s.regF (aSpCfg p) 2 1 = 1 ∧ r.action.toNat < 10)
    if 256 < q.tx.length + es.length then
      s.raise srcTioQfull (BitVec.ofNat 10 r.sender) accToken (BitVec.ofNat 32 (64 + p))
        (BitVec.ofInt 32 r.time)
    else s.modPort p (fun _ => { q with
      tx := q.tx ++ es
      txAt := if q.tx = [] then max q.txAt s.zen.cycle + (if data && !q.de then s.bitTime p else 0) else q.txAt
      under := false
      de := q.de || data })

/-- The effect of a pin action at its release (R409, R411, R412). -/
def State.pinAction (s : State) (n : Nat) (action param time : Nat) : State :=
  let p := s.pin n
  match action with
  | 0 => s.drivePin n (some false)
  | 1 => s.drivePin n (some true)
  | 2 => s.drivePin n (some (!(p.drv.getD false)))
  | 3 => s.modPin n (fun p => { p with drv := none, pulse := none, pwmOn := false, dutyAt := none })
  | 4 =>
    let before := match p.pulse with
      | some q => q.before
      | none => p.drv
    s.modPin n (fun p => { p with
      drv := some (!(before.getD false)), pulse := some { before, ends := time + param * 4 } })
  | 5 => s.modPin n (fun p => { p with dutyAt := some (param, time) })
  | _ => s

/-- A late release is reported and counted; then TIO_CFG.lpol discards it or executes it at once, which the lock state
must permit as at its release time (R392, R410). -/
def State.lateRelease (s : State) (r : Release) : State :=
  let n := r.pin.toNat
  let s := s.raise srcTioLate (BitVec.ofNat 10 r.sender) accToken (BitVec.ofNat 32 n)
    (BitVec.ofInt 32 r.time)
  let s := s.addRegF aTioAcnt 31 16 1
  if s.regF (aTioCfg n) 15 15 = 1 then
    if s.releaseAllowed r.flow then s.pinAction n r.action.toNat r.param.toNat s.zen.count
    else s.refuseRelease r.flow
  else s

/-- A release put in order of its time; releases of equal time keep their arrival order (R408). -/
def insertRelease : List Release → Release → List Release
  | [], r => [r]
  | x :: xs, r => if x.time ≤ r.time then x :: insertRelease xs r else r :: x :: xs

/-- A forward step of zenith passes over every queued release whose time is earlier than the new
count: it is late (R393). -/
def State.passReleases (s : State) (new : Nat) : State :=
  (upTo s.variant.pins).foldl (fun s n =>
    let late := (s.pin n).relQ.filter (fun r => decide (r.time < (new : Int)))
    let s := s.modPin n (fun p => { p with relQ := p.relQ.filter (fun r => decide ((new : Int) ≤ r.time)) })
    late.foldl (fun s r => s.lateRelease r) s) s

/-- RELEASE_TOKEN (R408): the token at the head of the field I/O's queue is checked, and queued,
refused or made late. In SAFE, and while the field I/O is not configured, it is discarded (R370). -/
def execReleaseToken (s : State) : Out :=
  match s.fio.inQ with
  | [] => .next s
  | (t, sender) :: rest =>
    let s := { s with fio := { s.fio with inQ := rest } }
    let R := releaseTime s.zen.count t.stamp t.value
    let action := fld t.value 11 8
    let pin := fld t.value 5 0
    let param := fld t.value 31 16
    let r : Release :=
      { time := R, action := BitVec.ofNat 4 action, pin := BitVec.ofNat 6 pin
        param := BitVec.ofNat 16 param, flow := t.flow, sender, part := s.partOfCell sender }
    .next <|
      if ¬ s.fieldLive then s
      else if ¬ s.releaseAllowed t.flow then s.refuseRelease t.flow
      else if ¬ s.actionOk action pin param then s.refuseAction
      else if action ≤ 5 then
        if s.pinFaulted pin then s.refuseAction
        else if R < (s.zen.count : Int) + 40 then s.lateRelease r
        else if 16 ≤ (s.pin pin).relQ.length then
          s.raise srcTioQfull (BitVec.ofNat 10 sender) accToken (BitVec.ofNat 32 pin)
            (BitVec.ofInt 32 r.time)
        else s.modPin pin (fun p => { p with relQ := insertRelease p.relQ r })
      else if R ≤ (s.zen.count : Int) then s.serialAction pin r
      else s.modPort pin (fun q => { q with relQ := insertRelease q.relQ r })

/-- The release at the head of a pin's queue is due and has the action code: it leaves the queue and
takes effect, or is refused for the lock state at its release time (R392, R409). -/
def State.releasePin (s : State) (pin action : Nat) : State :=
  match (s.pin pin).relQ with
  | r :: rest =>
    if s.fieldLive ∧ r.time ≤ s.zen.count ∧ r.action.toNat = action then
      let s := s.modPin pin (fun p => { p with relQ := rest })
      if s.releaseAllowed r.flow then s.pinAction pin action r.param.toNat r.time.toNat
      else s.refuseRelease r.flow
    else s
  | [] => s

/-- LOW (R409). -/
def execLow (pin : Nat) (s : State) : Out := unitOk s (pin < s.variant.pins) (s.releasePin pin 0)

/-- HIGH (R409). -/
def execHigh (pin : Nat) (s : State) : Out := unitOk s (pin < s.variant.pins) (s.releasePin pin 1)

/-- TOGGLE (R409). -/
def execToggle (pin : Nat) (s : State) : Out := unitOk s (pin < s.variant.pins) (s.releasePin pin 2)

/-- HIZ (R409, R412). -/
def execHiz (pin : Nat) (s : State) : Out := unitOk s (pin < s.variant.pins) (s.releasePin pin 3)

/-- PULSE (R409, R411). -/
def execPulse (pin : Nat) (s : State) : Out := unitOk s (pin < s.variant.pins) (s.releasePin pin 4)

/-- DUTY (R409, R412). -/
def execDuty (pin : Nat) (s : State) : Out := unitOk s (pin < s.variant.pins) (s.releasePin pin 5)

/-- PULSE_END (R409): the length of a running pulse, or the high time of a PWM period, expires. -/
def execPulseEnd (pin : Nat) (s : State) : Out :=
  unitOk s (pin < s.variant.pins) <|
    match (s.pin pin).pulse with
    | some q => if q.ends ≤ s.zen.count then s.drivePin pin q.before else s
    | none => s

/-- The start of the PWM period that runs at zenith's count: the latest multiple of the period's length (R412). With a
period of 0 every count is one. -/
def State.pwmStart (s : State) (pin : Nat) : Nat :=
  let len := s.regF (aTioPwm pin) 31 0 * 4
  if len = 0 then s.zen.count else s.zen.count / len * len

/-- PWM_PERIOD_START (R412): at the first count of a period, a waiting DUTY whose time has come takes effect, and the pin
is high for its duty and low for the rest. -/
def execPwmPeriodStart (pin : Nat) (s : State) : Out :=
  let len := s.regF (aTioPwm pin) 31 0 * 4
  let start := s.pwmStart pin
  unitOk s (pin < s.variant.pins) <|
    if s.fieldLive ∧ s.running ∧ s.pinFunc pin = 3 ∧ ¬ s.pinFaulted pin ∧ (s.pin pin).pwmAt ≠ some start then
        let p := s.pin pin
        let take := match p.dutyAt with
          | some (_, R) => decide (R ≤ start)
          | none => false
        let duty := if take then (p.dutyAt.map Prod.fst).getD 0 else p.duty
        let on := p.pwmOn || take
        let s := s.modPin pin (fun p => { p with
          duty := duty, dutyAt := if take then none else p.dutyAt, pwmOn := on, pwmAt := some start })
        if ¬ on then s
        else if len = 0 ∨ duty = 0 then s.drivePin pin (some false)
        else if duty = 0xFFFF then s.drivePin pin (some true)
        else s.modPin pin (fun p => { p with
          drv := some true
          pulse := some { before := some false, ends := start + len * duty / 65536 } })
    else s

/-- READBACK_MISMATCH (R413): the outside holds a driven output at the other level for 1 µs. The check is suspended for
2 µs after each change of the driven level, so the difference has not been held before 3 µs have passed (log entry
145); a PULSE shorter than 2 µs lies wholly inside such a span. -/
def execReadbackMismatch (pin : Nat) (s : State) : Out :=
  unitOk s (pin < s.variant.pins) <|
    match (s.pin pin).drv with
    | some b =>
      if (s.pin pin).drvAt + 3000 ≤ s.zen.cycle then
        let s := if s.levelOn srcTioReadback then s else s.endLevel srcTioReadback
        (s.modPin pin (fun p => { p with rb := true, ext := some (!b) })).assertLevel srcTioReadback
          masterDma accNone (BitVec.ofNat 32 pin) 0
      else s
    | none => s

/-- A pin's levels agree again (R413): the outside lets go of it, and the source ends with the last such pin. -/
def State.readbackAgrees (s : State) (pin : Nat) : State :=
  if (s.pin pin).rb then
    let s := s.modPin pin (fun p => { p with ext := none })
    if s.levelOn srcTioReadback then s else s.endLevel srcTioReadback
  else s

/-- A pin whose TIO_CFG.func, or whose function, is no longer the one of the state before (R402,
R411): its queued releases and its pulse are discarded, an output takes its level from the new function, where outputs
are driven at all (R369, R399), and the filter and the decoder start from the levels at the pins. -/
def State.refitPin (before s : State) (m : Nat) : State :=
  if s.regF (aTioCfg m) 2 0 = before.regF (aTioCfg m) 2 0 ∧ s.pinFunc m = before.pinFunc m then s
  else s.modPin m (fun p => { p with
    relQ := [], pulse := none, dutyAt := none, duty := 0, pwmOn := decide (s.pinFunc m = 3), pwmAt := none
    drv := if s.fieldLive ∧ (s.pinFunc m = 2 ∨ s.pinFunc m = 3) then s.initLevel m else none
    stable := s.pinLevel m, quadIv := none
    quadA := if s.pinFunc m = 4 ∧ m % 2 = 0 then s.pinLevel m else p.quadA
    quadB := if s.pinFunc m = 4 ∧ m % 2 = 0 then s.pinLevel (m + 1) else p.quadB })

/-- A write of TIO_CFG (R411): in RUN, DEGRADED and HALT it changes only filt, flvl and init; a change of func
fits the pin to its new function, and its neighbour where a quadrature pair begins or ends (R402). -/
def State.writeTioCfg (s : State) (n : Nat) (v : Word) : State :=
  let old := s.reg (aTioCfg n)
  let new := if s.running
    then putFld (putFld (putFld old 31 24 (fld v 31 24)) 19 18 (fld v 19 18)) 17 16 (fld v 17 16)
    else v &&& 0xFF7FFFFF#32
  State.refitPin s (State.refitPin s (s.setReg (aTioCfg n) new) (n - n % 2)) (n - n % 2 + 1)

/-- The sample word of a source (R414): pins 0 to 63, and ports as 64 to 71. -/
def State.sampleWord (s : State) (src : Nat) : Word :=
  if src < 64 then
    let p := s.pin src
    match s.pinFunc src with
    | 0 | 1 => BitVec.ofNat 32
        (b2n (s.pinLevel src) + p.capQ.length * 256 + p.edges.toNat * 65536)
    | 4 => s.reg (aTioQcnt (src - src % 2))
    | _ => BitVec.ofNat 32
        (b2n (p.drv.getD false) + b2n (s.pinLevel src) * 2 + b2n p.drv.isNone * 4)
  else if s.portOn (src - 64) then (s.port (src - 64)).latest else 0

/-- The field I/O latches a source's sample word; a port's frame counts once (R414). -/
def State.latchSample (s : State) (src : Nat) : State :=
  let w := s.sampleWord src
  let s := { s with fio := { s.fio with samples := tset (fun _ => 0) s.fio.samples src w } }
  if src < 64 then s else s.modPort (src - 64) (fun p => { p with latest := 0 })

/-! ### Serial ports (R415 to R422) -/

/-- The serial action at the head of a port's queue is due and has the action code (R409). -/
def State.releasePort (s : State) (port action : Nat) : State :=
  match (s.port port).relQ with
  | r :: rest =>
    if s.fieldLive ∧ r.time ≤ s.zen.count ∧ r.action.toNat = action then
      let s := s.modPort port (fun p => { p with relQ := rest })
      if s.releaseAllowed r.flow then s.serialAction port r else s.refuseRelease r.flow
    else s
  | [] => s

/-- TXB (R409). -/
def execTxb (port : Nat) (s : State) : Out := unitOk s (port < s.variant.sports) (s.releasePort port 8)

/-- TXH (R409). -/
def execTxh (port : Nat) (s : State) : Out := unitOk s (port < s.variant.sports) (s.releasePort port 9)

/-- TXEND (R409, R416). -/
def execTxend (port : Nat) (s : State) : Out :=
  unitOk s (port < s.variant.sports) (s.releasePort port 10)

/-- I2C_START (R409, R417). -/
def execI2cStart (port : Nat) (s : State) : Out :=
  unitOk s (port < s.variant.sports) (s.releasePort port 11)

/-- The size of a port's receive ring (SP_RXBUF.size). -/
def State.ringSize (s : State) (p : Nat) : Nat := 256 * 2 ^ s.regF (aSpRxbuf p) 19 16

/-- The global-memory offset of a port's receive ring (SP_RXBUF.base). -/
def State.ringBase (s : State) (p : Nat) : Nat := s.regF (aSpRxbuf p) 15 0 * 64

/-- The bytes written and not consumed, by the consume word behind the ring (R418). -/
def State.ringUsed (s : State) (p : Nat) : Nat :=
  ((s.port p).written - mword s.mem.glob (s.ringBase p + s.ringSize p)).toNat

/-- A port stops moving bytes into its ring: the dispatcher holds its events, or the ring has no room
(R420). A port that delivers by latch is not held by the dispatcher (R419). -/
def State.portHeld (s : State) (p : Nat) : Bool :=
  (s.regF (aSpCfg p) 20 20 = 0 && (!(s.port p).frames.isEmpty || (tfind s.dsp.holding 2).isSome)) ||
    decide (s.ringSize p ≤ s.ringUsed p)

/-- Received bytes move from a port's FIFO into its ring (R418, R420). -/
def State.moveBytes (s : State) (p : Nat) : Nat → State
  | 0 => s
  | k + 1 =>
    match (s.port p).rx with
    | [] => s
    | b :: rest =>
      if s.portHeld p then s
      else
        let a := s.ringBase p + (s.port p).written.toNat % s.ringSize p
        let s := { s with mem := { s.mem with glob := mset s.mem.glob a b } }
        (s.modPort p (fun q => { q with rx := rest, written := q.written + 1 })).moveBytes p k

/-- A port's frame values leave as events while the dispatcher's queue has room (R419, R420). -/
def State.pumpPort (s : State) (p : Nat) : Nat → State
  | 0 => s
  | k + 1 =>
    match (s.port p).frames with
    | [] => s
    | v :: rest =>
      if s.eventRoom 2 then
        let s := s.postEvent 2
          { flow := BitVec.ofNat 12 (s.regF (aSpFlow p) 11 0)
            flag := BitVec.ofNat 5 (s.regF (aSpFlow p) 16 12)
            value := v, time := s.zen.count, local_ := s.isLocal }
        (s.modPort p (fun q => { q with frames := rest })).pumpPort p k
      else s

/-- Every port passes on its frame values and its bytes. -/
def State.pumpPorts (s : State) : State :=
  (upTo s.variant.sports).foldl (fun s p => (s.pumpPort p 64).moveBytes p 64) s

/-- The event value of a port's open frame (R418); an I²C write has length 0. -/
def State.frameValue (s : State) (p : Nat) : Word :=
  let q := s.port p
  let write := s.regF (aSpCfg p) 2 1 = 2 ∧ q.reading = 0
  BitVec.ofNat 32 (q.first.toNat + (if write then 0 else sat 2047 q.len) * 65536
    + b2n q.err * 2 ^ 27 + b2n q.brk * 2 ^ 28 + b2n q.nack * 2 ^ 29)

/-- The transmit FIFO from the next TXEND or I2C_START on (R417). -/
def skipToMarker : List TxEntry → List TxEntry
  | [] => []
  | .byte _ :: es => skipToMarker es
  | es => es

/-- A frame ends: its value is kept for the sample, SP_FRAME is reported for an error, and the value
is delivered by event or by latch (R418 to R420). An I²C write is delivered only when its status is
not 0. -/
def State.endFrame (s : State) (p : Nat) : State :=
  let v := s.frameValue p
  let q := s.port p
  let write := s.regF (aSpCfg p) 2 1 = 2 ∧ q.reading = 0
  let s := if q.err then s.raise srcSpFrame masterDma accNone (BitVec.ofNat 32 (64 + p)) v else s
  let s := s.modPort p (fun q => { q with
    busy := false, len := 0, err := false, brk := false, nack := false, reading := 0 })
  let s := s.modPort p (fun q => { q with latest := v, sent := 0, under := false })
  if write ∧ fld v 31 27 = 0 then s
  else
    if s.regF (aSpCfg p) 20 20 = 1 then
      let cell := s.regF (aSpTokCell p) 7 0
      s.sendToLid cell .t (.token
        { value := v, stamp := s.now, flow := BitVec.ofNat 12 (s.regF (aSpTok p) 11 0)
          iteration := 0, addr := BitVec.ofNat 14 (s.regF (aSpTok p) 25 12), port := 3
          cell := BitVec.ofNat 8 cell, cls := 2, pair := false, replay := false, spilled := false
          late := false, ordered := true, fmt := 3 })
    else (s.modPort p (fun q => { q with frames := q.frames ++ [v] })).pumpPort p 64

/-- A received byte is one that the port's mode expects now (R417, R418, R421): SPI receives one byte for each byte sent,
an I²C read its number of bytes, and a UART port ignores RXD while DE is high. -/
def SerialPort.expects (mode : Nat) (q : SerialPort) : Bool :=
  match mode with
  | 0 => q.busy && decide (q.len < q.sent)
  | 1 => !q.de
  | _ => q.busy && decide (q.len < q.reading)

/-- A port with a received byte in its FIFO (R418): a UART of 7 data bits keeps as many. -/
def SerialPort.take (q : SerialPort) (seven : Bool) (off now : Nat) (b : Byte) (err brk : Bool) : SerialPort :=
  { q with
    rx := q.rx ++ [if seven then b &&& 0x7F#8 else b], busy := true, len := q.len + 1, rxAt := now
    first := if q.len = 0 then BitVec.ofNat 16 off else q.first
    err := q.err || err, brk := q.brk || brk, lostRun := false }

/-- UART_RX_BYTE (R418, R420): a received byte of any mode enters the 64-byte FIFO; a UART port loses
it when the FIFO is full, and an SPI or I²C port makes no transfer then. A UART frame ends at 2,047 bytes. -/
def execUartRxByte (port : Nat) (b : Byte) (err brk : Bool) (s : State) : Out :=
  let mode := s.regF (aSpCfg port) 2 1
  let q := s.portNow port
  unitOk s (port < s.variant.sports) <|
    if ¬ (s.fieldLive ∧ s.portOn port ∧ q.expects mode) then s
    else if 64 ≤ q.rx.length then
      if mode = 1 then
        let s := s.addRegF (aSpStat port) 31 16 1
        if q.lostRun then s
        else (s.modPort port (fun p => { p with lostRun := true })).raise srcSpOvr masterDma accNone
          (BitVec.ofNat 32 (64 + port)) 0
      else s
    else
      let off := (q.written.toNat + q.rx.length) % s.ringSize port
      let s := (s.modPort port (fun _ =>
        q.take (s.dataBits port = 7) off s.zen.cycle b err brk)).moveBytes port 64
      if mode = 1 ∧ (s.port port).len = 2047 then s.endFrame port else s

/-- FRAME_END (R416, R418): an SPI frame ends one SCK period after its last clock, when TXEND is reached and every byte
sent has brought one back, an I²C write at its TXEND, an I²C read at its last byte, and a UART frame after SP_CFG.gap
bit times of idle, where 0 acts as 2. -/
def execFrameEnd (port : Nat) (e : FrameEnd) (s : State) : Out :=
  let mode := s.regF (aSpCfg port) 2 1
  let q := s.portNow port
  let gap := if s.regF (aSpCfg port) 31 26 = 0 then 2 else s.regF (aSpCfg port) 31 26
  unitOk s (port < s.variant.sports) <|
    if ¬ (s.fieldLive ∧ s.portOn port ∧ q.busy) then s
    else match e with
      | .txend => match q.tx with
        | .txend :: es =>
          if mode = 0 ∧ q.len = q.sent ∧ q.txAt + s.bitTime port ≤ s.zen.cycle ∨ mode = 2 ∧ q.reading = 0 then
            (s.modPort port (fun _ => { q with tx := es, txAt := max q.txAt s.zen.cycle })).endFrame port
          else s
        | _ => s
      | .readDone =>
        if mode = 2 ∧ q.reading ≠ 0 ∧ q.len = q.reading then
          (s.modPort port (fun _ => { q with txAt := max q.txAt s.zen.cycle })).endFrame port
        else s
      | .idle =>
        if mode = 1 ∧ q.len ≠ 0 ∧ q.rxAt + gap * s.bitTime port ≤ s.zen.cycle then s.endFrame port else s

/-- TX_UNDERRUN (R416): the FIFO has stayed empty inside an SPI or I²C frame for 8 bit times; it is reported once for
each such time. -/
def execTxUnderrun (port : Nat) (s : State) : Out :=
  let q := s.portNow port
  unitOk s (port < s.variant.sports) <|
    if s.fieldLive ∧ s.portOn port ∧ q.busy ∧ s.regF (aSpCfg port) 2 1 ≠ 1 ∧ q.tx = [] ∧ q.reading = 0
        ∧ q.under = false ∧ q.txAt + 8 * s.bitTime port ≤ s.zen.cycle then
      (s.modPort port (fun _ => { q with under := true })).raise srcSpUnder masterDma accNone
        (BitVec.ofNat 32 (64 + port)) 0
    else s

/-- DE_OFF (R416): the last stop bit is deoff bit times ago and the FIFO has stayed empty. -/
def execDeOff (port : Nat) (s : State) : Out :=
  let q := s.portNow port
  unitOk s (port < s.variant.sports) <|
    if s.portOn port ∧ s.regF (aSpCfg port) 2 1 = 1 ∧ q.de ∧ q.tx = []
        ∧ q.txAt + s.regF (aSpCfg port) 25 22 * s.bitTime port ≤ s.zen.cycle then
      s.modPort port (fun _ => { q with de := false })
    else s

/-- I2C_NACK (R417): a missing acknowledge or lost arbitration ends the frame with a stop and skips
the FIFO up to the next marker. -/
def execI2cNack (port : Nat) (s : State) : Out :=
  let q := s.portNow port
  unitOk s (port < s.variant.sports) <|
    if s.fieldLive ∧ s.portOn port ∧ q.busy ∧ s.regF (aSpCfg port) 2 1 = 2 then
      let s := s.modPort port (fun _ => { q with
        nack := true, tx := skipToMarker q.tx, txAt := max q.txAt s.zen.cycle })
      let s := s.raise srcSpNack masterDma accNone (BitVec.ofNat 32 (64 + port)) (s.frameValue port)
      s.endFrame port
    else s

/-- CLOCK_STRETCH_TIMEOUT (R417): a target has held SCL low for 25 ms. -/
def execClockStretchTimeout (port : Nat) (s : State) : Out :=
  unitOk s (port < s.variant.sports) <|
    if s.fieldLive ∧ s.portOn port ∧ s.regF (aSpCfg port) 2 1 = 2 then
      s.assertLevel srcSpBus masterDma accNone (BitVec.ofNat 32 (64 + port)) 0
    else s

/-- ECHO_MISMATCH (R421): RXD differs from TXD at mid-bit; SP_BUS is reported, the transmission ends
and DE goes low. -/
def execEchoMismatch (port : Nat) (s : State) : Out :=
  unitOk s (port < s.variant.sports) <|
    if s.fieldLive ∧ s.portOn port ∧ s.regF (aSpCfg port) 2 1 = 1 ∧ s.regF (aSpCfg port) 21 21 = 1
        ∧ (s.port port).de then
      (s.modPort port (fun p => { p with tx := [], de := false })).assertLevel srcSpBus masterDma
        accNone (BitVec.ofNat 32 (64 + port)) 0
    else s

/-- A port's FIFOs are discarded, and the serial actions that wait for it are counted: it is fenced or disabled
(R422). -/
def State.dropPort (s : State) (p : Nat) : State :=
  (s.addRegF aTioAcnt 15 0 (s.port p).relQ.length).modPort p (fun q => { q with
    tx := [], relQ := [], rx := [], busy := false, len := 0, err := false, brk := false
    nack := false, de := false, reading := 0, frames := [], sent := 0, under := false })

/-! ### The pins of a serial port (R399, R415) -/

/-- The bit of a byte that stands on a port's line, where one is being sent: the byte, the bit's number in order of
sending, and whether the second half of it has begun. -/
def State.lineBit (s : State) (p : Nat) : Option (Byte × Nat × Bool) :=
  let q := s.portNow p
  match q.tx with
  | .byte b :: _ =>
    if q.txAt ≤ s.zen.cycle ∧ ¬ q.paused (s.regF (aSpCfg p) 2 1) then
      let half := (s.zen.cycle - q.txAt) * 2 / s.bitTime p
      some (b, half / 2, half % 2 = 1)
    else none
  | _ => none

/-- A byte's parity bit (SP_CFG.parity): even, or odd. -/
def parityBit (b : Byte) (odd : Bool) : Bool :=
  ((upTo 8).filter (fun i => b.getLsbD i)).length % 2 = (if odd then 0 else 1)

/-- The level of TXD (R415): high when idle; a start bit, the data bits from the least significant one, the parity bit and
the stop bits. The order of the bits is PRESUMED (log entry 143). -/
def State.txd (s : State) (p : Nat) : Bool :=
  match s.lineBit p with
  | none => true
  | some (b, k, _) =>
    let n := s.dataBits p
    let byte := if n = 7 then b &&& 0x7F#8 else b
    if k = 0 then false
    else if k ≤ n then byte.getLsbD (k - 1)
    else if k = n + 1 ∧ s.regF (aSpCfg p) 13 12 ≠ 0 then parityBit byte (s.regF (aSpCfg p) 13 12 = 2)
    else true

/-- The level of SCK (R415): CPOL when idle, and in the half of each bit that CPHA names; the other level in the other
half. The meaning of CPHA is PRESUMED (log entry 143). -/
def State.sck (s : State) (p : Nat) : Bool :=
  let cpol := s.regF (aSpCfg p) 15 15 = 1
  match s.lineBit p with
  | none => cpol
  | some (_, _, second) => cpol ^^ (second ^^ decide (s.regF (aSpCfg p) 16 16 = 1))

/-- The level of MOSI (R415): the bits of the byte that is being sent, from the most or the least significant one. Between
bytes the manual names no level. -/
def State.mosi (s : State) (p : Nat) : Bool :=
  match s.lineBit p with
  | none => Config.serialLevel ((s.fresh * 2 ^ 63 + s.zen.cycle) * 8 + p)
  | some (b, k, _) => b.getLsbD (if s.regF (aSpCfg p) 17 17 = 1 then k else 7 - k)

/-- An open-drain line of an open I²C frame, which is low or released (R415). -/
def State.openDrain (s : State) (line : Nat) : Level :=
  if Config.serialLevel ((s.fresh * 2 ^ 63 + s.zen.cycle) * 32 + 8 + line) then some false else none

/-- What a port drives on its pins SPp_A to SPp_D (R399, R415, R416): nothing while it is disabled, fenced, in SAFE or
before the field I/O is configured; else by its mode. SCL is low while the FIFO is empty inside a frame. -/
def State.portPins (s : State) (p : Nat) : List Level :=
  let q := s.portNow p
  if ¬ (s.fieldLive ∧ s.portOn p) then [none, none, none, none]
  else match s.regF (aSpCfg p) 2 1 with
    | 0 => [some (s.sck p), some (s.mosi p), none, some (!q.busy)]
    | 1 => [some (s.txd p), some q.de, none, none]
    | _ =>
      if ¬ q.busy then [none, none, none, none]
      else if q.tx = [] ∧ q.reading = 0 ∧ q.txAt ≤ s.zen.cycle then [some false, none, s.openDrain (2 * p), none]
      else [s.openDrain (2 * p + 1), none, s.openDrain (2 * p), none]

/-- The field I/O is configured (R483 step 6): each output stands at its init level, PWM pins run
with duty 0, the filters and the quadrature decoders start from the levels at their pins, and the ports are idle. -/
def State.configureField (s : State) : State :=
  let s := (upTo s.variant.pins).foldl (fun s n =>
    let f := s.pinFunc n
    let a := s.pinLevel n
    let b := s.pinLevel (n + 1)
    s.modPin n (fun p => { p with
      drv := if f = 2 ∨ f = 3 then s.initLevel n else none
      relQ := [], pulse := none, duty := 0, dutyAt := none, pwmOn := f = 3, pwmAt := none, edges := 0, capQ := []
      lostRun := false, stable := a, quadIv := none
      quadA := if f = 4 ∧ n % 2 = 0 then a else p.quadA
      quadB := if f = 4 ∧ n % 2 = 0 then b else p.quadB })) s
  { s with fio := { s.fio with
      ready := true
      ports := tmap (fun _ => SerialPort.idle) (fun _ q => { SerialPort.idle with fenced := q.fenced }) s.fio.ports } }

end Sys2Proof.Machine
end

