-- ==== Sys2Proof/Machine/Zenith.lean ====
section
/-! DEFINITION. Zenith line time: the count and its steps, the servo and the four states, the timers,
and the timing messages of the horizon die (R378 to R398). -/

namespace Sys2Proof.Machine

/-! ### Reports and states -/

/-- A report of zenith (R398): the state before and after, and the offset or step. -/
def State.zenReport (s : State) (source : Nat) (before after : ZenState) (syn : Int) : State :=
  s.raise source masterDma accNone (BitVec.ofNat 32 (before.code + after.code * 4)) (satWord syn)

/-- The rates that were in force after a time, with how long each was, summed: newest first. -/
def rateSum (lo : Nat) : List (Nat × Int) → Nat → Int × Nat
  | [], _ => (0, 0)
  | (t, r) :: rest, upto =>
    let start := if t ≤ lo then lo else t
    let span := upto - start
    let (sum, total) := if t ≤ lo then (0, 0) else rateSum lo rest t
    (sum + r * span, total + span)

/-- The mean rate over the last 16 s of LOCKED (R387). -/
def State.meanRate (s : State) : Int :=
  let (sum, total) := rateSum (s.zen.count - 16000000000) s.zen.rates s.zen.count
  if total = 0 then s.rate else sum / total

/-- A transition of zenith's state (R387): an exit from LOCKED reports ZEN_UNLOCK, one from HOLDOVER
to UNLOCKED reports ZEN_HOLDOVER, and HOLDOVER freezes the rate at its mean. -/
def State.zenTo (s : State) (new : ZenState) : State :=
  let old := s.zen.state
  if new = old then s
  else
    let off := s.zen.offset.getD 0
    let s := { s with zen := { s.zen with state := new, run := 0 } }
    let s := if old = .locked
      then (s.zenReport srcZenUnlock old new off).bump (aZenCnt 3) else s
    let s := if old = .holdover ∧ new = .unlocked
      then s.zenReport srcZenHoldover old new off else s
    let s := match new with
      | .locked => { s with zen := { s.zen with
          lockedAt := some s.zen.count, rates := [(s.zen.count, s.rate)] } }
      | .holdover =>
        let s := (s.setRate s.meanRate).bump (aZenCnt 4)
        { s with zen := { s.zen with holdSince := s.zen.count } }
      | _ => s
    s.statusChanged

/-! ### The count and its steps (R378, R386, R393, R395, R199) -/

/-- Frame length of a Scheduled partition in ns: slots times slot length (R195, R200). -/
def State.frameLen (s : State) (p : Nat) : Nat :=
  let slot := match s.regF (aSeqPcfg p) 9 8 with
    | 0 => 100
    | 1 => 200
    | _ => 500
  (s.regF (aSeqPcfg p) 31 16 + 1) * slot

/-- The number of the first frame that begins at a line time or after it (R195). -/
def State.firstFrame (s : State) (p : Nat) (count : Int) : Int :=
  let phase := s.regF (aSeqPhase p) 31 0
  let len := s.frameLen p
  Int.neg (((phase : Int) - count) / (len : Int))

/-- A forward step of more than one frame ends the current frame of each Scheduled partition, so that
the next boundary is the first of the new count; SCHED_REALIGN is reported (R199, R225). -/
def State.realign (s : State) (old new : Nat) : State :=
  (upTo 8).foldl (fun s p =>
    if (s.partition p).used ∧ (s.partition p).sched ∧ s.frameLen p < new - old then
      let k := s.firstFrame p new
      let s := s.modPart p (fun q => { q with
        frame := k - 1, slot := s.regF (aSeqPcfg p) 31 16 + 1 })
      let s := s.mapCells (fun i c =>
        if s.partOfCell i = some p ∧ ¬ ((s.lidOf i).map s.isChecker = some true) then
          { c with engine := { c.engine with pos := 1024 } }
        else c)
      s.raise srcSchedRealign masterSequencer accToken (BitVec.ofNat 32 p) (BitVec.ofInt 32 k)
    else s) s

/-- The line time of tick k of a timer (R394). -/
def State.tickTime (s : State) (n k : Nat) : Nat :=
  (s.regF (aZenTmrPh n) 31 0 + k * s.regF (aZenTmrPer n) 31 0) * 1000

/-- A timer is enabled; a period of 0 disables it (R394). -/
def State.timerOn (s : State) (n : Nat) : Bool :=
  s.regF (aZenTmrCfg n) 31 31 = 1 && decide (s.regF (aZenTmrPer n) 31 0 ≠ 0)

/-- The first tick number whose line time is not earlier than a count (R394, R395). -/
def State.firstTick (s : State) (n count : Nat) : Nat :=
  let ph := s.regF (aZenTmrPh n) 31 0 * 1000
  let per := s.regF (aZenTmrPer n) 31 0 * 1000
  if count ≤ ph then 0 else (count - ph + per - 1) / per

/-- A forward step passes over every tick whose line time is earlier than the new count: they are
counted as skipped (R395). -/
def State.skipTicks (s : State) (new : Nat) : State :=
  (upTo 16).foldl (fun s n =>
    if s.timerOn n then
      let k := s.firstTick n new
      let t := s.timer n
      if t.next < k then
        (s.addRegF (aZenTmrStat n) 31 16 (k - t.next)).modTimer n (fun t => { t with next := k })
      else s
    else s) s

/-- Zenith steps its count (R386), with what a step does to releases (R393), timers (R395) and slot
engines (R199). A step out of range is refused and answers none (R378). -/
def State.stepCount (s : State) (new : Int) : Option State :=
  if new < 0 ∨ 2 ^ 63 ≤ new then none
  else
    let old := s.zen.count
    let n := new.toNat
    let d := new - old
    let s := { s with zen := { s.zen with count := n } }
    let s := (s.zenReport srcZenStep s.zen.state s.zen.state d).bump (aZenCnt 2)
    if old < n then some (((s.passReleases n).skipTicks n).realign old n) else some s

/-! ### The servo (R385) -/

/-- The rate is stored; while LOCKED it is kept for the mean of HOLDOVER. -/
def State.servoRate (s : State) (r : Int) : State :=
  let s := s.setRate r
  if s.zen.state = .locked then
    { s with zen := { s.zen with rates := (s.zen.count, s.rate) :: s.zen.rates } }
  else s

/-- The servo's proportional-integral correction (R385): the estimate is a free value in the range of R379, and the rate
lies beyond it by at most 50 ppm, against the offset, so that it slews the offset towards 0. -/
def State.servo (s : State) (off : Int) : State :=
  let (n, s) := s.takeFresh
  let est := clampRate (Config.servoEstimate n off s.zen.estimate)
  ({ s with zen := { s.zen with estimate := est } }).servoRate (est - off.sign * (Config.servoSlew n off % 5001 : Nat))

/-- A sync result in ACQUIRING (R385, R386). -/
def State.acquire (s : State) (off : Int) : State :=
  let a := off.natAbs
  if 1000 < a ∧ (¬ s.running ∨ a ≤ 1000000000) then
    let s := { s with zen := { s.zen with run := 0, farOff := false } }
    (s.stepCount (s.zen.count - off)).getD s
  else if 1000000000 < a then
    let s := if s.zen.farOff then s
      else s.zenReport srcZenSyncBad s.zen.state s.zen.state off
    let s := { s with zen := { s.zen with run := 0, farOff := true } }
    s.servoRate (if 0 < off then -10000 else 10000)
  else
    let run := if a ≤ 8 then s.zen.run + 1 else 0
    let s := { s with zen := { s.zen with run := run, farOff := false } }
    let s := s.servo off
    if 16 ≤ run then s.zenTo .locked else s

/-- A valid sync result moves the state and the rate (R387). -/
def State.discipline (s : State) (off : Int) : State :=
  let a := off.natAbs
  match s.zen.state with
  | .unlocked => (s.zenTo .acquiring).acquire off
  | .acquiring => s.acquire off
  | .locked =>
    let run := if 50 < a then s.zen.run + 1 else 0
    let s := { s with zen := { s.zen with run := run } }
    if 3 ≤ run then (s.zenTo .acquiring).acquire off else s.servo off
  | .holdover =>
    if 50 < a then (s.zenTo .acquiring).acquire off
    else
      let run := s.zen.run + 1
      let s := { s with zen := { s.zen with run := run } }
      if 4 ≤ run then (s.zenTo .locked).servo off else s

/-- SYNC_RESULT (R385): zenith takes the sync result at the head of its queue. One whose Follow_Up is
missing, whose seq repeats, or whose offset exceeds 1 s in LOCKED or HOLDOVER is discarded. With
disc_en = 0 the offset is kept for STEP, and nothing is disciplined (R390). -/
def execSyncResult (s : State) : Out :=
  match s.zen.syncQ with
  | [] => .next s
  | r :: rest =>
    let s := { s with zen := { s.zen with syncQ := rest } }
    let off := r.t2z - r.master
    let held := s.zen.state = .locked ∨ s.zen.state = .holdover
    if ¬ r.complete ∨ s.zen.lastSeq = some r.seq ∨ (held ∧ 1000000000 < off.natAbs) then
      .next ((s.zenReport srcZenSyncBad s.zen.state s.zen.state off).bump (aZenCnt 1))
    else
      let s := { s with zen := { s.zen with
        offset := some off, lastSeq := some r.seq, lastSync := s.zen.count } }
      let s := s.bump (aZenCnt 0)
      .next (if s.regF aZenCtrl 0 0 = 1 then s.discipline off else s)

/-- SYNC_TIMEOUT (R387): 250 ms without a valid sync result. -/
def execSyncTimeout (s : State) : Out :=
  match s.zen.state with
  | .acquiring => .next (s.zenTo .unlocked)
  | .locked => .next (s.zenTo .holdover)
  | _ => .next s

/-- HOLDOVER_EXPIRY (R387): ZEN_CTRL.hold seconds without a valid sync result. -/
def execHoldoverExpiry (s : State) : Out :=
  match s.zen.state with
  | .holdover => .next (s.zenTo .unlocked)
  | _ => .next s

/-! ### Commands and registers -/

/-- ZEN_CMD completes with a status (ZEN_CMD.done, ZEN_CMD.status). -/
def State.zenCmdDone (s : State) (status : Nat) : State :=
  (s.setRegF aZenCmd 9 8 status).setRegF aZenCmd 15 15 1

/-- The op SET of ZEN_CMD (R386). -/
def State.zenSet (s : State) : State :=
  if s.zen.state = .unlocked ∨ s.regF aZenCtrl 0 0 = 0 then
    match s.stepCount (((s.reg aZenSethi).toNat * 2 ^ 32 + (s.reg aZenSetlo).toNat : Nat) : Int) with
    | some t => t.zenCmdDone 0
    | none => s.zenCmdDone 2
  else s.zenCmdDone 1

/-- A slew at the largest rate ends (R386): the rate is the servo's estimate again. -/
def State.endSlew (s : State) : State :=
  if s.zen.farOff then ({ s with zen := { s.zen with farOff := false } }).servoRate s.zen.estimate else s

/-- The op STEP of ZEN_CMD (R386): it ends a slew at the largest rate. -/
def State.zenStepCmd (s : State) : State :=
  match s.zen.offset with
  | none => s.zenCmdDone 3
  | some off =>
    let s := s.endSlew
    match s.stepCount (s.zen.count - off) with
    | some t => t.zenCmdDone 0
    | none => s.zenCmdDone 2

/-- ZEN_CMD_SET (R386, R390). -/
def execZenCmdSet (s : State) : Out := .next (if s.hostWrites aZenCmd then s.zenSet else s)

/-- ZEN_CMD_STEP (R386). -/
def execZenCmdStep (s : State) : Out := .next (if s.hostWrites aZenCmd then s.zenStepCmd else s)

/-- A write of ZEN_CTRL (R387, R397): a hold of 0 is stored as 1; disc_en is ignored in RUN, DEGRADED
and HALT, and written 0 it makes zenith UNLOCKED. -/
def State.writeZenCtrl (s : State) (v : Word) : State :=
  let hold := fld v 15 8
  let s := s.setRegF aZenCtrl 15 8 (if hold = 0 then 1 else hold)
  if s.running then s
  else
    let s := s.setRegF aZenCtrl 0 0 (fld v 0 0)
    if fld v 0 0 = 0 then s.zenTo .unlocked else s

/-- DISC_EN_WRITE (R387, R397). -/
def execDiscEnWrite (v : Word) (s : State) : Out :=
  .next (s.ownWrite aZenCtrl v (s.writeZenCtrl v))

/-- A read of ZEN_NOWLO captures the count for ZEN_NOWHI (R381, R506). -/
def State.captureNow (s : State) : State :=
  { s with zen := { s.zen with captured := s.zen.count } }

/-- ZEN_NOWLO_READ (R381). -/
def execZenNowloRead (s : State) : Out := .next (if s.fieldOn then s.captureNow else s)

/-! ### Timers (R394, R395) -/

/-- The event of a timer's tick, with the local mark taken with its time (R166, R394). -/
def State.tickEvent (s : State) (n k time : Nat) (mark : Bool) : Event :=
  { flow := BitVec.ofNat 12 (s.regF (aZenTmrCfg n) 11 0)
    flag := BitVec.ofNat 5 (s.regF (aZenTmrCfg n) 16 12)
    value := BitVec.ofNat 32 k, time, local_ := mark }

/-- A pending tick leaves when the dispatcher's queue has room (R187, R395). -/
def State.pumpTimers (s : State) : State :=
  (upTo 16).foldl (fun s n =>
    match (s.timer n).pending with
    | some (k, time, mark) =>
      if s.eventRoom 4 then
        (s.postEvent 4 (s.tickEvent n k time mark)).modTimer n (fun t => { t with pending := none })
      else s
    | none => s) s

/-- TIMER_TICK (R394): the next tick's line time has come. Its event is posted, or stays pending while
the dispatcher's queue is full; a tick that finds one pending is lost and counted (R395). -/
def execTimerTick (n : Nat) (s : State) : Out :=
  let t := s.timer n
  let time := s.tickTime n t.next
  unitOk s (n < 16) <|
    if ¬ (s.timerOn n ∧ s.mode.loaded ∧ time ≤ s.zen.count) then s
    else
      let s := s.modTimer n (fun t => { t with next := t.next + 1 })
      if t.pending.isSome then
        (s.addRegF (aZenTmrStat n) 15 0 1).raise srcZenTimerOvr masterDma accNone
          (BitVec.ofNat 32 n) (satWord (s.zen.offset.getD 0))
      else if s.eventRoom 4 then s.postEvent 4 (s.tickEvent n t.next time s.isLocal)
      else s.modTimer n (fun u => { u with pending := some (t.next, time, s.isLocal) })

/-- A write to a timer's group: its ticks start from the next one after the write (ZEN_TMR_CFG.en). -/
def State.rearmTimer (s : State) (n : Nat) : State :=
  if s.timerOn n then s.modTimer n (fun t => { t with next := s.firstTick n (s.zen.count + 1) })
  else s

/-- The timers start at the end of LOAD (R395): each waits for its first tick that is not earlier than the count. -/
def State.startTimers (s : State) : State :=
  (upTo 16).foldl (fun s n =>
    s.modTimer n (fun _ => { next := s.firstTick n s.zen.count, pending := none })) s

/-- A timer's register at address a has been written: all but ZEN_TMR_STAT start its ticks afresh. -/
def State.timerWritten (s : State) (a n : Nat) : State := if a = aZenTmrStat n then s else s.rearmTimer n

/-! ### Markers and timing messages (R382 to R384) -/

/-- A time by the horizon counter, whose resolution is 2 ns (R383). -/
def evenTime (t : BitVec 64) : BitVec 64 := t &&& ~~~1#64

/-- TIME_MARKER (R384): in each millisecond of the count the field side sends one marker, with the count at which it
sends it. -/
def execTimeMarker (s : State) : Out :=
  .next <| if s.mode.fieldRst ∧ s.bar.up ∧ s.zen.count / 1000000 ≠ s.zen.marked then
    let s := { s with zen := { s.zen with marked := s.zen.count / 1000000 } }
    (s.toHost (.marker s.zen.count)).bump (aZenCnt 7)
  else s

/-- A marker reaches the horizon die: its arrival less the barrier delay is paired with its count,
and the last 16 pairs are kept (R384). -/
def State.takeMarker (s : State) (z : Nat) : State :=
  { s with hor := { s.hor with
      markers := ((z, s.hor.hcount / 2 * 2 - Config.barDelay) :: s.hor.markers).take 16 } }

/-- A horizon-counter time as a zenith time, through the pairs of the last 16 markers (R384). -/
def State.toZenith (s : State) (h : Nat) : Option Int :=
  match s.hor.markers with
  | [] => none
  | (z0, h0) :: rest =>
    let d : Int := (h : Int) - h0
    match rest.getLast? with
    | some (z1, h1) => if h0 = h1 then some (z0 + d) else some (z0 + d * (z0 - z1) / (h0 - h1))
    | none => some (z0 + d)

/-- A timing message's 32 bytes (R382). -/
def timingBytes (m : TimingMsg) : List Byte :=
  [m.kind, 0] ++ leBytes 2 m.seq.toNat ++ leBytes 2 m.origin.toNat ++ [0, 0]
    ++ leBytes 8 m.time.toNat ++ leBytes 8 m.corr.toNat ++ List.replicate 8 0

/-- This module's device number (LNK_DEV.dev). -/
def State.device (s : State) : Nat := s.regF aLnkDev 5 0

/-- A frame of this module (R428). -/
def State.frame (s : State) (type : Byte) (isLocal up : Bool) (payload : List Byte) : Frame :=
  { type, dst := 0, isLocal, up, src := BitVec.ofNat 6 s.device, adapter := false, seq := 0, payload }

/-- A port sends a frame: it takes the next sequence number, and the last 64 are kept for replay
(R429). -/
def State.sendPort (s : State) (k : Nat) (f : Frame) : State :=
  let f := { f with seq := (s.link k).txSeq }
  s.modLink k (fun l => { l with
    txSeq := l.txSeq + 1, sent := (l.sent ++ [f]).drop (l.sent.length + 1 - 64), line := l.line ++ [.frame f] })

/-- The module sends a frame to the adapter by port 0. -/
def State.sendUp (s : State) (type : Byte) (payload : List Byte) : State :=
  let f := s.frame type false true payload
  let s := s.sendPort 0 f
  { s with hor := { s.hor with outbox := s.hor.outbox ++ [f] } }

/-- Downstream ports that are up (R432). -/
def State.downPorts (s : State) : List Nat :=
  (upTo s.variant.dsports).map (· + 1) |>.filter (fun k => s.regF (aLnkStat k) 3 0 = 9)

/-- The link delay that the servo uses: the median of the latest 16 results (R437). -/
def State.dlink (s : State) : Int :=
  let l := s.hor.dlinks.mergeSort (fun a b => decide (a ≤ b))
  let n := l.length
  if n = 0 then 0
  else if n % 2 = 1 then l.getD (n / 2) 0
  else (l.getD (n / 2 - 1) 0 + l.getD (n / 2) 0) / 2

/-- A sync result for a Sync: complete with its Follow_Up, or without it (R384, R385). While port 0 trains, its delay
calibration comes first (R396). Before the first marker the Sync's zenith time is a free value (log entry 146). -/
def State.syncOut (s : State) (seq : BitVec 16) (arrival : Nat) (master : Int) (complete : Bool) :
    State :=
  if s.regF (aLnkStat 0) 3 0 ≠ 9 then s
  else match s.toZenith arrival with
    | some z => s.toField (.syncResult { seq, master, t2z := z, complete })
    | none =>
      let (n, s) := s.takeFresh
      s.toField (.syncResult { seq, master, t2z := Config.unpairedTime n, complete })

/-- SYNC (R383): an upstream Sync is timestamped and forwarded to the downstream ports. Syncs that
still wait for a Follow_Up give sync results without one. -/
def execSync (m : TimingMsg) (arrival : BitVec 64) (departs : List (Nat × BitVec 64))
    (s : State) : Out :=
  .next <| if s.mode.hostRst ∧ m.kind = 1 then
    let s := s.hor.syncs.foldl (fun s q => s.syncOut q.1 q.2.1.toNat 0 false) s
    let s := { s with hor := { s.hor with
      syncs := [(m.seq, evenTime arrival, departs.map (fun (d : Nat × BitVec 64) => (d.1, evenTime d.2)))] } }
    (s.downPorts.filter (fun k => departs.any (fun d => d.1 = k))).foldl
      (fun s k => s.sendPort k (s.frame 0x10 true false (timingBytes m))) s
  else s

/-- FOLLOW_UP (R383, R384): residence and the module's own link delay are added to corr for each
downstream port, and the Sync gives its sync result. -/
def execFollowUp (m : TimingMsg) (s : State) : Out :=
  .next <| if s.mode.hostRst ∧ m.kind = 2 then
    match s.hor.syncs.find? (fun q => q.1 = m.seq) with
    | none => s
    | some (seq, arrival, departs) =>
      let dl := s.dlink
      let s := { s with hor := { s.hor with syncs := s.hor.syncs.filter (fun q => q.1 ≠ seq) } }
      let s := departs.foldl (fun s d =>
        let extra : Int := ((d.2 - arrival).toInt + dl) * 65536
        let m' := { m with corr := m.corr + BitVec.ofInt 64 extra }
        if d.1 ∈ s.downPorts then s.sendPort d.1 (s.frame 0x10 true false (timingBytes m')) else s) s
      s.syncOut seq arrival.toNat ((m.time.toNat : Int) + m.corr.toInt / 65536 + dl) true
  else s

/-- DELAY_REQ_SEND (R383): port 0 sends a Delay_Req and keeps its departure. -/
def execDelayReqSend (departure : BitVec 64) (s : State) : Out :=
  let st := s.regF (aLnkStat 0) 3 0
  .next <| if s.mode.hostRst ∧ (st = 8 ∨ st = 9) then
    let seq := s.hor.delaySeq
    let m : TimingMsg :=
      { kind := 3, seq, origin := BitVec.ofNat 16 s.device, time := 0, corr := 0 }
    let s := s.sendPort 0 (s.frame 0x10 true true (timingBytes m))
    { s with hor := { s.hor with
        delaySeq := seq + 1, delays := s.hor.delays ++ [(seq, evenTime departure)] } }
  else s

/-- DELAY_REQ (R383): a downstream partner's Delay_Req, which arrived at b, is answered at c. -/
def execDelayReq (port : Nat) (m : TimingMsg) (b c : BitVec 64) (s : State) : Out :=
  unitOk s (1 ≤ port ∧ port ≤ s.variant.dsports) <| if s.mode.hostRst ∧ m.kind = 3 then
    let r : TimingMsg :=
      { kind := 4, seq := m.seq, origin := BitVec.ofNat 16 s.device, time := evenTime b
        corr := (evenTime c - evenTime b) * 65536 }
    s.sendPort port (s.frame 0x10 true false (timingBytes r))
  else s

/-- DELAY_RESP (R383, R437): dlink := ((d - a) - (c - b)) / 2; the latest 16 results are kept, and
their median shows in ZEN_DELAY.dlink, which stays 0 while the field side's domain is in reset (R16). -/
def execDelayResp (m : TimingMsg) (arrival : BitVec 64) (s : State) : Out :=
  .next <| if s.mode.hostRst ∧ m.kind = 4 then
    match s.hor.delays.find? (fun q => q.1 = m.seq) with
    | none => s
    | some (seq, a) =>
      let dl := ((evenTime arrival - a).toInt - m.corr.toInt / 65536) / 2
      let s := { s with hor := { s.hor with
        delays := s.hor.delays.filter (fun q => q.1 ≠ seq)
        dlinks := (dl :: s.hor.dlinks).take 16 } }
      if s.mode.mode ≠ .reset then (s.setRegF aZenDelay 15 0 (sat 0xFFFF s.dlink.toNat)).bump (aZenCnt 6) else s
  else s

end Sys2Proof.Machine
end

