-- ==== Sys2Proof/Machine/Barrier.lean ====
section
/-! DEFINITION. The horizon barrier: its messages, its lanes and its heartbeat (R423 to R425), and the
relay of the host side's faults (R473). -/

namespace Sys2Proof.Machine

/-- LNK_DOWN starts to assert: a LOCKED zenith enters HOLDOVER in that cycle (R396, R473). -/
def State.lnkDown (s : State) (port detail : Nat) : State :=
  let s := s.assertLevel srcLnkDown masterHost accNone (BitVec.ofNat 32 port) (BitVec.ofNat 32 detail)
  if s.zen.state = .locked then s.zenTo .holdover else s

/-- A relay word reaches the fault collector (R473): its source asserts with the word's port and
detail; LNK_DOWN follows bit 7, and stays held while HOST_LOST asserts. -/
def State.takeRelay (s : State) (w : Word) : State :=
  let source := fld w 6 0
  let port := fld w 15 8
  let detail := fld w 31 16
  if source = srcLnkDown then
    if fld w 7 7 = 1 then s.lnkDown port detail
    else if s.bar.lost then s
    else s.endLevel srcLnkDown
  else s.raise source masterHost accNone (BitVec.ofNat 32 port) (BitVec.ofNat 32 detail)

/-- The effect of a message that the field side receives. -/
def State.takeField (s : State) (m : BarMsg) : State :=
  match m with
  | .syncResult r => { s with zen := { s.zen with syncQ := s.zen.syncQ ++ [r] } }
  | .relay w => s.takeRelay w
  | .doorbell _ _ => s
  | .marker _ => s
  | .log _ _ => s

/-- The effect of a message that the horizon die receives. -/
def State.takeHost (s : State) (m : BarMsg) : State :=
  match m with
  | .marker z => s.takeMarker z
  | .log kind body => s.logRing kind body
  | .doorbell _ _ => s
  | .syncResult _ => s
  | .relay _ => s

/-- BARRIER_MESSAGE (R423): the message at the head of a direction arrives. A failed check reports
BAR_CRC and asks for a retransmission, up to three times; a message that still fails is discarded. -/
def execBarrierMessage (toField ok : Bool) (s : State) : Out :=
  let q := if toField then s.bar.toField else s.bar.toHost
  let tries := if toField then s.bar.triesF else s.bar.triesH
  match q with
  | [] => .next s
  | m :: rest =>
    if ¬ s.bar.up then .next s
    else
      let drop := ok || decide (3 ≤ tries)
      let q' := if drop then rest else q
      let t' := if drop then 0 else tries + 1
      let s := if toField then { s with bar := { s.bar with toField := q', triesF := t' } }
        else { s with bar := { s.bar with toHost := q', triesH := t' } }
      if ok then .next (if toField then s.takeField m else s.takeHost m)
      else .next (s.raise srcBarCrc masterDma accNone 0 0)

/-- BARRIER_LANE_LOSS (R425): lanes out of lock for more than 10 µs; the mode does not change. -/
def execBarrierLaneLoss (s : State) : Out :=
  .next <| if s.bar.up then
    let s := { s with bar := { s.bar with up := false, lanes := true } }
    s.assertLevel srcBarLink masterDma accNone 0 0
  else s

/-- HEARTBEAT_MISSING (R425): no heartbeat from the host side for 1 ms; LNK_DOWN is held asserting as
well (R473). -/
def execHeartbeatMissing (s : State) : Out :=
  .next <| if s.mode.mode ≠ .reset ∧ ¬ s.bar.lost then
    let s := { s with bar := { s.bar with lost := true } }
    (s.assertLevel srcHostLost masterDma accNone 0 0).lnkDown 0 0
  else s

/-- The barrier is up again: BAR_LINK and HOST_LOST clear (R477), and LNK_DOWN with it unless the
upstream port is down (R473). -/
def State.barrierUp (s : State) : State :=
  let s := { s with bar := { s.bar with up := true, lanes := false, lost := false } }
  let s := (s.endLevel srcBarLink).endLevel srcHostLost
  if s.regF (aLnkStat 0) 3 0 = 9 then s.endLevel srcLnkDown else s

end Sys2Proof.Machine
end

