-- ==== Sys2Proof/Machine/CellOps.lean ====
section
/-! DEFINITION. What the cell's units share: stamps and their order (R51), the set hash (R59), the frame
directory and the areas of a frame (R143 to R146), the words of a strand's record and of its status
(R91, R92, R146). -/

namespace Sys2Proof.Machine

/-! ### Stamps (R51) -/

/-- Stamp a is earlier than stamp b (R51). -/
def earlier (a b : Word) : Bool :=
  let d := (b - a).toNat
  if d = 2 ^ 31 then decide (a.toNat < b.toNat) else decide (1 ≤ d ∧ d < 2 ^ 31)

/-- The sort key of a stamp (R51): the signed difference to now. -/
def sortKey (now stamp : Word) : Int := (stamp - now).toInt

/-! ### The hash (R59) -/

/-- The level-1 set of a key; for a latch, and for the latch probe of a left token, the iteration is
taken as 0. -/
def setOf (flow : BitVec 12) (iteration : BitVec 16) (addr : BitVec 14) : Nat :=
  let a : BitVec 8 := addr.setWidth 8 ^^^ ((addr >>> 8).setWidth 8 <<< 2)
  let i : BitVec 8 := iteration.setWidth 8 ^^^ (iteration >>> 8).setWidth 8
  let f : BitVec 8 := flow.setWidth 8 ^^^ ((flow >>> 8).setWidth 8 <<< 4)
  (a ^^^ i.rotateLeft 3 ^^^ f.rotateLeft 5).toNat

/-! ### Frame-store words -/

/-- A word of the frame store. -/
def Cell.word (c : Cell) (w : Nat) : Word := mword c.frame (w * 4)

/-- The cell with a frame-store word written. -/
def Cell.putWord (c : Cell) (w : Nat) (v : Word) : Cell := { c with frame := mputWord c.frame (w * 4) v }

/-! ### The frame directory (R143 to R145) -/

/-- The place of the directory entry of an activation; an entry of a flow record matches every
iteration (R202). -/
def Cell.findDir (c : Cell) (flow : BitVec 12) (iteration : BitVec 16) : Option Nat :=
  indexOf? (fun e => e.hdr.flow = flow && (e.scheduled || e.hdr.iteration = iteration)) c.dir

/-- The code of a directory entry's state (H3.state). -/
def DirState.code : DirState → Nat
  | .live => 0 | .done => 1 | .trapped => 2

/-- Header words H0 to H3 (R145). -/
def DirEntry.words (e : DirEntry) : List Word :=
  let h := e.hdr
  [BitVec.ofNat 32 (h.flow.toNat + h.iteration.toNat * 2 ^ 12 + h.cls.toNat * 2 ^ 28
      + b2n h.atomic * 2 ^ 30),
   BitVec.ofNat 32 (h.base.toNat + h.nareas.toNat * 2 ^ 16),
   BitVec.ofNat 32 (h.areaWords.toNat + h.winWords.toNat * 2 ^ 16),
   BitVec.ofNat 32 (h.handler.toNat + b2n h.hen * 2 ^ 14 + e.busy.toNat * 2 ^ 16
      + e.state.code * 2 ^ 24)]

/-- The cell with a directory entry changed; H3 of the frame shows its areas and its state (R145,
R148). -/
def Cell.modDir (c : Cell) (i : Nat) (f : DirEntry → DirEntry) : Cell :=
  match c.dir[i]? with
  | some e =>
    let e := f e
    { c with dir := replaceAt c.dir i e }.putWord (e.hdr.base.toNat + 3) (e.words.getD 3 0)
  | none => c

/-- Words written one after the other from a word address. -/
def Cell.putWords (c : Cell) (w : Nat) (vs : List Word) : Cell :=
  { c with frame := mwrite c.frame (w * 4) (vs.flatMap (fun v => leBytes 4 v.toNat)) }

/-- A header arrives (R143, R145, R149): it enters the directory, LIVE with no area busy, and its
sixteen words are written to the frame, H4 and the words after it as 0. -/
def Cell.openFrame (c : Cell) (h : Header) : Cell :=
  let e : DirEntry :=
    { hdr := h, busy := 0, state := .live, scheduled := false, trapPending := false,
      complete := false }
  let others := c.dir.filter
    (fun d => d.scheduled || d.hdr.flow ≠ h.flow || d.hdr.iteration ≠ h.iteration)
  let c := { c with dir := others ++ [e] }
  c.putWords h.base.toNat (e.words ++ List.replicate 4 0)

/-- The number of strand areas of a frame (H1.nareas). -/
def Header.areas (h : Header) : Nat := h.nareas.toNat + 1

/-- The base word of area i (R144). -/
def Header.areaBase (h : Header) (i : Nat) : Nat := h.base.toNat + 16 + i * h.areaWords.toNat

/-- The lowest-numbered free area of a frame (R148). -/
def DirEntry.freeArea (e : DirEntry) : Option Nat :=
  (upTo e.hdr.areas).find? (fun i => !e.busy.getLsbD i)

/-- A directory entry accepts a firing (R143). -/
def Cell.live (c : Cell) (flow : BitVec 12) (iteration : BitVec 16) : Bool :=
  match (c.findDir flow iteration).bind (fun i => c.dir[i]?) with
  | some e => decide (e.state = .live)
  | none => false

/-! ### Strand status (R91, R92, R146) -/

/-- TG of a strand (R91). -/
def Strand.tg (t : Strand) : Word :=
  BitVec.ofNat 32 (t.flow.toNat + t.iteration.toNat * 2 ^ 12 + t.cls.toNat * 2 ^ 28)

/-- SS of a strand in a slot (R92). -/
def Strand.ss (t : Strand) (slot : Nat) : Word :=
  BitVec.ofNat 32 (t.k.toNat + b2n t.rep * 2 ^ 6 + b2n t.repu * 2 ^ 7 + slot % 8 * 2 ^ 8
    + t.depth.toNat * 2 ^ 11 + b2n t.late * 2 ^ 16 + b2n t.ordered * 2 ^ 17 + b2n t.pair * 2 ^ 18
    + b2n t.replay * 2 ^ 19 + b2n t.atomic * 2 ^ 20 + t.user.toNat * 2 ^ 24)

/-- S1 of a strand's record, with its state (R146). -/
def Strand.s1 (t : Strand) (state : Nat) : Word :=
  BitVec.ofNat 32 (t.start.toNat + b2n t.late * 2 ^ 16 + b2n t.ordered * 2 ^ 17
    + b2n t.pair * 2 ^ 18 + b2n t.replay * 2 ^ 19 + state * 2 ^ 20 + t.area.toNat * 2 ^ 24)

/-- S2 to S10 of a strand's record (R146). -/
def Strand.saved (t : Strand) (slot : Nat) : List Word :=
  [BitVec.ofNat 32 (t.pc.toNat + t.b.toNat * 2 ^ 16), t.lk, t.pl, t.ph, t.qt, t.md, t.rc, t.ss slot,
   t.si.setWidth 32]

/-- The cell with a strand suspended in its record (R146, R155 step 3). -/
def Cell.saveStrand (c : Cell) (t : Strand) (slot state : Nat) : Cell :=
  (c.putWord (t.rb.toNat + 1) (t.s1 state)).putWords (t.rb.toNat + 2) (t.saved slot)

/-- The boost of a flow in a cell, where one is in force (R139, R190). -/
def Cell.boost (c : Cell) (flow : BitVec 12) : Option (BitVec 2) := tfind c.boosts flow.toNat

/-- A strand's effective class (R139): its firing's class, lowered by a boost. -/
def Cell.eclass (c : Cell) (t : Strand) : Nat :=
  match c.boost t.flow with
  | some b => min b.toNat t.cls.toNat
  | none => t.cls.toNat

/-- A slot's strand. -/
def Cell.strand (c : Cell) (slot : Nat) : Option Strand := tfind c.slots slot

/-- The cell with a slot's strand replaced. -/
def Cell.putStrand (c : Cell) (slot : Nat) (t : Strand) : Cell :=
  { c with slots := tins c.slots slot t }

/-- The lowest-numbered free slot. -/
def Cell.freeSlot (c : Cell) : Option Nat := (upTo 8).find? (fun i => (c.strand i).isNone)

/-- The first element of a list that satisfies a test, and the list without it. -/
def takeFirst {α : Type} (p : α → Bool) : List α → Option (α × List α)
  | [] => none
  | x :: xs => if p x then some (x, xs) else (takeFirst p xs).map (fun r => (r.1, x :: r.2))

end Sys2Proof.Machine
end

