-- ==== Sys2Proof/Machine/Address.lean ====
section
/-! DEFINITION. The address space of a strand (R263 to R268): the region that an effective address
reaches, the unit that serves it, the physical address there, and the rights it needs. -/

namespace Sys2Proof.Machine

/-- The regions that lie beyond the frame store (R263, R265). -/
inductive Region where
  /-- The scratchpad of the cell's own logical cloud, or of another one. -/
  | scratch (own : Bool) (pcloud off : Nat)
  /-- Global memory, by offset. -/
  | glob (off : Nat)
  /-- The semaphore window, by offset. -/
  | sem (off : Nat)
  /-- The MRAM user area and DRAM, by their own addresses. -/
  | mram (a : Nat)
  | dram (a : Nat)
  deriving DecidableEq, Repr

/-- A located address: its region, and the alias through which it was named, SET when true (R267). -/
structure Located where
  region : Region
  through : Option Bool
  deriving DecidableEq, Repr

/-- What an access does to its region (R265). -/
inductive Need where
  | read | write | swp | lock
  deriving DecidableEq, Repr

/-- The scratchpad of a logical cloud, where a physical cloud holds it (R264). -/
def State.scratchOf (s : State) (own : Bool) (lcloud off : Nat) : Option Region :=
  if lcloud < s.variant.lclouds then
    match tget (fun _ => 0) s.rep.cloudOf lcloud with
    | 0 => none
    | c + 1 => some (.scratch own c off)
  else none

/-- The MRAM user area of the variant: base and size (R263, R281). -/
def Variant.mramUser : Variant → Nat × Nat
  | .ltm7256 => (0x3C0000, 0x40000)
  | .ltm7128 => (0x3C0000, 0x40000)
  | .ltm7064 => (0xF0000, 0x10000)

/-- The region of an effective address outside the frame store and the aliases (R263, R279), for a
cell with this id and partition. -/
def State.plainRegion (s : State) (lid part a : Nat) : Option Region :=
  if 0x80000 ≤ a ∧ a < 0x100000 then s.scratchOf true (lid / 16) (a - 0x80000)
  else if 0x1000000 ≤ a ∧ a < 0x1800000 then
    let n := (a - 0x1000000) / 0x80000
    s.scratchOf (n = lid / 16) n (a % 0x80000)
  else if 0x2000000 ≤ a ∧ a < 0x2300000 then some (.glob (a - 0x2000000))
  else if 0x2300000 ≤ a ∧ a < 0x2300400 then some (.sem (a - 0x2300000))
  else if 0x3000000 ≤ a ∧ a < 0x3000000 + s.variant.mramUser.2 then
    some (.mram (s.variant.mramUser.1 + (a - 0x3000000)))
  else if 0x80000000 ≤ a then
    let w := s.reg (aMemDwin part)
    let o := a - 0x80000000
    if o < fld w 27 16 * 0x100000 then some (.dram (fld w 11 0 * 0x100000 + o)) else none
  else none

/-- A region has aliases (R268). -/
def Region.aliased : Region → Bool
  | .scratch _ _ _ => true
  | .glob _ => true
  | .sem _ => false
  | .mram _ => false
  | .dram _ => false

/-- Where an effective address beyond the frame store lies (R263). -/
def State.locate (s : State) (lid part : Nat) (ea : Word) : Option Located :=
  let a := ea.toNat
  let through := if a / 0x10000000 = 1 then some true
    else if a / 0x10000000 = 2 then some false else none
  match through with
  | none => (s.plainRegion lid part a).map (fun r => { region := r, through := none })
  | some set =>
    match s.plainRegion lid part (a % 0x10000000) with
    | some r => if r.aliased then some { region := r, through := some set } else none
    | none => none

/-- The level-2 spill area of a physical cloud's scratchpad covers an offset (R266). -/
def State.inSpillArea (s : State) (pcloud off : Nat) : Bool :=
  let w := s.reg (aMemSpillCfg pcloud)
  let base := fld w 5 0 * 8192
  decide (base ≤ off ∧ off < base + 64 * 2 ^ fld w 10 8 * 128)

/-- The address lies in an area that R266 refuses to cells. -/
def State.refusedArea (s : State) (r : Region) : Bool :=
  match r with
  | .scratch _ c off => s.inSpillArea c off
  | .glob off => decide (off < s.regF aMemGsys 11 0 * 1024)
  | .sem _ => false
  | .mram _ => false
  | .dram _ => false

/-- The rights of a partition cover an access (R265, R119, R120, R296). -/
def State.permits (s : State) (part : Nat) (l : Located) (need : Need) (size : Nat) : Bool :=
  let w := s.reg (aMemPright part)
  let bit (n : Nat) := fld w n n = 1
  let rw (r : Nat) : Bool :=
    match need with
    | .read => bit r
    | .write => bit (r + 1)
    | .swp => bit r && bit (r + 1) && l.through.isNone
    | .lock => bit r && bit 6 && l.through.isNone
  !s.refusedArea l.region &&
    match l.region with
    | .scratch own _ _ => rw (if own then 0 else 2)
    | .glob _ => rw 4
    | .sem off =>
      bit 7 && fld (s.reg (aSemRights (off / 128))) part part = 1 && decide (size = 4) &&
        (match need with
          | .read => off % 16 = 0 || off % 16 = 8
          | .write => off % 16 = 4
          | .swp => false
          | .lock => false)
    | .mram _ => (need = .read || need = .write) && rw 10
    | .dram _ => (need = .read || need = .write) && rw 8

/-- The unit that serves a region: its route, the unit code at its router, and the physical address of
a request (R236, R269, R273). A scratchpad address is the offset in its bank. -/
def Region.server (r : Region) : (BitVec 5 × BitVec 4) × BitVec 3 × Word :=
  match r with
  | .scratch _ c off =>
    ((BitVec.ofNat 5 c, BitVec.ofNat 4 (4 + off / 0x10000)), 1, BitVec.ofNat 32 (off % 0x10000))
  | .glob off => ((cloudRoot, unitGlobal), 0, BitVec.ofNat 32 off)
  | .sem off => ((cloudRoot, unitGlobal), 0, BitVec.ofNat 32 (0x300000 + off))
  | .mram a => ((cloudRoot, unitMram), 0, BitVec.ofNat 32 a)
  | .dram a => ((cloudRoot, unitDram), 0, BitVec.ofNat 32 a)

/-- The size code of an access of 1, 2, 4 or 8 bytes (R273). -/
def sizeCode : Nat → Nat
  | 8 => 3
  | 4 => 2
  | 2 => 1
  | _ => 0

/-- The operation code of a load (R273); the semaphore window is acquired through offset 0 (R296). -/
def loadOp (l : Located) (size : Nat) : Byte :=
  match l.region with
  | .sem off => if off % 16 = 0 then 0x58 else 0x12
  | _ => BitVec.ofNat 8 (0x10 + sizeCode size)

/-- The operation code of a store, plain or through an alias (R267, R273, R296). -/
def storeOp (l : Located) (size : Nat) : Byte :=
  match l.region with
  | .sem _ => 0x59
  | _ => BitVec.ofNat 8 ((match l.through with
    | none => 0x20
    | some true => 0x30
    | some false => 0x38) + sizeCode size)

/-- The bank that serves a region, by its directory number (LCK_DIR). -/
def Region.bankNo : Region → Nat
  | .scratch _ c off => c * 8 + off / 0x10000
  | .glob off => 144 + off / 0x60000
  | .sem _ => 0
  | .mram _ => 0
  | .dram _ => 0

end Sys2Proof.Machine
end

