-- ==== Sys2Proof/Machine/Match.lean ====
section
/-! DEFINITION. Matching in a cell: the checks and outcomes of an arriving token (R39 to R51, R58 to
R65), the ready queue (R74 to R76), the direct-indexed store of a Scheduled cell (R208 to R210), the
ager and purges (R53 to R57). -/

namespace Sys2Proof.Machine

/-! ### Reports and messages of a cell -/

/-- The master of a report of a physical cell (R351). -/
def cellMaster (pcell : Nat) : BitVec 10 := BitVec.ofNat 10 pcell

/-- The address field of a report about a key (R83): flow in [11:0], addr in [25:12]. -/
def keyAddr (flow : BitVec 12) (addr : BitVec 14) : Word :=
  BitVec.ofNat 32 (flow.toNat + addr.toNat * 4096)

/-- A cell reports a token: its key in the address field, its iteration in the syndrome (R83). -/
def State.tokenFault (s : State) (source pcell : Nat) (t : Token) : State :=
  s.raise source (cellMaster pcell) accToken (keyAddr t.flow t.addr) (t.iteration.setWidth 32)

/-- A token discarded with SCHED_TAG: the iteration in [31:16], and no slot, since it belongs to none
(R225). -/
def State.schedTag (s : State) (pcell : Nat) (t : Token) (slot : Nat) : State :=
  s.raise srcSchedTag (cellMaster pcell) accToken (keyAddr t.flow t.addr)
    (BitVec.ofNat 32 (t.iteration.toNat * 65536 + slot % 65536))

/-- A second token of a key and port is discarded (R63): the report carries the port in [17:16] of the syndrome, beside
the iteration (DESIGN CHOICE: log entry 25). -/
def dupSyn (t : Token) : Word := BitVec.ofNat 32 (t.iteration.toNat + t.port.toNat * 65536)

/-- A cell reports a second token of a key and port (R63, R83). -/
def State.dupFault (s : State) (pcell : Nat) (t : Token) : State :=
  s.raise srcDup (cellMaster pcell) accToken (keyAddr t.flow t.addr) (dupSyn t)

/-- The id under which a physical cell works (R310). -/
def State.idOf (s : State) (pcell : Nat) : Nat :=
  match s.lidOf pcell with
  | some lid => s.workId lid
  | none => 0

/-- A request of the cell itself: it takes a tag when it is launched (R239). -/
def State.house (s : State) (pcell : Nat) (what : Pending) (ea : Word) (op : Byte)
    (data : BitVec 64) (seq : OutputSeq) : State :=
  s.modCell pcell (fun c => { c with houseQ := c.houseQ ++ [{ what, ea, op, data, body := [], seq }] })

/-- The sequence of a request that concerns a flow and no strand any more (R314; DESIGN CHOICE: log entry 22). -/
def OutputSeq.ofFlow (flow : BitVec 12) : OutputSeq := { fseq := 0, n := 0, flow, iteration := 0 }

/-! ### Messages to the spill engine (R69, R274) -/

/-- The address field of a message to the spill engine (R274): the level-1 set, the low bits of the cell's id, and the
past bit. -/
def State.engineAddr (s : State) (pcell set : Nat) (past : Bool) : Word :=
  BitVec.ofNat 32 (set % 256 + s.idOf pcell % 16 * 256 + b2n past * 4096)

/-- The data field that names a key and a port (R274). -/
def keyData (flow : BitVec 12) (iteration : BitVec 16) (addr : BitVec 14) (port : BitVec 2) : BitVec 64 :=
  BitVec.ofNat 64 (flow.toNat + iteration.toNat * 2 ^ 12 + addr.toNat * 2 ^ 28 + port.toNat * 2 ^ 42)

/-- A token as the 16 bytes of a tail flit. -/
def Token.tail (t : Token) : List Byte := leBytes 16 t.toNat

/-- A cell forms a message to its cloud's spill engine; messages leave one after the other (R69). -/
def State.toEngine (s : State) (pcell : Nat) (what : Pending) (op : Byte) (addr : Word) (data : BitVec 64)
    (body : List Byte) : State :=
  s.modCell pcell (fun c => { c with houseQ := c.houseQ ++ [{ what, ea := addr, op, data, body, seq := .ofFlow 0 }] })

/-- SPILL: a victim (R64). -/
def State.sendSpill (s : State) (pcell set : Nat) (e : Entry) : State :=
  s.toEngine pcell .engine 0x60 (s.engineAddr pcell set e.past) 0 e.tok.tail

/-- RECALL: the key and port of a token that has missed (R69). -/
def State.sendRecall (s : State) (pcell set : Nat) (t : Token) : State :=
  s.toEngine pcell .engine 0x61 (s.engineAddr pcell set false) (keyData t.flow t.iteration t.addr t.port) []

/-- FETCH: one token of a set (R72). -/
def State.sendFetch (s : State) (pcell set : Nat) : State :=
  s.toEngine pcell .engine 0x62 (s.engineAddr pcell set false) 0 []

/-- SWEEP: a new latch (R48). -/
def State.sendSweep (s : State) (pcell : Nat) (t : Token) : State :=
  s.toEngine pcell .engine 0x64 (s.engineAddr pcell 0 false) 0 t.tail

/-- PURGE: the engine's part of a purge (R57). -/
def State.purgeEngine (s : State) (pcell : Nat) (p : Purge) : State :=
  s.toEngine pcell (.purge p) 0x65 (s.engineAddr pcell 0 false)
    (BitVec.ofNat 64 (p.flow.toNat + (p.iteration.getD 0).toNat * 2 ^ 12 + b2n p.iteration.isNone * 2 ^ 28)) []

/-- The entry of a buffer is free again: its credit goes back on the sideband (R238). -/
def State.giveBack (s : State) (c : Option Credit) : State :=
  match c with
  | some c => { s with jet := { s.jet with returns := s.jet.returns ++ [c] } }
  | none => s

/-! ### Firings (R43 to R47) -/

/-- The activation of a monadic token (R43, R45). -/
def monoAct (t : Token) : Activation :=
  { w0 := t.value, w1 := 0, stamp := t.stamp, flow := t.flow, iteration := t.iteration
    addr := t.addr, cls := t.cls.setWidth 2, late := t.late, ordered := t.ordered, pair := t.pair
    replay := t.replay, fseq := 0, trap := false }

/-- The activation of a left and a right token (R44, R45). R45 names no pair and replay flag of it: each is 1 where
either token's is, as for ordered (DESIGN CHOICE: log entry 124). -/
def pairAct (l r : Token) : Activation :=
  { w0 := l.value, w1 := r.value, stamp := if earlier r.stamp l.stamp then r.stamp else l.stamp
    flow := l.flow, iteration := l.iteration, addr := l.addr
    cls := if r.cls.toNat < l.cls.toNat then r.cls.setWidth 2 else l.cls.setWidth 2
    late := l.late || r.late, ordered := l.ordered || r.ordered, pair := l.pair || r.pair
    replay := l.replay || r.replay, fseq := 0, trap := false }

/-- The activation of a left token and a latch (R45, R47). Its pair and replay flags are the left token's (DESIGN CHOICE:
log entry 124). -/
def latchAct (l lat : Token) : Activation :=
  { w0 := l.value, w1 := lat.value, stamp := l.stamp, flow := l.flow, iteration := l.iteration
    addr := l.addr, cls := l.cls.setWidth 2, late := l.late, ordered := l.ordered || lat.ordered
    pair := l.pair, replay := l.replay, fseq := 0, trap := false }

/-! ### The ready queue (R74 to R76) -/

/-- Activation a goes before b: by class, then by sort key (R74). -/
def goesBefore (now : Word) (a b : Activation) : Bool :=
  decide (a.cls.toNat < b.cls.toNat) ||
    (a.cls = b.cls && decide (sortKey now a.stamp < sortKey now b.stamp))

/-- The number of places up to and with the last ordered activation of a flow (R76). -/
def orderedFloor (flow : BitVec 12) : List Activation → Nat
  | [] => 0
  | x :: xs =>
    match orderedFloor flow xs with
    | 0 => if x.ordered && x.flow = flow then 1 else 0
    | n + 1 => n + 2

/-- The place of an activation by R74: before the first that it goes before. -/
def readyPlace (now : Word) (a : Activation) : List Activation → Nat
  | [] => 0
  | x :: xs => if goesBefore now a x then 0 else readyPlace now a xs + 1

/-- The ready queue with an activation inserted (R74, R76). -/
def insertReady (now : Word) (q : List Activation) (a : Activation) : List Activation :=
  let n := max (readyPlace now a q) (if a.ordered then orderedFloor a.flow q else 0)
  q.take n ++ a :: q.drop n

/-- The ready queue holds its 64 activations (R74). -/
def Cell.readyFull (c : Cell) : Bool := decide (64 ≤ c.readyQ.length)

/-- A firing that finds no LIVE frame is discarded with FRAME_MISS (R143, R162). -/
def State.frameMiss (s : State) (pcell : Nat) (a : Activation) : State :=
  s.raise srcFrameMiss (cellMaster pcell) accToken (keyAddr a.flow a.addr) (a.iteration.setWidth 32)

/-- An activation enters the ready queue. -/
def State.pushReady (s : State) (pcell : Nat) (a : Activation) : State :=
  s.modCell pcell (fun c => { c with readyQ := insertReady s.now c.readyQ a })

/-- A firing enters the ready queue, or is discarded where its activation has no LIVE frame
(R143). -/
def State.fire (s : State) (pcell : Nat) (a : Activation) : State :=
  if (s.cell pcell).live a.flow a.iteration then s.pushReady pcell a else s.frameMiss pcell a

/-! ### The level-1 store of a Dynamic cell (R58 to R65) -/

/-- An entry matches a probe (R60). -/
def Entry.hit (e : Entry) (latch : Bool) (flow : BitVec 12) (iteration : BitVec 16)
    (addr : BitVec 14) : Bool :=
  e.latch = latch && e.tok.flow = flow && e.tok.addr = addr
    && (latch || e.tok.iteration = iteration)

/-- The entry of a set that matches a probe, with its index (R60). -/
def Cell.probe (c : Cell) (set : Nat) (latch : Bool) (flow : BitVec 12) (iteration : BitVec 16)
    (addr : BitVec 14) : Option (Nat × Entry) :=
  (upTo 8).findSome? fun w => match tfind c.store (set * 8 + w) with
    | some e => if e.hit latch flow iteration addr then some (set * 8 + w, e) else none
    | none => none

/-- The latch for a (flow, addr), with its index. -/
def Cell.findLatch (c : Cell) (flow : BitVec 12) (addr : BitVec 14) : Option (Nat × Entry) :=
  c.probe (setOf flow 0 addr) true flow 0 addr

/-- The lowest-numbered way of a set that is not valid (R60). -/
def Cell.freeWay (c : Cell) (set : Nat) : Option Nat :=
  ((upTo 8).map (set * 8 + ·)).find? fun i => (tfind c.store i).isNone

/-- An entry may leave as a victim (R64, R65). -/
def Entry.eligible (e : Entry) : Bool :=
  !e.latch && !e.tok.ordered && (e.tok.cls = 2 || e.tok.cls = 3)

/-- The best victim of one class among numbered entries: the earliest stamp, then the first (R64). -/
def victimOf (cls : BitVec 3) : List (Nat × Entry) → Option (Nat × Entry)
  | [] => none
  | (i, e) :: rest =>
    if e.eligible && e.tok.cls = cls then
      match victimOf cls rest with
      | some (j, f) => if earlier f.tok.stamp e.tok.stamp then some (j, f) else some (i, e)
      | none => some (i, e)
    else victimOf cls rest

/-- The victim of a full set, the arriving token standing as way 8 (R64). -/
def Cell.victim (c : Cell) (set : Nat) (arriving : Entry) : Option (Nat × Entry) :=
  let ways := (upTo 8).filterMap fun w => (tfind c.store (set * 8 + w)).map fun e => (w, e)
  let all := ways ++ [(8, arriving)]
  match victimOf 3 all with
  | some v => some v
  | none => victimOf 2 all

/-- The spill counter of a set (R68). -/
def Cell.spills (c : Cell) (set : Nat) : Nat := tget (fun _ => 0) c.spillCnt set

/-- The cell with a spill counter changed. -/
def Cell.modSpills (c : Cell) (set : Nat) (f : Nat → Nat) : Cell :=
  { c with spillCnt := tset (fun _ => 0) c.spillCnt set (f (c.spills set)) }

/-- A victim leaves level 1 for the spill engine, or is discarded where its set's counter is full
(R64, R68). -/
def State.spillOut (s : State) (pcell set : Nat) (e : Entry) : State :=
  let e := { e with tok := { e.tok with spilled := true } }
  if 4095 ≤ (s.cell pcell).spills set then s.tokenFault srcSpillFull pcell e.tok
  else (s.modCell pcell (fun c => c.modSpills set (· + 1))).sendSpill pcell set e

/-- An entry is written into its set: in the lowest free way, or in the way of a victim, or it
leaves as the victim itself, or is discarded with MATCH_FULL (R60, R64, R65). -/
def State.placeEntry (s : State) (pcell set : Nat) (e : Entry) : State :=
  let c := s.cell pcell
  match c.freeWay set with
  | some i => s.modCell pcell (fun c => { c with store := tins c.store i e })
  | none =>
    match c.victim set e with
    | none => s.tokenFault srcMatchFull pcell e.tok
    | some (w, v) =>
      if w = 8 then s.spillOut pcell set v
      else (s.modCell pcell (fun c => { c with store := tins c.store (set * 8 + w) e })).spillOut
        pcell set v

/-- A way of a set has become free: the cell asks for one spilled token of the set (R72). -/
def State.wayFreed (s : State) (pcell set : Nat) : State :=
  if (s.cell pcell).spills set = 0 then s else s.sendFetch pcell set

/-- The store without an entry. -/
def State.dropEntry (s : State) (pcell i : Nat) : State :=
  s.modCell pcell (fun c => { c with store := terase c.store i })

/-- A latch token's value, stamp and iteration replace those of the entry that holds it (R46). -/
def Entry.relatch (e : Entry) (t : Token) : Entry :=
  { e with tok := { e.tok with value := t.value, stamp := t.stamp, iteration := t.iteration } }

/-- A latch token arrives in a Dynamic cell (R46, R48, R49); none where it must wait at the head. -/
def State.arriveLatch (s : State) (pcell : Nat) (t : Token) : Option State :=
  let c := s.cell pcell
  match c.findLatch t.flow t.addr with
  | some (i, e) => some (s.modCell pcell (fun c => { c with store := tins c.store i (e.relatch t) }))
  | none =>
    if c.sweep.isSome then none
    else
      let s := s.placeEntry pcell (setOf t.flow 0 t.addr) { tok := t, latch := true, past := false }
      if ((s.cell pcell).findLatch t.flow t.addr).isSome then
        let s := s.modCell pcell (fun c => { c with sweep := some t })
        some (if (s.cell pcell).spillCnt = [] then s else s.sendSweep pcell t)
      else some s

/-- A left or right token arrives in a Dynamic cell (R44, R47, R63, R69); none where the ready queue
holds back its firing (R75). A returned token counts as the first (R63). -/
def State.arrivePaired (s : State) (pcell : Nat) (t : Token) (returned : Bool) : Option State :=
  let c := s.cell pcell
  let set := setOf t.flow t.iteration t.addr
  match c.findLatch t.flow t.addr with
  | some (_, lat) =>
    if t.port = 2 then some (s.tokenFault srcPortMix pcell t)
    else if c.readyFull then none
    else some (s.fire pcell (latchAct t lat.tok))
  | none =>
    match c.probe set false t.flow t.iteration t.addr with
    | some (i, e) =>
      if e.tok.port = t.port then
        if returned then
          some ((s.modCell pcell (fun c => { c with
            store := tins c.store i { tok := t, latch := false, past := false } })).dupFault
              pcell e.tok)
        else some (s.dupFault pcell t)
      else if c.readyFull then none
      else
        let a := if t.port = 1 then pairAct t e.tok else pairAct e.tok t
        some (((s.dropEntry pcell i).fire pcell a).wayFreed pcell set)
    | none =>
      let ask := decide (c.spills set ≠ 0)
      let s := s.placeEntry pcell set { tok := t, latch := false, past := false }
      some (if ask then s.sendRecall pcell set t else s)

/-! ### The store of a Scheduled cell (R208, R209) -/

/-- Word address of a slot-table bank of a Scheduled cell (R202). -/
def bankWord (bankB : Bool) : Nat := if bankB then 14336 else 12288

/-- A slot entry of a bank as 64 bits (R203). -/
def Cell.slotEntry (c : Cell) (bankB : Bool) (i : Nat) : Nat :=
  leNat (mread c.frame (bankWord bankB * 4 + i * 8) 8)

/-- An entry of the active slot table uses matching slot m (R208, R209). -/
def State.nodeUsed (s : State) (pcell m : Nat) : Bool :=
  (upTo 1024).any fun i =>
    let e := (s.cell pcell).slotEntry (s.cell pcell).engine.bankB i
    bitsOf e 63 63 = 1 && bitsOf e 25 16 = m

/-- A token arrives in a Scheduled cell (R208, R209). -/
def State.arriveSched (s : State) (pcell : Nat) (t : Token) : State :=
  let c := s.cell pcell
  let m := t.addr.toNat % 1024
  let i := 2 * m + (if t.port = 2 ∨ t.port = 3 then 1 else 0)
  let put (s : State) := s.modCell pcell (fun c => { c with
    store := tins c.store i { tok := t, latch := t.port = 3, past := false } })
  match tfind c.store i with
  | none => if s.nodeUsed pcell m then put s else s.schedTag pcell t 0
  | some e =>
    if t.port = 3 ∨ e.latch then
      if ¬ (e.tok.flow = t.flow ∧ e.tok.addr = t.addr) then s.schedTag pcell t 0
      else if t.port ≠ 3 then s.tokenFault srcPortMix pcell t
      else if e.latch then
        s.modCell pcell (fun c => { c with store := tins c.store i (e.relatch t) })
      else (put s).tokenFault srcPortMix pcell e.tok
    else if ¬ (e.tok.flow = t.flow ∧ e.tok.iteration = t.iteration ∧ e.tok.addr = t.addr) then
      s.schedTag pcell t 0
    else if e.tok.port = t.port then s.dupFault pcell t
    else s.tokenFault srcPortMix pcell t

/-! ### Taking a token (R42, R61) -/

/-- An error in one entry of those that a command reads from a cell's store (R83): a single-bit error is corrected; a
double-bit error invalidates the entry, and a way that it frees asks for a spilled token (R72). A place without an
entry holds no error. -/
def State.storeEcc (s : State) (pcell : Nat) (entries : List Nat) (ecc : MatchEcc) : State :=
  let at_ (place : Nat) : Option (Nat × Entry) :=
    (entries[place]?).bind fun i => (tfind (s.cell pcell).store i).map fun e => (i, e)
  match ecc with
  | .good => s
  | .single place => match at_ place with
    | some (_, e) => s.tokenFault srcMatchEccC pcell e.tok
    | none => s
  | .double place => match at_ place with
    | some (i, e) =>
      let s := (s.dropEntry pcell i).tokenFault srcMatchEccU pcell e.tok
      if s.isSched pcell then s else s.wayFreed pcell (i / 8)
    | none => s

/-- The entries that the probes of a token read (R59, R61, R208): the ways of its pair set, then those of its latch set;
in a Scheduled cell the two halves of its matching slot. -/
def State.probed (s : State) (pcell : Nat) (t : Token) : List Nat :=
  if s.isSched pcell then (upTo 2).map (2 * (t.addr.toNat % 1024) + ·)
  else if t.port = 0 then []
  else
    let latch := (upTo 8).map (setOf t.flow 0 t.addr * 8 + ·)
    if t.port = 3 then latch else (upTo 8).map (setOf t.flow t.iteration t.addr * 8 + ·) ++ latch

/-- The checks of R42 on a token, for the id under which the cell works and the queue it came
through. -/
def tokenOk (t : Token) (workId : Option Nat) (sched onS : Bool) : Bool :=
  (t.fmt = 3 || (t.fmt = 2 && !t.ordered)) && decide (t.cls.toNat < 4)
    && (some t.cell.toNat = workId) && (!sched || onS || t.port = 3)

/-- A token that leaves its queue is checked and matched; none where it stays at the head. -/
def State.acceptToken (s : State) (pcell : Nat) (t : Token) (onS returned : Bool) (ecc : MatchEcc) :
    Option State :=
  let sched := s.isSched pcell
  if ¬ tokenOk t ((s.lidOf pcell).map s.workId) sched onS then
    some (s.raise srcTokenBad (cellMaster pcell) accToken (keyAddr t.flow t.addr) t.value)
  else
    let t := { t with fmt := 3 }
    let s := s.storeEcc pcell (s.probed pcell t) ecc
    if sched then some (s.arriveSched pcell t)
    else if t.port = 0 then
      if (s.cell pcell).readyFull then none else some (s.fire pcell (monoAct t))
    else if t.port = 3 then s.arriveLatch pcell t
    else s.arrivePaired pcell t returned

/-- A token enters the cell's own input queue ahead of network tokens (R71, R159). -/
def frontOf (q : List Intake) (x : Intake) : List Intake :=
  let own := q.takeWhile (fun i => match i with
    | .returned _ _ => true
    | .own _ => true
    | .network _ _ _ => false
    | .grant _ _ _ => false)
  own ++ x :: q.drop own.length

/-- The cell's trap tokens enter its input queue while one of its two credits is free (R159, R237). -/
def Cell.fillOwn (c : Cell) : Cell :=
  let inside := (c.inQ.filter (fun i => match i with
    | .own _ => true
    | _ => false)).length
  match c.trapQ with
  | t :: rest => if inside < 2 then { c with inQ := frontOf c.inQ (.own t), trapQ := rest } else c
  | [] => c

/-- The cell's own trap token fires in its TRAPPED activation (R143, R159). -/
def State.trapFire (s : State) (pcell : Nat) (t : Token) : Option State :=
  let c := s.cell pcell
  match (c.findDir t.flow t.iteration).bind (fun i => c.dir[i]?) with
  | some e =>
    if e.state = .done then some (s.frameMiss pcell (monoAct t))
    else if c.readyFull then none
    else some (s.pushReady pcell { monoAct t with trap := true })
  | none => some (s.frameMiss pcell (monoAct t))

/-- A cell takes tokens: it exists and is not stopped, and its cloud runs. -/
def State.cellRuns (s : State) (pcell : Nat) : Bool :=
  !(s.cell pcell).stopped && ((s.cloud (pcell / 16)).state = .run
    || (s.cloud (pcell / 16)).state = .drain)

/-- The partition of a cell is FAULTED (R361). -/
def State.inFaulted (s : State) (pcell : Nat) : Bool :=
  match s.partOfCell pcell with
  | some p => s.flt.faulted.getLsbD p
  | none => false

/-- A start or prefetch message that reaches a cell of a FAULTED partition opens no frame: its activation is aborted, and
its frame is free (R361). -/
def State.refuseStart (s : State) (pcell : Nat) (h : Header) : State :=
  match s.lidOf pcell with
  | some lid => (s.report (.abort lid h.flow h.iteration false)).report (.frameFree lid h.flow h.iteration)
  | none => s

/-- The prefetch message in a cell's slot is refused as a start message is; the cell reports its slot empty (R150, R361). -/
def State.refusePrefetch (s : State) (pcell : Nat) : State :=
  match (s.cell pcell).prefetchIn with
  | none => s
  | some (h, _) =>
    let s := (s.modCell pcell (fun c => { c with prefetchIn := none })).refuseStart pcell h
    match s.lidOf pcell with
    | some lid => s.report (.prefetchTaken lid)
    | none => s

/-- TOKEN_ACCEPT (R61): the cell accepts the token at the head of its Scheduled queue, else of its
token input queue (R241), checks it, and fires, waits, evicts a victim or refuses it. A start message
first opens its frame (R149). -/
def execTokenAccept (pcell : Nat) (ecc : MatchEcc) (s : State) : Out :=
  let c := s.cell pcell
  unitOk s (pcell < s.variant.pcells) <|
    if ¬ s.cellRuns pcell then s
    else match c.schedQ with
      | t :: rest =>
        ((s.modCell pcell (fun c => { c with schedQ := rest })).acceptToken pcell t true false
          ecc).getD s
      | [] =>
        match c.inQ with
        | .network t (some h) credit :: rest =>
          if s.inFaulted pcell then
            ((s.modCell pcell (fun c => { c with inQ := rest })).giveBack credit).refuseStart pcell h
          else
            (((s.modCell pcell (fun c => { c with inQ := rest }.openFrame h)).giveBack credit).acceptToken
              pcell t false false ecc).getD s
        | .network t none credit :: rest =>
          (((s.modCell pcell (fun c => { c with inQ := rest })).giveBack credit).acceptToken pcell t
            false false ecc).getD s
        | .returned t credit :: rest =>
          (((s.modCell pcell (fun c => { c with inQ := rest })).giveBack credit).acceptToken pcell t
            false true ecc).getD s
        | .own t :: rest =>
          (((s.modCell pcell (fun c => { c with inQ := rest })).trapFire pcell t).map
            (fun s => s.modCell pcell Cell.fillOwn)).getD s
        | .grant _ _ _ :: _ => s
        | [] => s

/-! ### The latch sweep (R48, R49) -/

/-- One entry that a sweep visits: a left token fires with the latch, a right token is discarded.
None where the ready queue is full. -/
def State.sweepEntry (s : State) (pcell i : Nat) (lat : Token) : Option State :=
  match tfind (s.cell pcell).store i with
  | some e =>
    if e.latch ∨ e.tok.flow ≠ lat.flow ∨ e.tok.addr ≠ lat.addr then some s
    else if e.tok.port = 2 then
      some (((s.dropEntry pcell i).tokenFault srcPortMix pcell e.tok).wayFreed pcell (i / 8))
    else if (s.cell pcell).readyFull then none
    else some (((s.dropEntry pcell i).fire pcell (latchAct e.tok lat)).wayFreed pcell (i / 8))
  | none => some s

/-- A sweep over listed entries; it stops where the ready queue is full, with the state so far. -/
def State.sweepOver (s : State) (pcell : Nat) (lat : Token) : List Nat → State × Bool
  | [] => (s, true)
  | i :: is =>
    match s.sweepEntry pcell i lat with
    | some s => s.sweepOver pcell lat is
    | none => (s, false)

/-- LATCH_SWEEP (R48): the sweep of the latch just written visits all sets; it goes on later where
the ready queue is full. -/
def execLatchSweep (pcell : Nat) (s : State) : Out :=
  unitOk s (pcell < s.variant.pcells) <|
    match (s.cell pcell).sweep with
    | none => s
    | some t =>
      if ¬ s.cellRuns pcell then s
      else match (s.cell pcell).findLatch t.flow t.addr with
        | none => s.modCell pcell (fun c => { c with sweep := none })
        | some (_, lat) =>
          let (s, done) := s.sweepOver pcell lat.tok ((s.cell pcell).store.map Prod.fst)
          if done then s.modCell pcell (fun c => { c with sweep := none }) else s

/-! ### Prefetch and pre-matched activations -/

/-- PREFETCH_MESSAGE (R150, R178): the header is written to the frame and the directory, and the start
firing waits in the prefetch slot. -/
def execPrefetchMessage (pcell : Nat) (s : State) : Out :=
  unitOk s (pcell < s.variant.pcells) <|
    match (s.cell pcell).prefetchIn with
    | some (h, t) =>
      if ¬ s.cellRuns pcell ∨ (s.cell pcell).prefetch.isSome then s
      else if s.inFaulted pcell then s.refusePrefetch pcell
      else s.modCell pcell (fun c =>
        { c.openFrame h with prefetchIn := none, prefetch := some (monoAct t) })
    | none => s

/-- PRE_MATCHED_ACTIVATION (R70, R74): the activation enters the ready queue without touching
level 1. -/
def execPreMatchedActivation (pcell : Nat) (s : State) : Out :=
  unitOk s (pcell < s.variant.pcells) <|
    match (s.cell pcell).preQ with
    | (a, credit) :: rest =>
      if ¬ s.cellRuns pcell ∨ (s.cell pcell).readyFull then s
      else ((s.modCell pcell (fun c => { c with preQ := rest })).giveBack credit).fire pcell a
    | [] => s

/-! ### The ager (R53, R54) -/

/-- What a visit finds of a waiting token (R53, R54): the entry with its past bit, and whether it is
late. A latch is not aged, and a token already late is not tested again. -/
def Entry.age (e : Entry) (now : Word) : Entry × Bool :=
  if e.latch then (e, false)
  else if (now - e.tok.stamp).toNat < 2 ^ 31 then ({ e with past := true }, false)
  else if e.past ∧ ¬ e.tok.late then ({ e with tok := { e.tok with late := true } }, true)
  else (e, false)

/-- The late policy that a cell holds for a flow (R55). -/
def Cell.policy (c : Cell) (flow : BitVec 12) : BitVec 2 :=
  tget (fun _ => 0) c.latePol flow.toNat

/-- One entry of a visited set is aged, and the flow's late policy applied (R54). R83 says that the late-drop counter is
read through the views and the spill registers, none of which has a field for it: it is counted, and no access reads
it (DESIGN CHOICE: log entry 125). -/
def State.ageEntry (s : State) (pcell : Nat) (sched : Bool) (i : Nat) : State :=
  match tfind (s.cell pcell).store i with
  | none => s
  | some e =>
    let (e, late) := e.age s.now
    let keep := s.modCell pcell (fun c => { c with store := tins c.store i e })
    if ¬ late then keep
    else match (s.cell pcell).policy e.tok.flow with
      | 0 => keep
      | 1 =>
        let s := s.modCell pcell (fun c => { c with
          store := terase c.store i, lateDrops := c.lateDrops + 1 })
        if sched then s else s.wayFreed pcell (i / 8)
      | _ =>
        let s := (s.dropEntry pcell i).tokenFault srcTokenLate pcell e.tok
        if sched then s else s.wayFreed pcell (i / 8)

/-- AGER_VISIT (R53): the ager visits the next set; it pauses during a latch sweep. -/
def execAgerVisit (pcell : Nat) (ecc : MatchEcc) (s : State) : Out :=
  let c := s.cell pcell
  let ways := (upTo 8).map (c.ager % 256 * 8 + ·)
  unitOk s (pcell < s.variant.pcells) <|
    if ¬ s.cellRuns pcell ∨ c.sweep.isSome then s
    else
      let s := s.storeEcc pcell ways ecc
      let sched := s.isSched pcell
      let s := ways.foldl (fun s i => s.ageEntry pcell sched i) s
      s.modCell pcell (fun c => { c with ager := (c.ager + 1) % 256 })

/-! ### Purges (R57) -/

/-- A purge names an entry: a waiting token of its key, or a latch of its flow. -/
def Purge.names (p : Purge) (e : Entry) : Bool :=
  e.tok.flow = p.flow && (match p.iteration with
    | none => true
    | some i => !e.latch && e.tok.iteration = i)

/-- The cell's store loses what a purge names; each token but a latch is reported as ORPHAN. -/
def State.purgeStore (s : State) (pcell : Nat) (p : Purge) : State :=
  let gone := (s.cell pcell).store.filter (fun e => p.names e.2)
  let sched := s.isSched pcell
  gone.foldl (fun s e =>
    let s := s.dropEntry pcell e.1
    let s := if e.2.latch then s else s.tokenFault srcOrphan pcell e.2.tok
    if sched then s else s.wayFreed pcell (e.1 / 8)) s

/-- PURGE (R57): the oldest purge of the cell removes the waiting tokens it names. In a Dynamic cell
it goes on to the spill engine, which completes it; in a Scheduled cell it is complete (R78). -/
def execPurge (at_ : CellRead) (s : State) : Out :=
  unitOk s (at_.pcell < s.variant.pcells) <|
    match (s.cell at_.pcell).purges with
    | p :: rest =>
      if ¬ s.cellRuns at_.pcell then s
      else
        let s := (s.modCell at_.pcell (fun c => { c with purges := rest })).storeEcc at_.pcell (upTo 2048) at_.ecc
        if s.isSched at_.pcell then
          let s := s.purgeStore at_.pcell p
          match s.lidOf at_.pcell with
          | some lid => s.report (.purgeDone lid p)
          | none => s
        else (s.purgeEngine at_.pcell p).purgeStore at_.pcell p
    | [] => s

end Sys2Proof.Machine
end

