-- ==== Sys2Proof/Machine/Strand.lean ====
section
/-! DEFINITION. Strands: their areas and frames (R148, R151), the requests and messages of a cell
(R239, R244, R314), traps and aborts (R159 to R162), locks held by a cell (R286, R287, R292), starts,
pre-emption and resumption (R147 to R156), and the answers that complete a waiting strand. -/

namespace Sys2Proof.Machine

/-! ### Who a cell is -/

/-- The station of a paired physical cell (R309). -/
def State.stationOf (s : State) (pcell : Nat) : Option Nat :=
  ((s.lidOf pcell).bind s.pairOf).map Prod.fst

/-- The cell is a half of a pair. -/
def State.isPaired (s : State) (pcell : Nat) : Bool := (s.stationOf pcell).isSome

/-- The cell is the checker of a pair. -/
def State.checks (s : State) (pcell : Nat) : Bool :=
  match s.lidOf pcell with
  | some lid => s.isChecker lid
  | none => false

/-- SS as the strand reads it: SS.slot reads 0 in a paired cell (R92, R325). -/
def State.ssOf (s : State) (pcell : Nat) (t : Strand) (slot : Nat) : Word :=
  t.ss (if s.isPaired pcell then 0 else slot)

/-! ### Requests and messages -/

/-- A packet that a cell launches from its own router. -/
def cellPacket (pcell : Nat) (dest : BitVec 5 × BitVec 4) (vc : Vc) (c : Cargo) : Packet :=
  { dcloud := dest.1, dcell := dest.2, vc, cargo := c, place := .router (pcell / 16) (pcell % 16)
    inPort := 0, la := 0, errs := [], hdrErrs := [], sender := pcell, credit := none }

/-- The lock word of a request (R284). -/
def lockWord (cell : Nat) (flow : BitVec 12) (cls waitId : Nat) : BitVec 64 :=
  BitVec.ofNat 64 (cell % 256 + flow.toNat * 256 + cls % 4 * 2 ^ 20 + waitId % 16 * 2 ^ 22)

/-- The lowest-numbered tag that is free (R239). -/
def Cell.freeTag (c : Cell) : Option Nat :=
  (upTo 16).find? (fun i => c.tags.all (fun o => o.tag ≠ i))

/-- The pair packet that carries a message of a strand in a paired cell (R314, R315). -/
def pairCargo (checker : Bool) (pid : Nat) (q : OutputSeq) (dest : BitVec 5 × BitVec 4) (vc : Vc)
    (m : Msg) : PairPacket :=
  { fseq := q.fseq, n := q.n, checker, kind := .message, pid := BitVec.ofNat 8 pid, flow := q.flow
    iteration := q.iteration, dcloud := dest.1, dcell := dest.2, vc, msg := some m, mirror := none, word := 0 }

/-- A message as a cell launches it: in a paired cell as a pair packet for its station (R314). -/
def State.outPacket (s : State) (pcell : Nat) (q : OutputSeq) (dest : BitVec 5 × BitVec 4) (vc : Vc) (m : Msg) : Packet :=
  match s.stationOf pcell with
  | none => cellPacket pcell dest vc (.plain m)
  | some st => cellPacket pcell (cloudStation, BitVec.ofNat 4 st) vc
      (.paired (pairCargo (s.checks pcell) (s.idOf pcell) q dest vc m))

/-- The sequence of a strand's output that is i places after those it has numbered (R316). -/
def Strand.seqAt (t : Strand) (i : Nat) : OutputSeq :=
  { fseq := t.fseq, n := BitVec.ofNat 8 (t.outputs + i), flow := t.flow, iteration := t.iteration }

/-- A message that a strand launches: the packet, and the strand with its output numbered where the
cell is paired (R314, R316). -/
def State.strandPacket (s : State) (pcell : Nat) (t : Strand) (dest : BitVec 5 × BitVec 4) (vc : Vc)
    (m : Msg) : Packet × Strand :=
  (s.outPacket pcell (t.seqAt 0) dest vc m,
    if s.isPaired pcell then
      { t with outputs := t.outputs + 1, unacked := t.unacked ++ [BitVec.ofNat 8 t.outputs] }
    else t)

/-- A pair packet of kind 1 to 3 that a paired cell sends to its station. -/
def State.pairSend (s : State) (pcell : Nat) (vc : Vc) (kind : PairKind) (t : Strand)
    (word : Word) : State :=
  match s.stationOf pcell with
  | none => s
  | some st =>
    let p := { pairCargo (s.checks pcell) (s.idOf pcell) (t.seqAt 0) (0, 0) vc (.event 0 0 0) with
      kind, msg := none, word }
    s.modCell pcell (fun c => { c with
      outQ := c.outQ ++ [cellPacket pcell (cloudStation, BitVec.ofNat 4 st) vc (.paired p)] })

/-! ### Strands of a cell -/

/-- Strands that wait for the cell's output may try again: an entry, a tag or an acknowledgement has come free (R239,
R244, R317). -/
def Cell.freeOutputs (c : Cell) : Cell :=
  { c with slots := c.slots.map (fun e =>
      (e.1, if e.2.wait = .output then { e.2 with wait := .nothing } else e.2)) }

/-- Every strand of a cell, in slots, resume list and debug list. -/
def Cell.strands (c : Cell) : List Strand := c.slots.map Prod.snd ++ c.resume ++ c.debugList

/-- The slot that holds a strand, by its number. -/
def Cell.slotOf (c : Cell) (uid : Nat) : Option Nat :=
  (c.slots.find? (fun e => e.2.uid = uid)).map Prod.fst

/-- A free entry of the list that suspended and debug-stopped strands share (R153, R320). -/
def Cell.listRoom (c : Cell) : Bool := decide (c.resume.length + c.debugList.length < 8)

/-- The cell without a strand; its area is free (R151). -/
def Cell.removeStrand (c : Cell) (t : Strand) : Cell :=
  let c := { c with
    slots := c.slots.filter (fun e => e.2.uid ≠ t.uid)
    resume := c.resume.filter (fun x => x.uid ≠ t.uid)
    debugList := c.debugList.filter (fun x => x.uid ≠ t.uid) }
  match c.findDir t.flow t.iteration with
  | some i => c.modDir i (fun e => { e with busy := e.busy &&& ~~~((1 : Byte) <<< t.area.toNat) })
  | none => c

/-- The trap notices of an activation leave once none of its strands is still to stop (R159 step 3, R327). -/
def State.sendNotices (s : State) (pcell : Nat) (flow : BitVec 12) (iteration : BitVec 16) : State :=
  let c := s.cell pcell
  let own (t : Strand) : Bool := t.flow = flow && t.iteration = iteration
  if c.strands.any (fun t => own t && t.dying) then s
  else
    let due := c.notices.filter (fun n => own n.1)
    let s := s.modCell pcell (fun c => { c with notices := c.notices.filter (fun n => !own n.1) })
    due.foldl (fun s n => s.pairSend pcell .s .trapNotice n.1 n.2) s

/-- The frame and its directory entry are freed when the activation is DONE or TRAPPED and no area is
busy, unless its trap token is still to start (R151, R159). -/
def State.frameCheck (s : State) (pcell : Nat) (flow : BitVec 12) (iteration : BitVec 16) : State :=
  let s := s.sendNotices pcell flow iteration
  let c := s.cell pcell
  match (c.findDir flow iteration).bind (fun i => c.dir[i]?) with
  | some e =>
    if e.scheduled ∨ e.state = .live ∨ e.busy ≠ 0 ∨ e.trapPending then s
    else
      let s := s.modCell pcell (fun c => { c with dir := c.dir.filter (fun d => d ≠ e) })
      match s.lidOf pcell with
      | some lid => s.report (.frameFree lid flow iteration)
      | none => s
  | none => s

/-- A strand ends: its area is free (R151). -/
def State.endStrand (s : State) (pcell : Nat) (t : Strand) : State :=
  (s.modCell pcell (fun c => c.removeStrand t)).frameCheck pcell t.flow t.iteration

/-- A strand is stopped before its end; a wait for a lock is cancelled at the bank (R159, R292). -/
def State.dropStrand (s : State) (pcell : Nat) (t : Strand) : State :=
  let cls := (s.cell pcell).eclass t
  let s := s.modCell pcell (fun c => c.removeStrand t)
  match t.wait with
  | .lock w _ ea => s.house pcell (.cancel w) ea 0x54 (lockWord (s.idOf pcell) t.flow cls w) (t.seqAt 0)
  | _ => s

/-- The strand waits for a remote answer, or counts as if it did (R138, R239, R244, R317). -/
def Strand.awaitsAnswer (t : Strand) : Bool :=
  match t.wait with
  | .remote _ | .output => true
  | .nothing | .lock _ _ _ | .iter _ _ | .divide _ _ _ | .brk => false

/-- A running strand is at a pre-emption point: its last instruction is no multiply, no REPU is in
progress, and it waits for no answer (R154). In a multiply's next position the definition of R154 and its list of
points disagree on a wait: LCK and ITER, whose X has written the pending value, are at a point there, and a FENCE,
which holds it, is not (DESIGN CHOICE: log entry 126). -/
def Strand.atPoint (t : Strand) : Bool :=
  t.mulPend.isNone && !t.repu && !t.awaitsAnswer &&
    match t.wait with
    | .divide _ _ kept => !kept
    | _ => true

/-! ### The instruction store (R84 to R86, R132) -/

/-- A parcel of the instruction store, its head bit in bit 16. -/
def Cell.parcel (c : Cell) (a : Nat) : BitVec 17 := tget (fun _ => 0) c.istore (a % 16384)

/-- An STI's window covers an instruction that starts at an address (R132). -/
def StiWindow.covers (w : StiWindow) (pc : BitVec 14) : Bool := decide ((pc - w.start).toNat < 8)

/-- The instruction word that a strand fetches at its program counter: the parcels as they stood
before its own STI where R132 says so, else as written. -/
def Cell.fetchWord (c : Cell) (t : Strand) : Word :=
  let at_ (i : Nat) : Nat :=
    match t.stiWins.find? (fun w => w.covers t.pc) with
    | some w => ((w.parcels.getD ((t.pc - w.start).toNat + i) 0).setWidth 16).toNat
    | none => ((c.parcel (t.pc.toNat + i)).setWidth 16).toNat
  BitVec.ofNat 32 (at_ 0 + at_ 1 * 65536)

/-- A 32-bit instruction starts with a parcel whose bits [15:14] are both 1 (R84). -/
def wordLen (w : Word) : Nat := if fld w 15 14 = 3 then 2 else 1

/-- FENCE's 32-bit word: major 0x0C, fn 6 (R102). -/
def isFence (w : Word) : Bool := fld w 15 0 = 0xCC00 && fld w 31 16 = 6

/-- BRK, in its 16-bit and its 32-bit form (R101, R102). -/
def isBrk (w : Word) : Bool :=
  fld w 15 0 = 0x0400 || (fld w 15 0 = 0xCC00 && fld w 31 16 = 8)

/-! ### Stopping strands (R159) -/

/-- One strand of an activation is stopped: at once when it is suspended, waits or stands at a
pre-emption point, else at its next point (R159). -/
def State.stopStrand (s : State) (pcell : Nat) (t : Strand) : State :=
  match (s.cell pcell).slotOf t.uid with
  | none => s.dropStrand pcell t
  | some slot =>
    let waits := decide (t.wait ≠ .nothing) || isFence ((s.cell pcell).fetchWord t)
    if waits ∨ t.atPoint then s.dropStrand pcell t
    else s.modCell pcell (fun c => c.putStrand slot { t with dying := true })

/-- The strands of an activation on a cell are stopped (R159 step 3). -/
def State.stopActivation (s : State) (pcell : Nat) (flow : BitVec 12) (iteration : BitVec 16) :
    State :=
  ((s.cell pcell).strands.filter (fun t => t.flow = flow && t.iteration = iteration)).foldl
    (fun s t => s.stopStrand pcell t) s

/-- Every held-lock entry of a flow is released with ABANDONED status (R287); in a paired cell the releases are numbered
on from a given output (R314; DESIGN CHOICE: log entry 22). -/
def State.releaseLocks (s : State) (pcell : Nat) (flow : BitVec 12) (q : OutputSeq) : State :=
  ((s.cell pcell).held.filter (fun h => h.flow = flow)).zipIdx.foldl
    (fun s h => s.house pcell (.release flow) h.1.addr 0x53 (lockWord (s.idOf pcell) flow 0 0)
      { q with n := q.n + BitVec.ofNat 8 h.2 }) s

/-- An activation is aborted on its cell (R159 step 4, R354): the dispatcher hears of it, or in a
Scheduled cell its flow counts as trapped until the next frame boundary (R213); its locks are
released. -/
def State.reportAbort (s : State) (pcell : Nat) (flow : BitVec 12) (iteration : BitVec 16)
    (hen : Bool) (q : OutputSeq) : State :=
  let s := if s.isSched pcell then
      s.modCell pcell (fun c => { c with engine := { c.engine with
        trapped := if flow ∈ c.engine.trapped then c.engine.trapped
          else c.engine.trapped ++ [flow] } })
    else match s.lidOf pcell with
      | some lid => s.report (.abort lid flow iteration hen)
      | none => s
  s.releaseLocks pcell flow q

/-- The causes of a trap (R135), with their codes (R160). -/
inductive TrapCause where
  | udf | align | access | window | limit | trap
  deriving DecidableEq, Repr

/-- The code of a cause (R160). -/
def TrapCause.code : TrapCause → Nat
  | .udf => 1 | .align => 2 | .access => 3 | .window => 4 | .limit => 5 | .trap => 6

/-- The trap word (R160). -/
def trapWord (cause : TrapCause) (double : Bool) (code : Nat) (pc : BitVec 14) : Word :=
  BitVec.ofNat 32 (cause.code + b2n double * 8 + code % 1024 * 256 + pc.toNat * 2 ^ 18)

/-- The access type of a trap's report (R162): fetch for UDF, read or write for ALIGN and ACCESS,
token otherwise. -/
def TrapCause.accessType (c : TrapCause) (write : Bool) : BitVec 3 :=
  match c with
  | .udf => accFetch
  | .align => if write then accWrite else accRead
  | .access => if write then accWrite else accRead
  | .window => accToken
  | .limit => accToken
  | .trap => accToken

/-- A trap of a strand in a slot (R159, R161). A paired cell sends a trap notice in place of a trap
token (R327). -/
def State.trapStrand (s : State) (pcell slot : Nat) (t : Strand) (cause : TrapCause) (code : Nat)
    (info : Word) (write : Bool) : State :=
  let c := s.cell pcell
  match (c.findDir t.flow t.iteration).bind (fun i => (c.dir[i]?).map (fun e => (i, e))) with
  | none => s.endStrand pcell t
  | some (i, e) =>
    let double := decide (e.state = .trapped)
    let paired := s.isPaired pcell
    let handler := e.hdr.hen && !double && !paired
    let w := trapWord cause double code t.pc
    let ss := s.ssOf pcell t slot
    let s := s.modCell pcell (fun c =>
      ((c.removeStrand t).putWords (e.hdr.base.toNat + 4) [w, ss, info]).modDir i (fun e =>
        { e with state := .trapped, trapPending := handler }))
    let s := s.raise srcCellTrap (cellMaster pcell) (cause.accessType write) info w
    let s := s.stopActivation pcell t.flow t.iteration
    let s := if double then s else s.reportAbort pcell t.flow t.iteration e.hdr.hen (t.seqAt 0)
    let s := if handler then
        let token : Token :=
          { value := w, stamp := t.stamp, flow := t.flow, iteration := t.iteration
            addr := e.hdr.handler, port := 0, cell := BitVec.ofNat 8 (s.idOf pcell), cls := 0
            pair := false, replay := false, spilled := false, late := false, ordered := false
            fmt := 3 }
        s.modCell pcell (fun c => { c with trapQ := c.trapQ ++ [token] }.fillOwn)
      else if paired then s.modCell pcell (fun c => { c with notices := c.notices ++ [(t, w)] })
      else s
    s.frameCheck pcell t.flow t.iteration

/-- The ABORT reaction on an activation (R354): as step 3 of R159, with no trap token. Answers none
where the cell holds no live activation of that name (R355). -/
def State.abortActivation (s : State) (pcell : Nat) (flow : BitVec 12) (iteration : BitVec 16) :
    Option State :=
  let c := s.cell pcell
  match c.findDir flow iteration with
  | none => none
  | some i =>
    if ¬ c.live flow iteration then none
    else
      let s := s.modCell pcell (fun c => c.modDir i (fun e => { e with state := .trapped }))
      let s := s.stopActivation pcell flow iteration
      let s := s.reportAbort pcell flow iteration false (.ofFlow flow)
      some (s.frameCheck pcell flow iteration)

/-! ### Halts and debug stops (R486 to R488) -/

/-- A partition is halted (R487): a Dynamic one at once, a Scheduled one at its next frame boundary
(R219). -/
def State.haltPartition (s : State) (p : Nat) : State :=
  if (s.partition p).sched then s.modPart p (fun q => { q with haltAsk := true })
  else
    ({ s with mode := { s.mode with halted := s.mode.halted ||| (1 : BitVec 8) <<< p } }).settle

/-- The partition of a cell is attached (R136). -/
def State.attachedCell (s : State) (pcell : Nat) : Bool :=
  match s.partOfCell pcell with
  | some p => s.mode.attached.getLsbD p
  | none => false

/-- What a strand waits for: a place in the debug list only while it stands at a BRK (R136, R487). -/
def Cell.waitNow (c : Cell) (t : Strand) : Wait :=
  if t.wait = .brk ∧ ¬ isBrk (c.fetchWord t) then .nothing else t.wait

/-- A strand stops for the debugger (R487): it is held in the debug list and its partition is halted,
or it waits in its slot while the list is full. The main of a pair sends a debug stop (R330). -/
def State.debugHold (s : State) (pcell slot : Nat) (t : Strand) : State :=
  if (s.cell pcell).listRoom then
    let t := { t with wait := .nothing, stepping := false }
    let s := s.modCell pcell (fun c =>
      let c := { c with
        slots := c.slots.filter (fun e => e.2.uid ≠ t.uid), debugList := c.debugList ++ [t] }
      c.saveStrand t (if s.isPaired pcell then 0 else slot) 2)
    let s := match s.partOfCell pcell with
      | some p => s.haltPartition p
      | none => s
    if s.isPaired pcell && !s.checks pcell then
      s.pairSend pcell .s .debugStop t (BitVec.ofNat 32 t.executed)
    else s
  else s.modCell pcell (fun c => c.putStrand slot { t with wait := .brk })

/-! ### Completing an instruction -/

/-- The pending multiply value is written to PL and PH (R106, R152). -/
def Strand.flushMul (t : Strand) : Strand :=
  match t.mulPend with
  | some v => { t with
      pl := v.setWidth 32, ph := (v >>> 32).setWidth 32, mulPend := none }
  | none => t

/-- The program counter after an instruction of a length, or at a target; inside a repeat, the next
repetition or the instruction after the body (R111). STI windows last while execution goes on in
sequence inside them (R132). -/
def Strand.advance (t : Strand) (len : Nat) (target : Option (BitVec 14)) : Strand :=
  let next := t.pc + BitVec.ofNat 14 len
  let t := { t with executed := t.executed + 1 }
  if t.rep then
    let t := { t with rc := t.rc - 1, k := t.k + 1 }
    if t.rc = 0 then { t with rep := false, repu := false, steps := 0, pc := next } else t
  else
    match target with
    | some a => { t with pc := a, stiWins := [] }
    | none => { t with pc := next, stiWins := t.stiWins.filter (fun w => w.covers next) }

/-- What follows an instruction of a strand in a slot: a strand fired as a single node ends, a strand
of an aborted activation stops at its point, a stepped strand stops again (R87, R159, R488). -/
def State.settleStrand (s : State) (pcell slot : Nat) (t : Strand) (sent : Bool) : State :=
  if t.single then s.endStrand pcell t
  else if t.dying ∧ t.atPoint then
    (s.dropStrand pcell t).frameCheck pcell t.flow t.iteration
  else if t.stepping ∧ (¬ s.isPaired pcell ∨ sent) then s.debugHold pcell slot t
  else s.modCell pcell (fun c => c.putStrand slot t)

/-- The strand stands at or past the main's latest debug stop for its firing, beyond which a checker
does not execute (R330). -/
def Cell.heldByStop (c : Cell) (t : Strand) : Bool :=
  match c.stops.find? (fun e => e.1 = t.fseq) with
  | some e => decide (e.2 ≤ t.executed)
  | none => false

/-- A strand at a FENCE passes it once none of its requests is outstanding (R123); after a posted
store that was answered with an error the FENCE traps (R277). -/
def State.passFences (s : State) (pcell slot : Nat) : Nat → State
  | 0 => s
  | n + 1 =>
    let c := s.cell pcell
    match c.strand slot with
    | none => s
    | some t =>
      if c.waitNow t = .nothing ∧ ¬ t.rep ∧ isFence (c.fetchWord t) ∧ ¬ c.heldByStop t
          ∧ c.tags.all (fun o => o.uid ≠ t.uid) then
        match t.postErr with
        | some ea => s.trapStrand pcell slot t.flushMul .access 0 ea true
        | none =>
          (s.settleStrand pcell slot ({ t with wait := .nothing }.flushMul.advance 2 none) false).passFences pcell slot n
      else s

/-- The strand in a slot passes the FENCEs that it stands at: at most as many as the store holds words. -/
def State.pass (s : State) (pcell slot : Nat) : State := s.passFences pcell slot 8192

/-- Every strand in a slot passes the FENCEs that it stands at. -/
def State.passAll (s : State) (pcell : Nat) : State := (upTo 8).foldl (fun s i => s.pass pcell i) s

/-- An instruction of a strand is complete. -/
def State.completeInstr (s : State) (pcell slot : Nat) (t : Strand) (sent : Bool) : State :=
  (s.settleStrand pcell slot t sent).pass pcell slot

/-! ### Starts (R147, R148) -/

/-- A cell's Dynamic partition is halted, so that it takes no start (R487). -/
def State.noStarts (s : State) (pcell : Nat) : Bool :=
  match s.partOfCell pcell with
  | some p => !(s.partition p).sched && s.mode.halted.getLsbD p
  | none => false

/-- The frame of a firing has no free area, so that it is passed over (R147). -/
def Cell.noArea (c : Cell) (a : Activation) : Bool :=
  match (c.findDir a.flow a.iteration).bind (fun i => c.dir[i]?) with
  | some e => e.freeArea.isNone
  | none => false

/-- The first activation of the ready queue that may start, with its place; an ordered one that is
passed over holds back the later ordered ones of its flow (R147). -/
def Cell.nextReady (c : Cell) : List (BitVec 12) → Nat → List Activation → Option (Nat × Activation)
  | _, _, [] => none
  | heldBack, n, a :: rest =>
    if a.ordered ∧ a.flow ∈ heldBack then c.nextReady heldBack (n + 1) rest
    else if c.noArea a then
      c.nextReady (if a.ordered then a.flow :: heldBack else heldBack) (n + 1) rest
    else some (n, a)

/-- A start: a suspended strand, the prefetch slot, or an entry of the ready queue. -/
inductive Start where
  | resume (t : Strand)
  | prefetch (a : Activation)
  | ready (index : Nat) (a : Activation)
  deriving DecidableEq, Repr

/-- The better of two suspended strands: class, then sort key, then the list's order (R147). -/
def Cell.bestResume (c : Cell) (now : Word) : List Strand → Option Strand
  | [] => none
  | t :: rest =>
    match c.bestResume now rest with
    | none => if t.wait = .nothing then some t else none
    | some u =>
      if t.wait ≠ .nothing then some u
      else if c.eclass u < c.eclass t ∨
          (c.eclass u = c.eclass t ∧ sortKey now u.stamp < sortKey now t.stamp) then some u
      else some t

/-- The best firing: the prefetch slot, or the ready queue by R74 (R147). -/
def State.bestFiring (s : State) (pcell : Nat) : Option Start :=
  let c := s.cell pcell
  if s.noStarts pcell then none
  else
    let pf := c.prefetch.filter (fun a => !c.noArea a)
    match pf, c.nextReady [] 0 c.readyQ with
    | none, none => none
    | some p, none => some (.prefetch p)
    | none, some (i, a) => some (.ready i a)
    | some p, some (i, a) => if goesBefore s.now a p then some (.ready i a) else some (.prefetch p)

/-- The class of a firing that waits is its own (R147). -/
def Start.cls (c : Cell) : Start → Nat
  | .resume t => c.eclass t
  | .prefetch a => a.cls.toNat
  | .ready _ a => a.cls.toNat

/-- The best start candidate of a cell (R147). -/
def State.bestStart (s : State) (pcell : Nat) : Option Start :=
  let c := s.cell pcell
  match c.bestResume s.now c.resume, s.bestFiring pcell with
  | none, f => f
  | some t, none => some (.resume t)
  | some t, some f => if f.cls c < c.eclass t then some f else some (.resume t)

/-- A firing leaves the prefetch slot or the ready queue; the cell reports a prefetch taken (R150). -/
def State.takeFiring (s : State) (pcell : Nat) (st : Start) : State :=
  match st with
  | .resume _ => s
  | .prefetch _ =>
    let s := s.modCell pcell (fun c => { c with prefetch := none })
    match s.lidOf pcell with
    | some lid => s.report (.prefetchTaken lid)
    | none => s
  | .ready i _ => s.modCell pcell (fun c => { c with readyQ := c.readyQ.eraseIdx i })

/-- A firing is loaded into a slot (R148); one whose activation does not accept it is discarded with
FRAME_MISS (R143). -/
def State.loadFiring (s : State) (pcell slot : Nat) (a : Activation) : State :=
  let c := s.cell pcell
  match (c.findDir a.flow a.iteration).bind (fun i => (c.dir[i]?).map (fun e => (i, e))) with
  | none => s.frameMiss pcell a
  | some (i, e) =>
    match e.freeArea with
    | none => s.frameMiss pcell a
    | some j =>
      if ¬ (e.state = .live ∨ (a.trap ∧ e.state = .trapped)) then s.frameMiss pcell a
      else
        let base := e.hdr.areaBase j
        let rb := base + e.hdr.areaWords.toNat - 16
        let t : Strand :=
          { uid := c.nextUid, flow := a.flow, iteration := a.iteration, start := a.addr
            cls := a.cls, stamp := a.stamp, late := a.late, ordered := a.ordered, pair := a.pair
            replay := a.replay, atomic := e.hdr.atomic, area := BitVec.ofNat 3 j
            pc := a.addr, b := BitVec.ofNat 14 base, f := BitVec.ofNat 14 base
            l := BitVec.ofNat 14 (base + e.hdr.winWords.toNat), rb := BitVec.ofNat 14 rb
            lk := 0, pl := 0, ph := 0, qt := 0, md := 0, rc := 0, user := 0, depth := 0
            rep := false, repu := false, k := 0, steps := 0, si := a.iteration, mulPend := none
            single := (c.parcel a.addr.toNat).getLsbD 16 = false, wait := .nothing
            postErr := none, stiWins := [], stepping := false, passBrk := false, executed := 0
            fseq := a.fseq, outputs := 0, unacked := [], dying := false }
        let s := s.modCell pcell (fun c =>
          let c := c.modDir i (fun e => { e with
            busy := e.busy ||| (1 : Byte) <<< j, trapPending := e.trapPending && !a.trap })
          let c := (((c.putWord base a.w0).putWord (base + 1) a.w1).putWord (base + 23)
            (BitVec.ofNat 32 (4 * rb)))
          let c := (c.putWords rb [a.stamp, t.s1 1]).putWords (rb + 11) [e.hdr.base.setWidth 32, 0, 0, 0, 0]
          { c.putStrand slot t with nextUid := c.nextUid + 1 })
        s.pass pcell slot

/-- STRAND_START (R147, R148): a free slot takes the best start candidate, a firing. -/
def execStrandStart (pcell : Nat) (s : State) : Out :=
  unitOk s (pcell < s.variant.pcells) <|
    if ¬ s.cellRuns pcell then s
    else match (s.cell pcell).freeSlot, s.bestStart pcell with
      | some slot, some (.prefetch a) =>
        (s.takeFiring pcell (.prefetch a)).loadFiring pcell slot a
      | some slot, some (.ready i a) =>
        (s.takeFiring pcell (.ready i a)).loadFiring pcell slot a
      | _, _ => s

/-! ### Pre-emption (R153 to R155) -/

/-- A strand may be the victim of a pre-emption (R153). -/
def Cell.mayYield (c : Cell) (t : Strand) : Bool :=
  decide (c.eclass t ≠ 0) && !t.awaitsAnswer

/-- The victim among numbered strands: highest class, then largest sort key, then highest slot
(R155). -/
def Cell.victimStrand (c : Cell) (now : Word) : List (Nat × Strand) → Option (Nat × Strand)
  | [] => none
  | (i, t) :: rest =>
    match c.victimStrand now rest with
    | none => if c.mayYield t then some (i, t) else none
    | some (j, u) =>
      if c.mayYield t ∧ (c.eclass u < c.eclass t ∨
          (c.eclass u = c.eclass t ∧ sortKey now u.stamp < sortKey now t.stamp)) then some (i, t)
      else some (j, u)

/-- The state code of a suspended strand (S1.state). -/
def Strand.suspendCode (t : Strand) : Nat :=
  match t.wait with
  | .lock _ _ _ => 3
  | .iter _ _ => 4
  | _ => 2

/-- PREEMPTION (R153, R155): a U firing takes the slot of the victim strand, which is saved to the
resume list once it is at a pre-emption point; a divide is abandoned. -/
def execPreemption (pcell : Nat) (s : State) : Out :=
  let c := s.cell pcell
  unitOk s (pcell < s.variant.pcells) <|
    if ¬ s.cellRuns pcell ∨ c.slots.length < 8 ∨ ¬ c.listRoom then s
    else
      let go (st : Start) (a : Activation) : State :=
        if a.cls ≠ 0 then s
        else match c.victimStrand s.now c.slots with
          | none => s
          | some (slot, v) =>
            if ¬ v.atPoint then s
            else
              let v := match v.wait with
                | .divide _ _ _ => { v with wait := .nothing }
                | .brk => { v with wait := .nothing }
                | _ => v
              let s := s.modCell pcell (fun c =>
                let c := { c with
                  slots := c.slots.filter (fun e => e.1 ≠ slot), resume := c.resume ++ [v] }
                c.saveStrand v (if s.isPaired pcell then 0 else slot) v.suspendCode)
              (s.takeFiring pcell st).loadFiring pcell slot a
      match s.bestStart pcell with
      | some (.prefetch a) => go (.prefetch a) a
      | some (.ready i a) => go (.ready i a) a
      | _ => s

/-! ### Resumption (R156) -/

/-- A suspended strand with S2 to S10 read back from its record (R146). -/
def Cell.restoreStrand (c : Cell) (t : Strand) : Strand :=
  let w (i : Nat) := c.word (t.rb.toNat + i)
  let ss := w 9
  { t with
    pc := BitVec.ofNat 14 (fld (w 2) 13 0), b := BitVec.ofNat 14 (fld (w 2) 29 16), lk := w 3
    pl := w 4, ph := w 5, qt := w 6, md := w 7, rc := w 8, k := BitVec.ofNat 6 (fld ss 5 0)
    rep := fld ss 6 6 = 1, repu := fld ss 7 7 = 1, depth := BitVec.ofNat 5 (fld ss 15 11)
    user := BitVec.ofNat 8 (fld ss 31 24), si := BitVec.ofNat 16 (fld (w 10) 15 0) }

/-- STRAND_RESUME (R156): a suspended strand that wins a free slot takes its state back. S1.state of its record is 1
again, running; the manual names no write of S1 on resume (DESIGN CHOICE: log entry 127). -/
def execStrandResume (pcell : Nat) (s : State) : Out :=
  let c := s.cell pcell
  unitOk s (pcell < s.variant.pcells) <|
    if ¬ s.cellRuns pcell then s
    else match c.freeSlot, s.bestStart pcell with
      | some slot, some (.resume t) =>
        let t := c.restoreStrand t
        (s.modCell pcell (fun c =>
          let c := { c with resume := c.resume.filter (fun x => x.uid ≠ t.uid) }
          (c.putStrand slot t).putWord (t.rb.toNat + 1) (t.s1 1))).pass pcell slot
      | _, _ => s

end Sys2Proof.Machine
end

