-- ==== Sys2Proof/Machine/Flow.lean ====
section
/-! DEFINITION. The dispatcher's decisions (R164 to R192): the flow table in global memory, trace records,
code groups and granules, the choice of a cell, starts and ITER grants, purges, and the flows that
wait. The commands that reach the dispatcher are in Dispatcher. -/

namespace Sys2Proof.Machine

/-! ### Global memory of the root units -/

/-- Bytes of global memory. -/
def globBytes : Nat := 0x300000

/-- A root unit writes whole words of global memory; their poison is cleared (R272). -/
def State.globWrite (s : State) (a : Nat) (bs : List Byte) : State :=
  { s with mem := { s.mem with
      glob := mwrite s.mem.glob a bs
      poison := s.mem.poison.filter (fun p => ¬ (p.1 = 18 ∧ a ≤ 4 * p.2 ∧ 4 * p.2 + 4 ≤ a + bs.length)) } }

/-! ### The flow table (R167) -/

/-- A word of a flow's entry. -/
def State.flowW (s : State) (f w : Nat) : Word := mword s.mem.glob (f * 64 + w * 4)

/-- A field of a flow's entry. -/
def State.flowF (s : State) (f w hi lo : Nat) : Nat := fld (s.flowW f w) hi lo

/-- A word of a flow's entry is replaced. -/
def State.setFlowW (s : State) (f w : Nat) (v : Word) : State :=
  s.globWrite (f * 64 + w * 4) (leBytes 4 v.toNat)

/-- A field of a flow's entry is replaced. -/
def State.setFlowF (s : State) (f w hi lo x : Nat) : State :=
  s.setFlowW f w (putFld (s.flowW f w) hi lo x)

/-- A flow's class. -/
def State.flowClass (s : State) (f : Nat) : Nat := s.flowF f 0 4 3

/-- A logical cell belongs to a code group (DSP_GROUP). -/
def State.inGroup (s : State) (g lid : Nat) : Bool :=
  s.regF (aDspGroup g (lid / 32)) (lid % 32) (lid % 32) = 1

/-- The logical cells of a code group, rising. -/
def State.groupCells (s : State) (g : Nat) : List Nat :=
  (upTo s.variant.lcells).filter (fun lid => s.inGroup g lid)

/-- The cells of a flow's code group. -/
def State.flowCells (s : State) (f : Nat) : List Nat := s.groupCells (s.flowF f 0 21 16)

/-- The partition of a flow, through the cells of its code group (R169). -/
def State.flowPart (s : State) (f : Nat) : Option Nat := (s.flowCells f).head?.bind s.partOf

/-! ### Trace records (R192) -/

/-- The reasons of trace records, by code (R192). -/
inductive Reason where
  | actAffine | actHome | actLoad | queue | hold | spill | return_ | merge | done | abort | purge
  | iter | boost | unboost | refuse | flowCfg
  deriving DecidableEq, Repr

/-- The code of a reason. -/
def Reason.code : Reason → Nat
  | .actAffine => 0 | .actHome => 1 | .actLoad => 2 | .queue => 3 | .hold => 4 | .spill => 5
  | .return_ => 6 | .merge => 7 | .done => 8 | .abort => 9 | .purge => 10 | .iter => 11
  | .boost => 12 | .unboost => 13 | .refuse => 14 | .flowCfg => 15

/-- A counter of the dispatcher rises (DSP_CNT). -/
def State.dspCount (s : State) (k : Nat) : State := s.bump (aDspCnt k)

/-- The live activations of a logical cell (DSP_CELL.live): its allocated frames (R181). -/
def State.liveCount (s : State) (lid : Nat) : Nat :=
  (s.dsp.frames.filter (fun r => r.lid = lid)).length

/-- The records that the global trace buffer holds (DSP_TRC.size). -/
def State.traceCap (s : State) : Nat := s.regF aDspTrc 27 16 * 64

/-- A record enters the global trace buffer, and the host log ring where it is copied there; one that
finds the buffer full is dropped, and so is one whose place lies past the end of global memory (DESIGN CHOICE: log entry
157). Answers whether it was written. -/
def State.putTrace (s : State) (rec_ : Nat) (kind : Byte) : State × Bool :=
  let a := s.regF aDspTrc 11 0 * 1024 + s.dsp.tracePos % s.traceCap * 16
  if s.traceCap ≤ s.dsp.trace.length ∨ globBytes < a + 16 then (s, false)
  else
    let body := leBytes 16 rec_
    let s := s.globWrite a body
    let s := { s with dsp := { s.dsp with
        trace := s.dsp.trace ++ [BitVec.ofNat 128 rec_]
        tracePos := (s.dsp.tracePos + 1) % s.traceCap } }
    (if s.regF aDspCtrl 1 1 = 1 then s.logField kind body else s, true)

/-- What a trace record says besides its flow and its reason. -/
structure TraceInfo where
  lid       : Nat := 0
  src       : Nat := 0
  iteration : Nat := 0
  local_    : Option Bool := none
  pf        : Bool := false
  deriving DecidableEq, Repr

/-- A decision is traced where its reason is enabled (R192). Where no cell is concerned the live field shows the live count of
logical cell 0, as the cell field shows 0 (DESIGN CHOICE: log entry 157). -/
def State.trace (s : State) (r : Reason) (f : Nat) (i : TraceInfo) : State :=
  if s.regF aDspCtrl 0 0 = 0 ∨ s.regF aDspTmask r.code r.code = 0 then s
  else
    let w2 := f % 4096 + r.code * 2 ^ 12 + i.lid % 256 * 2 ^ 16 + s.flowClass f * 2 ^ 24
      + b2n i.pf * 2 ^ 26 + i.src % 8 * 2 ^ 28
    let w3 := i.iteration % 65536 + s.flowF f 8 23 16 * 2 ^ 16 + s.liveCount i.lid % 256 * 2 ^ 24
    let rec_ := timeWord s.zen.count (i.local_.getD s.isLocal) + w2 * 2 ^ 64 + w3 * 2 ^ 96
    match s.putTrace rec_ 2 with
    | (s, true) => s.dspCount 14
    | (s, false) => s.dspCount 13

/-- The oldest record leaves the global trace buffer for the circular DRAM region, or is discarded
where that has no size or runs past the usable DRAM (R192, R278). -/
def State.drainTrace (s : State) : State :=
  match s.dsp.trace with
  | [] => s
  | r :: rest =>
    let s := { s with dsp := { s.dsp with trace := rest } }
    let n := s.regF aDspTrcd 23 16 * 65536
    if n = 0 then s
    else
      let a := s.regF aDspTrcd 11 0 * 2 ^ 20 + s.dsp.traceDram % n * 16
      let dsp := { s.dsp with traceDram := (s.dsp.traceDram + 1) % n }
      if s.variant.dramBytes < a + 16 then { s with dsp }
      else { s with mem := { s.mem with dram := mwrite s.mem.dram a (leBytes 16 r.toNat) }, dsp }

/-! ### Queues of a flow (R171, R187, R188) -/

/-- The pending activations of a flow on chip, oldest first. -/
def State.pend (s : State) (f : Nat) : List PendAct := tget (fun _ => []) s.dsp.onChip f

/-- The pending activations of a flow in DRAM, oldest first. -/
def State.spilled (s : State) (f : Nat) : List PendAct := tget (fun _ => []) s.dsp.inDram f

/-- The waiting ITER requests of a flow, oldest first. -/
def State.iterWaits (s : State) (f : Nat) : List IterReq := tget (fun _ => []) s.dsp.iterQ f

/-- A flow's on-chip queue is replaced; qdepth shows its length. -/
def State.setPend (s : State) (f : Nat) (q : List PendAct) : State :=
  let s := { s with dsp := { s.dsp with onChip := tset (fun _ => []) s.dsp.onChip f q } }
  s.setFlowF f 8 23 16 q.length

/-- A flow's queue in DRAM is replaced; ovfdepth shows its length. -/
def State.setSpilled (s : State) (f : Nat) (q : List PendAct) : State :=
  let s := { s with dsp := { s.dsp with inDram := tset (fun _ => []) s.dsp.inDram f q } }
  s.setFlowF f 9 23 0 q.length

/-- A flow's queue of ITER requests is replaced. -/
def State.setIterWaits (s : State) (f : Nat) (q : List IterReq) : State :=
  { s with dsp := { s.dsp with iterQ := tset (fun _ => []) s.dsp.iterQ f q } }

/-- Entries of the pool in use (R171). -/
def State.poolUsed (s : State) : Nat := (s.dsp.onChip.map (fun e => e.2.length)).sum

/-- A flow's on-chip queue is full (R171). -/
def State.pendFull (s : State) (f : Nat) : Bool :=
  decide (s.flowF f 0 31 24 ≤ (s.pend f).length) || decide (16384 ≤ s.poolUsed)

/-- The overflow area has a free entry (R188). -/
def State.ovfRoom (s : State) : Bool :=
  decide ((s.dsp.inDram.map (fun e => e.2.length)).sum < s.regF aDspOvf 23 16 * 65536)

/-- DRAM entries of a flow move to its on-chip queue while it has room, oldest first (R188). -/
def State.returnPend : Nat → State → Nat → State
  | 0, s, _ => s
  | n + 1, s, f =>
    match s.spilled f with
    | [] => s
    | p :: rest =>
      if s.pendFull f then s
      else
        let s := ((s.setSpilled f rest).setPend f (s.pend f ++ [p])).dspCount 4
        State.returnPend n
          (s.trace .return_ f { src := p.src.toNat, local_ := some p.local_ }) f

/-! ### Cells and frames (R174 to R177) -/

/-- The granules of a flow's frame (R177). -/
def State.frameGranules (s : State) (f : Nat) : Nat :=
  (16 + (s.flowF f 5 2 0 + 1) * s.flowF f 4 13 0 + 63) / 64

/-- The granules reserved at the bottom of a cell's frame store (DSP_PCFG.fres). -/
def State.reserved (s : State) (lid : Nat) : Nat :=
  match s.partOf lid with
  | some p => s.regF (aDspPcfg p) 7 0
  | none => 0

/-- A granule of a cell is free. -/
def State.granuleFree (s : State) (lid g : Nat) : Bool :=
  decide (s.reserved lid ≤ g ∧ g < 256) &&
    s.dsp.frames.all (fun r => r.lid ≠ lid || g < r.granule || r.granule + r.len ≤ g)

/-- The free granules of a cell (DSP_CELL.free). -/
def State.freeGranules (s : State) (lid : Nat) : Nat :=
  ((upTo 256).filter (fun g => s.granuleFree lid g)).length

/-- The lowest-numbered run of free granules that is long enough (R177). -/
def State.freeRun (s : State) (lid len : Nat) : Option Nat :=
  (upTo 256).find? (fun g => (upTo len).all (fun i => s.granuleFree lid (g + i)))

/-- The state of the cloud that holds a logical cell. -/
def State.cloudStateOf (s : State) (lid : Nat) : CloudState :=
  match s.placeOf lid with
  | some p => (s.cloud (p / 16)).state
  | none => .off

/-- A partition is halted (R487). -/
def State.partHalted (s : State) (p : Nat) : Bool := s.mode.halted.getLsbD p

/-- A logical cell is mapped out or fenced: no good cell holds its id (R334, R359). -/
def State.cellGone (s : State) (lid : Nat) : Bool :=
  match s.placeOf lid with
  | some p => decide (p ∈ s.rep.failed) || decide (p ∈ s.rep.fenced)
  | none => true

/-- The conditions of R174 but membership of the code group and the drain. -/
def State.cellFits (s : State) (lid len : Nat) : Bool :=
  (match s.partOf lid with
    | some p => !(s.partition p).sched && !s.partHalted p
    | none => false)
  && !s.cellGone lid
  && (match s.cloudStateOf lid with
    | .run | .drain | .waking | .parked => true
    | .off | .test | .fenced => false)
  && decide (s.liveCount lid < 128)
  && (s.freeRun lid len).isSome

/-- A cell of its code group is available to a flow (R174). -/
def State.available (s : State) (f lid : Nat) : Bool :=
  s.inGroup (s.flowF f 0 21 16) lid && decide (lid ∉ s.dsp.drain)
    && s.cellFits lid (s.frameGranules f)

/-- The cell with the fewest live activations, ties to the lowest logical id. -/
def State.leastLoaded (s : State) : List Nat → Option Nat
  | [] => none
  | a :: rest =>
    match s.leastLoaded rest with
    | some b => if s.liveCount b < s.liveCount a then some b else some a
    | none => some a

/-- The choice among cells: last, home, or the least loaded (R175). -/
def State.chooseAmong (s : State) (f : Nat) (cells : List Nat) : Option (Nat × Reason) :=
  let cold := s.flowF f 5 24 24 = 1
  let last := s.flowF f 5 23 16
  let home := s.flowF f 5 15 8
  if ¬ cold ∧ last ∈ cells then some (last, .actAffine)
  else if cold ∧ home ∈ cells then some (home, .actHome)
  else (s.leastLoaded cells).map (fun c => (c, .actLoad))

/-- The cloud that holds a logical cell is PARKED, or drains for a park, whose cells have the lowest preference too (R175,
R254). -/
def State.parks (s : State) (lid : Nat) : Bool :=
  match s.placeOf lid with
  | some p =>
    let k := s.cloud (p / 16)
    decide (k.state = .parked) || decide (k.state = .drain ∧ k.cause = some .park)
  | none => false

/-- choose_cell (R175): a cell of a PARKED cloud is taken only when no other is available. -/
def State.chooseCell (s : State) (f : Nat) : Option (Nat × Reason) :=
  let all := (s.flowCells f).filter (fun lid => s.available f lid)
  let powered := all.filter (fun lid => !s.parks lid)
  match s.chooseAmong f powered with
  | some c => some c
  | none => s.chooseAmong f all

/-! ### Places and iterations (R172) -/

/-- A flow has a free place (R172). -/
def State.hasPlace (s : State) (f : Nat) : Bool :=
  s.flowF f 8 15 0 = 0 ||
    decide ((s.flowF f 7 15 0 + 65536 - s.flowF f 7 31 16) % 65536 < s.flowF f 0 11 8 + 1)

/-- The next iteration is allocated: its live bit is set (R172). -/
def State.allocIter (s : State) (f : Nat) : State :=
  let i := s.flowF f 7 15 0
  let s := if s.flowF f 8 15 0 = 0 then (s.setFlowF f 7 31 16 i).setFlowF f 8 15 0 1
    else s.setFlowF f 8 15 0
      (s.flowF f 8 15 0 ||| 2 ^ ((i + 65536 - s.flowF f 7 31 16) % 65536))
  s.setFlowF f 7 15 0 (i + 1)

/-- A purge of (flow, i) is outstanding (R182). -/
def State.purging (s : State) (f i : Nat) : Bool :=
  s.dsp.purges.any (fun r => r.purge.flow.toNat = f
    && r.purge.iteration = some (BitVec.ofNat 16 i))

/-- The header of an activation (R179). -/
def State.headerOf (s : State) (f i granule : Nat) : Header :=
  { flow := BitVec.ofNat 12 f, iteration := BitVec.ofNat 16 i
    cls := BitVec.ofNat 2 (s.flowClass f), atomic := s.flowF f 0 1 1 = 1
    base := BitVec.ofNat 14 (granule * 64), nareas := BitVec.ofNat 3 (s.flowF f 5 2 0)
    areaWords := BitVec.ofNat 14 (s.flowF f 4 13 0)
    winWords := BitVec.ofNat 14 (s.flowF f 4 29 16)
    handler := BitVec.ofNat 14 (s.flowF f 3 29 16), hen := s.flowF f 0 13 13 = 1 }

/-- A flow's next iteration opens on a cell: the iteration and a frame are allocated, and the counts
of started activations rise (R172, R177). Answers the header. -/
def State.openOn (s : State) (f lid : Nat) : Option (State × Header) :=
  match s.freeRun lid (s.frameGranules f) with
  | none => none
  | some g =>
    let i := s.flowF f 7 15 0
    let h := s.headerOf f i g
    let s := s.allocIter f
    let fr : FrameRec :=
      { lid, flow := BitVec.ofNat 12 f, iteration := BitVec.ofNat 16 i, granule := g
        len := s.frameGranules f }
    let s := { s with dsp := { s.dsp with frames := s.dsp.frames ++ [fr] } }
    some ((s.setFlowW f 10 (s.flowW f 10 + 1)).dspCount 1, h)

/-- The start firing of an activation (R179). -/
def State.startToken (s : State) (f lid : Nat) (h : Header) (p : PendAct) : Token :=
  { value := p.value, stamp := BitVec.ofNat 32 (p.time / 16 + s.flowF f 6 15 0)
    flow := BitVec.ofNat 12 f, iteration := h.iteration, addr := BitVec.ofNat 14 (s.flowF f 3 13 0)
    port := 0, cell := BitVec.ofNat 8 lid, cls := BitVec.ofNat 3 (s.flowClass f), pair := false
    replay := false, spilled := false, late := false, ordered := false, fmt := 3 }

/-- The oldest pending activation of a flow starts on a cell: a prefetch message where the class is
not U and the cell's prefetch slot is held as empty, else a start message (R175, R178, R179). -/
def State.startOn (s : State) (f lid : Nat) (r : Reason) (p : PendAct) (rest : List PendAct) :
    Option State :=
  (s.openOn f lid).map fun (s, h) =>
    let s := s.setPend f rest
    let s := (s.setFlowF f 5 23 16 lid).setFlowF f 5 24 24 0
    let t := s.startToken f lid h p
    let pf := decide (s.flowClass f ≠ 0) && decide (lid ∉ s.dsp.pfFull)
    let filled := { s with dsp := { s.dsp with pfFull := s.dsp.pfFull ++ [lid] } }
    let s := if pf then filled.dspCount 15 else s
    let s := { s with dsp := { s.dsp with noCell := s.dsp.noCell.filter (· ≠ BitVec.ofNat 12 f) } }
    let s := s.sendToLid lid .t (if pf then .prefetch h t else .start h t)
    let s := s.trace r f
      { lid, src := p.src.toNat, iteration := h.iteration.toNat, local_ := some p.local_, pf }
    State.returnPend 256 s f

/-- An ITER request is granted on its own cell (R185): drain and code group do not matter. With ovl = 0 none ever is (R186).
R185 names FLOW.acts among what a grant raises, and not last and cold: they stay (DESIGN CHOICE: log entry 134). -/
def State.tryGrant (s : State) (f : Nat) : Option State :=
  match s.iterWaits f with
  | [] => none
  | q :: rest =>
    if s.flowF f 0 11 8 = 0 ∨ s.purging f (s.flowF f 7 15 0) ∨ ¬ s.cellFits q.lid (s.frameGranules f) then none
    else (s.openOn f q.lid).map fun (s, h) =>
      let s := (s.setIterWaits f rest).dspCount 10
      let s := s.sendToLid q.lid .t (.grant h q.iteration)
      s.trace .iter f { lid := q.lid, src := 6, iteration := h.iteration.toNat }

/-- The oldest pending activation of a flow starts where a cell can be chosen (R172). -/
def State.tryPending (s : State) (f : Nat) : Option State :=
  match s.pend f with
  | [] => none
  | p :: rest =>
    match s.chooseCell f with
    | none => none
    | some (lid, r) => if s.purging f (s.flowF f 7 15 0) then none else s.startOn f lid r p rest

/-- DSP_NOCELL (R194): a pending activation, and every cell of the group fenced or mapped out; once
per episode. -/
def State.noCellCheck (s : State) (f : Nat) : State :=
  let fl := BitVec.ofNat 12 f
  match s.pend f with
  | [] => s
  | p :: _ =>
    if (s.flowCells f).all (fun lid => s.cellGone lid) then
      if fl ∈ s.dsp.noCell then s
      else
        let s := { s with dsp := { s.dsp with noCell := s.dsp.noCell ++ [fl] } }
        s.raise srcDspNocell masterDispatcher accToken (BitVec.ofNat 32 f)
          (BitVec.ofNat 32 p.src.toNat)
    else { s with dsp := { s.dsp with noCell := s.dsp.noCell.filter (· ≠ fl) } }

/-- The dispatcher accepts input (R189): the write phase of a LOAD is complete, and the module is not
in SAFE. -/
def State.dspOn (s : State) : Bool :=
  s.running || (decide (s.mode.mode = .load) && decide (s.mode.lstate = .done))

/-- try_start (R172, R173): while a place is free, the ITER request at the head of its queue takes it
where it can be granted, and a pending activation otherwise. -/
def State.tryStartN : Nat → State → Nat → State
  | 0, s, _ => s
  | n + 1, s, f =>
    if ¬ s.hasPlace f then s.noCellCheck f
    else match s.tryGrant f with
      | some s => State.tryStartN n s f
      | none =>
        match s.tryPending f with
        | some s => State.tryStartN n s f
        | none => s.noCellCheck f

/-- try_start of a flow (R172): at most sixteen places are free. -/
def State.tryStart (s : State) (f : Nat) : State :=
  if s.dspOn then State.tryStartN 17 s f else s

/-- Every flow that has something pending is tested for DSP_NOCELL: cells have been fenced or mapped out (R194). -/
def State.noCellAll (s : State) : State :=
  (s.dsp.onChip.map Prod.fst).foldl (fun s f => s.noCellCheck f) s

/-- try_start of every flow that has something waiting (R172, R181). -/
def State.tryAll (s : State) : State :=
  let flows := s.dsp.onChip.map Prod.fst ++ s.dsp.iterQ.map Prod.fst
  flows.foldl (fun s f => s.tryStart f) s

/-- Every flow with entries in DRAM takes back what its on-chip queue has room for (R188). -/
def State.returnAll (s : State) : State :=
  (s.dsp.inDram.map Prod.fst).foldl (fun s f => (State.returnPend 256 s f).tryStart f) s

/-! ### Purges (R181, R182) -/

/-- A PARKED cloud wakes (R256). -/
def State.wakeCloud (s : State) (c : Nat) : State :=
  if (s.cloud c).state = .parked then
    (s.modCloud c (fun k => { k with state := .waking })).bump (aJetCnt 6)
  else if (s.cloud c).state = .drain then s.modCloud c (fun k => { k with wakeAsk := true })
  else s

/-- A purge is sent to cells, and is outstanding until each of them has reported it complete (R182). A
cell that is mapped out or fenced answers none, and is left out. -/
def State.sendPurge (s : State) (p : Purge) (lids : List Nat) (src : Nat) : State :=
  let cells := lids.filter (fun lid => !s.cellGone lid)
  if cells = [] then s
  else
    let s := { s with dsp := { s.dsp with purges := s.dsp.purges ++ [{ purge := p, cells }] } }
    cells.foldl (fun s lid =>
      match s.placeOf lid with
      | none => s
      | some pc =>
        let s := (s.modCell pc (fun c => { c with purges := c.purges ++ [p] })).wakeCloud (pc / 16)
        (s.dspCount 9).trace .purge p.flow.toNat
          { lid, src, iteration := match p.iteration with
              | some i => i.toNat
              | none => 0 }) s

/-- The purge of (flow, all) that ends a flow's disabling (R184). -/
def State.purgeAll (s : State) (f : Nat) : State :=
  let fl := BitVec.ofNat 12 f
  let s := s.sendPurge { flow := fl, iteration := none } (s.flowCells f) 0
  if s.dsp.purges.any (fun r => r.purge = { flow := fl, iteration := none }) then s
  else { s with dsp := { s.dsp with disabling := s.dsp.disabling.filter (· ≠ fl) } }

/-- A cell no longer owes an outstanding purge; when no cell does, the purge is complete (R182). -/
def State.purgeDone (s : State) (lid : Nat) (p : Purge) : State :=
  let left := s.dsp.purges.map (fun r =>
    if r.purge = p then { r with cells := r.cells.erase lid } else r)
  let s := { s with dsp := { s.dsp with purges := left.filter (fun r => r.cells ≠ []) } }
  if s.dsp.purges.any (fun r => r.purge = p) then s
  else
    let s := match p.iteration with
      | none => { s with dsp := { s.dsp with
          disabling := s.dsp.disabling.filter (· ≠ p.flow) } }
      | some _ => s
    s.tryStart p.flow.toNat

/-! ### Completion and abort (R181) -/

/-- The lowest live bit of a flow, as the number of iterations past old_iter. -/
def State.lowestLive (s : State) (f : Nat) : Option Nat :=
  (upTo 16).find? (fun k => bitsOf (s.flowF f 8 15 0) k k = 1)

/-- An iteration completes (R181); one that is not live is traced as REFUSE. -/
def State.completeIter (s : State) (lid f i : Nat) : State :=
  let old := s.flowF f 7 31 16
  let d := (i + 65536 - old) % 65536
  if 16 ≤ d ∨ bitsOf (s.flowF f 8 15 0) d d = 0 then
    s.trace .refuse f { lid, src := 7, iteration := i }
  else
    let s := s.setFlowF f 8 15 0 (s.flowF f 8 15 0 - 2 ^ d)
    let s := if d ≠ 0 then s
      else match s.lowestLive f with
        | some k =>
          (s.setFlowF f 8 15 0 (s.flowF f 8 15 0 / 2 ^ k)).setFlowF f 7 31 16 (old + k)
        | none => s.setFlowF f 7 31 16 (s.flowF f 7 15 0)
    let s := (s.dspCount 7).trace .done f { lid, src := 7, iteration := i }
    let s := if BitVec.ofNat 12 f ∈ s.dsp.disabling ∧ s.flowF f 8 15 0 = 0 then s.purgeAll f else s
    s.tryStart f

/-- An activation is aborted (R181, R185): its keys are purged on its cell, the ITER requests that
name it are withdrawn, and with hen = 0 it counts as completed. -/
def State.abortIter (s : State) (lid f i : Nat) (hen : Bool) : State :=
  let fl := BitVec.ofNat 12 f
  let it := BitVec.ofNat 16 i
  let s := (s.dspCount 8).trace .abort f { lid, src := 7, iteration := i }
  let s := s.setIterWaits f ((s.iterWaits f).filter
    (fun q => ¬ (q.lid = lid ∧ q.iteration = it)))
  let s := { s with dsp := { s.dsp with
    iters := s.dsp.iters.filter (fun q => ¬ (q.lid = lid ∧ q.flow = fl ∧ q.iteration = it)) } }
  let s := { s with dsp := { s.dsp with purged := s.dsp.purged ++ [(fl, it)] } }
  let s := s.sendPurge { flow := fl, iteration := some it } [lid] 7
  if hen then s else s.completeIter lid f i

/-- A flow's pending activations are discarded, each traced as REFUSE (R184, R361); an episode of DSP_NOCELL ends with
them (R194). -/
def State.discardPending (s : State) (f : Nat) : State :=
  let all := s.pend f ++ s.spilled f
  let s := (s.setPend f []).setSpilled f []
  let s := { s with dsp := { s.dsp with noCell := s.dsp.noCell.filter (· ≠ BitVec.ofNat 12 f) } }
  all.foldl (fun s p => s.trace .refuse f { src := p.src.toNat, local_ := some p.local_ }) s

end Sys2Proof.Machine
end

