-- ==== Sys2Proof/Machine/Dispatcher.lean ====
section
/-! DEFINITION. The commands of the dispatcher: events (R164 to R170, R187), the reports of cells and
banks (R181, R190), ITER requests (R185), and the flow commands of the set-up window (R168, R169,
R184). -/

namespace Sys2Proof.Machine

/-! ### Events (R170, R187, R188) -/

/-- The flags of a flow satisfy its readiness condition (R170). -/
def State.flowReady (s : State) (f : Nat) (flags : Word) : Bool :=
  let mask := s.flowW f 1
  mask ≠ 0 && (if s.flowF f 0 2 2 = 1 then flags &&& mask ≠ 0 else flags &&& mask = mask)

/-- A source spills for a flow (R164): the inject ring and EVS, for class N or B. -/
def State.spillsFor (s : State) (src f : Nat) : Bool :=
  (src = 3 || src = 5) && decide (2 ≤ s.flowClass f)

/-- A source is held while a flow's on-chip queue is full: it holds for the flow, or the overflow area
has no room (R187, R188). -/
def State.holdsFor (s : State) (src f : Nat) : Bool := !s.spillsFor src f || !s.ovfRoom

/-- A flow's partition is FAULTED (R361). -/
def State.flowFaulted (s : State) (f : Nat) : Bool :=
  match s.flowPart f with
  | some p => s.flt.faulted.getLsbD p
  | none => false

/-- A pending activation joins its flow's queue, on chip or in DRAM, and try_start runs (R170, R187,
R188). -/
def State.appendPending (s : State) (src f : Nat) (p : PendAct) : State :=
  let i : TraceInfo := { src, local_ := some p.local_ }
  if s.pendFull f ∨ (s.spilled f ≠ [] ∧ s.spillsFor src f) then
    ((s.setSpilled f (s.spilled f ++ [p])).dspCount 3).trace .spill f i
  else
    let s := (s.setPend f (s.pend f ++ [p])).tryStart f
    if s.pend f = [] then s else s.trace .queue f i

/-- An event is handled (R170): none where it is held at the head of its queue. A decision that concerns no pending
activation, REFUSE or MERGE, is traced with the mark of the decision itself (R192). -/
def State.handleEvent (s : State) (src : Nat) (e : Event) : Option State :=
  let f := e.flow.toNat
  let i : TraceInfo := { src }
  if s.flowF f 0 0 0 = 0 then
    some (((s.dspCount 6).trace .refuse f i).raise srcDspEvtBad masterDispatcher accToken
      (BitVec.ofNat 32 f) (BitVec.ofNat 32 src))
  else if s.flowFaulted f then some ((s.dspCount 6).trace .refuse f i)
  else
    let flags := s.flowW f 2
    let bit : Word := (1 : Word) <<< e.flag.toNat
    let nf := flags ||| bit
    let ready := s.flowReady f nf
    if ready ∧ s.pendFull f ∧ s.holdsFor src f then none
    else
      let s := (s.setFlowW f 11 (s.flowW f 11 + 1)).dspCount 0
      let s := if flags &&& bit = 0 then s
        else
          let s := s.setFlowF f 8 31 24 (sat 255 (s.flowF f 8 31 24 + 1))
          (s.dspCount 5).trace .merge f i
      if ready then
        some ((s.setFlowW f 2 (nf &&& ~~~(s.flowW f 1))).appendPending src f
          { value := e.value, time := e.time, src := BitVec.ofNat 3 src, local_ := e.local_ })
      else some (s.setFlowW f 2 nf)

/-- An event's time and local mark: zenith's count at acceptance for serial ports, the inject ring and
EVS; its own for captures and timers (R164, R166). -/
def State.stampEvent (s : State) (src : Nat) (e : Event) : Event :=
  if src = 2 ∨ src = 3 ∨ src = 5 then { e with time := s.zen.count, local_ := s.isLocal } else e

/-- A hold begins: it is counted and traced once (R187). -/
def State.beginHold (s : State) (src : Nat) (e : Event) : State :=
  if tfind s.dsp.holding src = some e.flow then s
  else
    let s := { s with dsp := { s.dsp with holding := tins s.dsp.holding src e.flow } }
    (s.dspCount 2).trace .hold e.flow.toNat { src }

/-- A source's queue has taken an event: what waits behind it may enter (R187). -/
def State.refill (s : State) (src : Nat) : State :=
  match src with
  | 1 => s.pumpPins
  | 2 => s.pumpPorts
  | 4 => s.pumpTimers
  | _ => s

/-- No report and no ITER request waits, which the dispatcher serves first (R165). -/
def State.eventTurn (s : State) : Bool := s.dsp.reports.isEmpty && s.dsp.iters.isEmpty

/-- A source has an event that can be served: its queue is not held, or the hold has still to begin or can end (R187). -/
def State.sourceReady (s : State) (src : Nat) : Bool :=
  match s.events src with
  | [] => false
  | e :: _ => decide (tfind s.dsp.holding src ≠ some e.flow) || (s.handleEvent src (s.stampEvent src e)).isSome

/-- The source that is served next: each in turn (R165). -/
def State.nextSource (s : State) : Option Nat :=
  roundRobin s.dsp.lastSrc (([1, 2, 3, 4, 5] : List Nat).filter s.sourceReady)

/-- DISPATCH_EVENT (R165, R170): the oldest event of the source whose turn it is is accepted, unless it is held. -/
def execDispatchEvent (source : Nat) (s : State) : Out :=
  unitOk s (1 ≤ source ∧ source ≤ 5) <|
    match s.events source with
    | [] => s
    | e :: rest =>
      if ¬ s.dspOn ∨ ¬ s.eventTurn ∨ s.nextSource ≠ some source then s
      else
        let e := s.stampEvent source e
        let s := { s with dsp := { s.dsp with lastSrc := source } }
        match s.handleEvent source e with
        | none => s.beginHold source e
        | some s =>
          let s := { s with dsp := { s.dsp with
              events := tset (fun _ => []) s.dsp.events source rest
              holding := terase s.dsp.holding source } }
          (s.returnAll).refill source

/-! ### Reports (R181, R190) -/

/-- The oldest report is taken by a command that handles its kind; on-chip places that it freed are filled from DRAM
(R188). -/
def State.takeReport (s : State) (f : Report → State → Option State) : Out :=
  match s.dsp.reports with
  | [] => .next s
  | r :: rest =>
    if ¬ s.dspOn then .next s
    else match f r { s with dsp := { s.dsp with reports := rest } } with
      | some t => .next t.returnAll
      | none => .next s

/-- COMPLETION_REPORT (R181). -/
def execCompletionReport (s : State) : Out :=
  s.takeReport fun r s =>
    match r with
    | .completion lid flow i => some (s.completeIter lid flow.toNat i.toNat)
    | _ => none

/-- ABORT_REPORT (R181, R185). -/
def execAbortReport (s : State) : Out :=
  s.takeReport fun r s =>
    match r with
    | .abort lid flow i hen => some (s.abortIter lid flow.toNat i.toNat hen)
    | _ => none

/-- FRAME_FREE_REPORT (R181): the granules and the live-count place are free; with opurge the keys of
the activation are purged, unless a purge of them was sent; every flow that waits is tried. -/
def execFrameFreeReport (s : State) : Out :=
  s.takeReport fun r s =>
    match r with
    | .frameFree lid flow i =>
      let sent := decide ((flow, i) ∈ s.dsp.purged)
      let s := { s with dsp := { s.dsp with
          frames := s.dsp.frames.filter
            (fun x => ¬ (x.lid = lid ∧ x.flow = flow ∧ x.iteration = i))
          purged := s.dsp.purged.filter (· ≠ (flow, i)) } }
      let s := if s.flowF flow.toNat 0 7 7 = 1 ∧ ¬ sent then
          s.sendPurge { flow, iteration := some i } [lid] 7
        else s
      some s.tryAll
    | _ => none

/-- PREFETCH_TAKEN_REPORT (R178, R181): the slot is held as empty, which is the return of its credit (R237). -/
def execPrefetchTakenReport (s : State) : Out :=
  s.takeReport fun r s =>
    match r with
    | .prefetchTaken lid =>
      some { s with
        dsp := { s.dsp with pfFull := s.dsp.pfFull.filter (· ≠ lid) }
        jet := { s.jet with credits := s.jet.credits.filter (fun c => c.buffer ≠ .prefetch lid) } }
    | _ => none

/-- PURGE_COMPLETE (R182). -/
def execPurgeComplete (s : State) : Out :=
  s.takeReport fun r s =>
    match r with
    | .purgeDone lid p => some (s.purgeDone lid p)
    | _ => none

/-- The lowest class among the boosts of a (cell, flow) (R190). -/
def State.boostOf (s : State) (lid : Nat) (flow : BitVec 12) : Option (BitVec 2) :=
  (s.dsp.boosts.filter (fun b => b.lid = lid && b.flow = flow)).foldl (fun best b =>
    match best with
    | none => some b.cls
    | some c => some (if b.cls.toNat < c.toNat then b.cls else c)) none

/-- The cell hears of the boost now in force for a flow (R190). -/
def State.sendBoost (s : State) (lid : Nat) (flow : BitVec 12) : State :=
  match s.placeOf lid with
  | some pc => s.modCell pc (fun c => { c with boostQ := c.boostQ ++ [(flow, s.boostOf lid flow)] })
  | none => s

/-- BOOST (R190, R191): the table takes the entry, or is full and the boost is dropped. -/
def execBoost (s : State) : Out :=
  s.takeReport fun r s =>
    match r with
    | .boost lid flow bank cls =>
      let key (b : BoostRec) : Bool := b.lid = lid && b.flow = flow && b.bank = bank
      let others := s.dsp.boosts.filter (fun b => !key b)
      if 64 ≤ others.length then
        some ((s.dspCount 12).raise srcBoostFull masterDispatcher accToken (flow.setWidth 32) 7)
      else
        let b : BoostRec := { lid, flow, bank, cls }
        let s := { s with dsp := { s.dsp with boosts := others ++ [b] } }
        some (((s.dspCount 11).trace .boost flow.toNat { lid, src := 7 }).sendBoost lid flow)
    | _ => none

/-- UNBOOST (R190): the entry leaves the table; one that matches no entry is ignored (R191). -/
def execUnboost (s : State) : Out :=
  s.takeReport fun r s =>
    match r with
    | .unboost lid flow bank =>
      let key (b : BoostRec) : Bool := b.lid = lid && b.flow = flow && b.bank = bank
      if s.dsp.boosts.any key then
        let s := { s with dsp := { s.dsp with boosts := s.dsp.boosts.filter (fun b => !key b) } }
        some ((s.trace .unboost flow.toNat { lid, src := 7 }).sendBoost lid flow)
      else some s
    | _ => none

/-! ### ITER (R185, R186) -/

/-- ITER_REQUEST (R185, R186): the request joins its flow's ITER queue and is granted where it can
be. One that can never be granted is reported as ITER_STALL. -/
def execIterRequest (s : State) : Out :=
  match s.dsp.iters with
  | [] => .next s
  | q :: rest =>
    if ¬ s.dspOn ∨ ¬ s.dsp.reports.isEmpty then .next s
    else
      let f := q.flow.toNat
      let s := { s with dsp := { s.dsp with iters := rest } }
      let s := s.setIterWaits f (s.iterWaits f ++ [q])
      let s := if s.flowF f 0 1 1 = 0 ∧ s.flowF f 0 11 8 = 0 then
          let master := match s.placeOf q.lid with
            | some pc => cellMaster pc
            | none => masterNone
          s.raise srcIterStall master accToken (q.flow.setWidth 32)
            (BitVec.ofNat 32 (6 + q.iteration.toNat * 65536))
        else s
      .next (s.tryStart f).returnAll

/-! ### The flow window (R168, R169, R184) -/

/-- The rw bits of each word of an entry (R167). -/
def flowRw : List Word :=
  [0xFF3F3FFF, 0xFFFFFFFF, 0, 0x3FFF3FFF, 0x3FFF3FFF, 0x0000FF07, 0x0000FFFF, 0, 0, 0, 0, 0, 0, 0, 0,
   0xFFFFFFFF]

/-- A write of DSP_FSEL: the entry is selected, and its rw fields are copied to the staging copy
(R168). -/
def State.selectFlow (s : State) (v : Word) : State :=
  let f := fld v 11 0
  let s := s.setRegF aDspFsel 11 0 f
  { s with dsp := { s.dsp with
      staging := (upTo 16).map (fun w => s.flowW f w &&& flowRw.getD w 0) } }

/-- DSP_FSEL_WRITE (R168). -/
def execDspFselWrite (v : Word) (s : State) : Out :=
  .next (s.ownWrite aDspFsel v (s.selectFlow v))

/-- A word of the staging copy. -/
def State.staged (s : State) (w : Nat) : Word := s.dsp.staging.getD w 0

/-- A write of a window word: only the staging copy changes (R168). -/
def State.stageWord (s : State) (w : Nat) (v : Word) : State :=
  { s with dsp := { s.dsp with
      staging := (upTo 16).map (fun i => if i = w then v &&& flowRw.getD i 0 else s.staged i) } }

/-- The status of a DSP_FCMD command (DSP_FCMD.status). -/
def State.flowStatus (s : State) (x : Nat) : State := s.setRegF aDspFcmd 10 8 x

/-- The frame shape of an entry breaks R144 or does not fit beside the partition's reserved region
(R177). -/
def badShape (areaWords winWords nareas fres : Nat) : Bool :=
  let size := 16 + (nareas + 1) * areaWords
  decide (winWords < 32 ∨ areaWords < winWords + 16 ∨ 16384 < size ∨ 256 < fres + (size + 63) / 64)

/-- The one Dynamic partition of the cells of a code group (R169). -/
def State.groupPart (s : State) (g : Nat) : Option Nat :=
  match s.groupCells g with
  | [] => none
  | lid :: rest =>
    match s.partOf lid with
    | some p => if ¬ (s.partition p).sched ∧ rest.all (fun l => s.partOf l = some p) then some p
        else none
    | none => none

/-- The words of an entry are refused on their own: 0 accepted, 1 the shape, 3 a value (R169). -/
def State.entryStatus (s : State) (w : Nat → Word) : Nat :=
  let part := s.groupPart (fld (w 0) 21 16)
  let fres := match part with
    | some p => s.regF (aDspPcfg p) 7 0
    | none => 0
  if badShape (fld (w 4) 13 0) (fld (w 4) 29 16) (fld (w 5) 2 0) fres then 1
  else if fld (w 0) 31 24 = 0 ∨ (fld (w 0) 1 1 = 1 ∧ fld (w 0) 11 8 ≠ 0) ∨ part = none then 3
  else 0

/-- A commit changes what a busy flow must keep (R169): atomic, ovl, group, start, nareas, area_words
or win_words. -/
def State.changesBusy (s : State) (f : Nat) : Bool :=
  let d (w : Nat) : Word := s.staged w ^^^ s.flowW f w
  d 0 &&& 0x003F0F02#32 ≠ 0 || d 3 &&& 0x3FFF#32 ≠ 0 || d 4 &&& 0x3FFF3FFF#32 ≠ 0
    || d 5 &&& 7#32 ≠ 0

/-- The flow has a live iteration or a pending activation (R169). -/
def State.flowBusy (s : State) (f : Nat) : Bool :=
  decide (s.flowF f 8 15 0 ≠ 0 ∨ s.flowF f 8 23 16 ≠ 0 ∨ s.flowF f 9 23 0 ≠ 0)

/-- A late policy is written to the table of every cell that is in no Scheduled partition (R169). -/
def State.spreadPolicy (s : State) (f : Nat) (late : BitVec 2) : State :=
  (upTo s.variant.pcells).foldl (fun s pc =>
    if s.isSched pc then s
    else s.modCell pc (fun c => { c with latePol := tset (fun _ => 0) c.latePol f late })) s

/-- The field I/O's copy of a flow's lrel (R392). -/
def State.setLrel (s : State) (f : Nat) (b : Bool) : State :=
  { s with fio := { s.fio with lrel := tset (fun _ => false) s.fio.lrel f b } }

/-- The Scheduled partition whose flow records name a flow. -/
def State.schedPart (s : State) (f : Nat) : Option Nat :=
  (upTo 8).find? (fun p => (s.part p).records.any (fun r => fld (r.getD 0 0) 11 0 = f))

/-- The staging copy is applied to an entry (R168, R169); the field I/O's copy of lrel follows, unless a Scheduled flow
record gives it (R392). -/
def State.applyStaging (s : State) (f : Nat) : State :=
  let old0 := s.flowW f 0
  let old5 := s.flowW f 5
  let s := (upTo 16).foldl (fun s w =>
    let m := flowRw.getD w 0
    if m = 0 then s else s.setFlowW f w ((s.flowW f w &&& ~~~m) ||| (s.staged w &&& m))) s
  let new0 := s.flowW f 0
  let s := if fld new0 21 16 ≠ fld old0 21 16 ∨ s.flowF f 5 15 8 ≠ fld old5 15 8 then
      (s.setFlowF f 5 24 24 1).setFlowF f 5 23 16 (s.flowF f 5 15 8)
    else s
  let s := if fld new0 6 5 ≠ fld old0 6 5 then s.spreadPolicy f (BitVec.ofNat 2 (fld new0 6 5)) else s
  let s := if (s.schedPart f).isNone then s.setLrel f (fld new0 12 12 = 1) else s
  ((State.returnPend 256 s f).tryStart f).trace .flowCfg f {}

/-- DISABLE (R184): events are refused, pending activations are discarded, flags are cleared; the flow
is purged everywhere once no activation is live. -/
def State.disableFlow (s : State) (f : Nat) : State :=
  let fl := BitVec.ofNat 12 f
  let s := (s.setFlowF f 0 0 0 0).discardPending f
  let s := s.setFlowW f 2 0
  let s := { s with dsp := { s.dsp with
      disabling := s.dsp.disabling.filter (· ≠ fl) ++ [fl] } }
  let s := if s.flowF f 8 15 0 = 0 then s.purgeAll f else s
  ((s.flowStatus 0).trace .flowCfg f {}).returnAll

/-- COMMIT (R168, R169, R184): the staging copy is applied, or the command is refused. -/
def State.commitFlow (s : State) : State :=
  let f := s.regF aDspFsel 11 0
  if fld (s.staged 0) 0 0 = 0 then s.disableFlow f
  else if BitVec.ofNat 12 f ∈ s.dsp.disabling then s.flowStatus 4
  else
    let e := s.entryStatus s.staged
    if e ≠ 0 then s.flowStatus e
    else if s.flowBusy f ∧ s.changesBusy f then s.flowStatus 2
    else (s.applyStaging f).flowStatus 0

/-- FLOW_COMMIT (R169). -/
def execFlowCommit (s : State) : Out := .next (if s.hostWrites aDspFcmd then s.commitFlow else s)

/-- DISABLE (R184), for the flow that DSP_FSEL selects. -/
def execDisable (s : State) : Out :=
  .next (if s.hostWrites aDspFcmd then s.disableFlow (s.regF aDspFsel 11 0) else s)

/-- The op CLEAR_FLAGS (DSP_FCMD). -/
def State.clearFlowFlags (s : State) : State :=
  let f := s.regF aDspFsel 11 0
  ((s.setFlowW f 2 0).flowStatus 0).trace .flowCfg f {}

/-- CLEAR_FLAGS (R168): flags := 0. -/
def execClearFlags (s : State) : Out := .next (if s.hostWrites aDspFcmd then s.clearFlowFlags else s)

/-- The op CLEAR_COUNTS (DSP_FCMD). -/
def State.clearFlowCounts (s : State) : State :=
  let f := s.regF aDspFsel 11 0
  let s := ((s.setFlowF f 8 31 24 0).setFlowW f 10 0).setFlowW f 11 0
  (s.flowStatus 0).trace .flowCfg f {}

/-- CLEAR_COUNTS (R168): merges, acts and evts := 0. -/
def execClearCounts (s : State) : Out := .next (if s.hostWrites aDspFcmd then s.clearFlowCounts else s)

end Sys2Proof.Machine
end

