-- ==== Sys2Proof/Machine/Bank.lean ====
section
/-! DEFINITION. The memories that serve requests (R267 to R282): scratchpad and global banks, DRAM and
MRAM; the lock directories (R283 to R294); the semaphores (R295 to R297). -/

namespace Sys2Proof.Machine

/-! ### Banks -/

/-- A bank's place: a scratchpad bank of a cloud, or a global bank (R269, R271). -/
def bankIsGlobal (b : Nat) : Bool := decide (144 ≤ b)

/-- The variant has the bank (R2, R271). -/
def State.bankExists (s : State) (b : Nat) : Bool :=
  decide (b / 8 < s.variant.clouds) || decide (144 ≤ b ∧ b < 152)

/-- The bank serves requests: its cloud is powered and not fenced, or the field side is on. -/
def State.bankOn (s : State) (b : Nat) : Bool :=
  if bankIsGlobal b then s.fieldOn
  else match (s.cloud (b / 8)).state with
    | .run | .drain => true
    | .off | .test | .parked | .waking | .fenced => false

/-- The byte of its memory at which a bank's address lies, and the number of that memory for poison. -/
def bankBase (b : Nat) : Nat × Nat :=
  if bankIsGlobal b then (0, 18) else (b % 8 * 0x10000, b / 8)

/-- Bytes of a bank's memory. -/
def State.bankRead (s : State) (b a n : Nat) : List Byte :=
  if bankIsGlobal b then mread s.mem.glob a n
  else mread (s.cloud (b / 8)).scratch (b % 8 * 0x10000 + a) n

/-- Bytes written to a bank's memory. -/
def State.bankWrite (s : State) (b a : Nat) (bs : List Byte) : State :=
  if bankIsGlobal b then { s with mem := { s.mem with glob := mwrite s.mem.glob a bs } }
  else s.modCloud (b / 8) (fun c => { c with scratch := mwrite c.scratch (b % 8 * 0x10000 + a) bs })

/-- The words that bytes at an address touch, as poison names them. -/
def bankWords (b a n : Nat) : List (Nat × Nat) :=
  let (base, m) := bankBase b
  (upTo ((a % 4 + n + 3) / 4)).map (fun i => (m, (base + a) / 4 + i))

/-- A word that bytes at an address touch is poisoned. -/
def State.bankPoisoned (s : State) (b a n : Nat) : Bool :=
  (bankWords b a n).any (fun w => s.poisoned w.1 w.2)

/-- The address lies in the bank: 64 KiB of scratchpad, or the global bank's own 384 KiB (R269, R271,
R275). -/
def inBank (b a n : Nat) : Bool :=
  if bankIsGlobal b then decide ((b - 144) * 0x60000 ≤ a ∧ a + n ≤ (b - 143) * 0x60000)
  else decide (a + n ≤ 0x10000)

/-- The address lies in an area that R266 refuses to cells. -/
def State.bankRefuses (s : State) (b a : Nat) : Bool :=
  if bankIsGlobal b then decide (a < s.regF aMemGsys 11 0 * 1024)
  else s.inSpillArea (b / 8) (b % 8 * 0x10000 + a)

/-! ### Answers and reports -/

/-- The master of a report about a request: the requesting cell, or DMA (R308). -/
def Request.master (r : Request) : BitVec 10 :=
  if r.rcloud.toNat < 18 then cellMaster (r.rcloud.toNat * 16 + r.rcell.toNat) else masterDma

/-- Where a bank launches its answers. -/
def bankPlace (b : Nat) : Place :=
  if bankIsGlobal b then .root else .router (b / 8) (4 + b % 8)

/-- A bank answers a request; ECC_UE answers are counted (MEM_CNT[2]). -/
def State.bankAnswer (s : State) (b : Nat) (r : Request) (status : Nat) (data : BitVec 64)
    (body : List Byte) : State :=
  let s := s.modBank b (fun k => { k with
    answers := k.answers ++ [r.answer (bankPlace b) status data body] })
  if status = 0x11 then s.bump (aMemCnt 2) else s

/-- The effective address by which a bank's word is known to every cell (R263, LCK_CADDR). -/
def State.bankEa (s : State) (b a : Nat) : Word :=
  if bankIsGlobal b then BitVec.ofNat 32 (0x2000000 + a)
  else
    let n := ((upTo s.variant.lclouds).find?
      (fun n => tget (fun _ => 0) s.rep.cloudOf n = b / 8 + 1)).getD (b / 8)
    BitVec.ofNat 32 (0x1000000 + n * 0x80000 + b % 8 * 0x10000 + a)

/-- The effective address of a request, as the requesting cell keeps it under the request's tag
(R239, R308); an address of the unit for any other requester. -/
def State.requestEa (s : State) (r : Request) (other : Word) : Word :=
  let pc := r.rcloud.toNat * 16 + r.rcell.toNat
  if r.rcloud.toNat < 18 then
    match (s.cell pc).tags.find? (fun o => o.tag = r.tag.toNat) with
    | some o => o.ea
    | none => other
  else other

/-- The manual names the syndrome of a memory error and no value for it: a free word (R308). -/
def State.eccReport (s : State) (source : Nat) (r : Request) (other : Word) : State :=
  let (n, s) := s.takeFresh
  s.raise source r.master (opAccess r.op) (s.requestEa r other) (Config.freeWord n)

/-- What the error check of the words finds on an access that reads n bytes (R272): a single error is corrected and
reported, an uncorrectable one poisons the word that it strikes. -/
def State.bankEcc (s : State) (b : Nat) (r : Request) (n : Nat) (ecc : Ecc) : State :=
  let a := r.addr.toNat
  match ecc with
  | .good => s
  | .single => (s.eccReport srcMemCe r (s.bankEa b a)).bump (aMemCnt 0)
  | .double | .doubleAt _ =>
    match (bankWords b a n)[ecc.struck.getD 0]? with
    | none => s
    | some w => ((s.eccReport srcMemUe r (s.bankEa b a)).bump (aMemCnt 1)).setPoison w.1 w.2

/-- The operation codes that a bank serves (R273). -/
def bankOp (op : Nat) : Bool :=
  decide (0x10 ≤ op ∧ op ≤ 0x14) || decide (0x20 ≤ op ∧ op ≤ 0x24) || decide (0x30 ≤ op ∧ op ≤ 0x33)
    || decide (0x38 ≤ op ∧ op ≤ 0x3B) || decide (op = 0x40) || decide (0x50 ≤ op ∧ op ≤ 0x55)

/-- The source of a request at a bank. A scratchpad bank's are the 16 cells of its cloud, the ingress agent as 16 and the
root egress as 17 (R270); a global bank's are the pair stations as 0, and cloud c behind the root ingress as c + 1 (R271). -/
def Request.source (r : Request) (b : Nat) : Nat :=
  if bankIsGlobal b then if 30 ≤ r.rcloud.toNat then 0 else r.rcloud.toNat + 1
  else match r.credit.map Credit.holder with
    | some (.cell p) => p % 16
    | some .root => 17
    | _ => 16

/-- The source that a bank serves next: each in turn (R270), at a global bank the pair stations ahead of the clouds (R271). -/
def Bank.nextSource (k : Bank) (b : Nat) : Option Nat :=
  let all := k.queue.map (fun r => r.source b)
  if bankIsGlobal b ∧ 0 ∈ all then some 0 else roundRobin k.turn all

/-- The request that a bank serves next: the first of the source whose turn it is. -/
def Bank.nextRequest (k : Bank) (b : Nat) : Option (Nat × Request) :=
  (k.nextSource b).bind fun n => (k.queue.find? (fun r => r.source b = n)).map fun r => (n, r)

/-- The request whose turn it is at a bank is served by a command that handles its operation; its queue entry is free
(R238, R270, R271). A pair station's request leaves the round of the clouds where it was. -/
def State.takeBank (s : State) (b : Nat) (ops : Nat → Bool) (f : Request → State → State) : Out :=
  unitOk s (s.bankExists b) <|
    match (s.bank b).nextRequest b with
    | none => s
    | some (n, r) =>
      if ¬ s.bankOn b ∨ ¬ ops r.op.toNat then s
      else f r ((s.modBank b (fun k => { k with
        queue := k.queue.erase r, turn := if bankIsGlobal b ∧ n = 0 then k.turn else n })).giveBack r.credit)

/-- An address is checked before a bank performs an operation on some bytes (R275). -/
def State.bankCheck (s : State) (b : Nat) (r : Request) (n : Nat) (f : State → State) : State :=
  let a := r.addr.toNat
  if ¬ inBank b a n ∨ s.bankRefuses b a then s.bankAnswer b r 0x10 0 [] else f s

/-- The size in bytes of a load or store by its operation code (R273). -/
def opSize (op : Nat) : Nat := 2 ^ (op % 4)

/-- BANK_LOAD (R272, R273): the bytes, or ECC_UE of a poisoned word. A code that the bank does not
know is answered with BAD_OP. -/
def execBankLoad (bank : Nat) (ecc : Ecc) (s : State) : Out :=
  s.takeBank bank (fun op => decide (0x10 ≤ op ∧ op ≤ 0x13) || !bankOp op) fun r s =>
    if ¬ bankOp r.op.toNat then s.bankAnswer bank r 0x13 0 []
    else
      let n := opSize r.op.toNat
      s.bankCheck bank r n fun s =>
        let s := s.bankEcc bank r n ecc
        if s.bankPoisoned bank r.addr.toNat n then s.bankAnswer bank r 0x11 0 []
        else s.bankAnswer bank r 0 (BitVec.ofNat 64 (leNat (s.bankRead bank r.addr.toNat n))) []

/-- A plain store of whole words clears their poison; a narrower one is refused on a poisoned word
(R269, R272). -/
def State.bankPut (s : State) (b : Nat) (r : Request) (ecc : Ecc) (bs : List Byte) : State :=
  let a := r.addr.toNat
  if 4 ≤ bs.length then
    let s := (bankWords b a bs.length).foldl (fun s w => s.clearPoison w.1 w.2) s
    (s.bankWrite b a bs).bankAnswer b r 0 0 []
  else
    let s := s.bankEcc b r bs.length ecc
    if s.bankPoisoned b a bs.length then s.bankAnswer b r 0x11 0 []
    else (s.bankWrite b a bs).bankAnswer b r 0 0 []

/-- BANK_STORE (R269, R272, R273). -/
def execBankStore (bank : Nat) (ecc : Ecc) (s : State) : Out :=
  s.takeBank bank (fun op => decide (0x20 ≤ op ∧ op ≤ 0x23)) fun r s =>
    let n := opSize r.op.toNat
    s.bankCheck bank r n fun s => s.bankPut bank r ecc (leBytes n r.data.toNat)

/-- BLOCK_LOAD (R273): 64 bytes. -/
def execBlockLoad (bank : Nat) (ecc : Ecc) (s : State) : Out :=
  s.takeBank bank (fun op => op = 0x14) fun r s =>
    s.bankCheck bank r 64 fun s =>
      let s := s.bankEcc bank r 64 ecc
      if s.bankPoisoned bank r.addr.toNat 64 then s.bankAnswer bank r 0x11 0 []
      else s.bankAnswer bank r 0 0 (s.bankRead bank r.addr.toNat 64)

/-- BLOCK_STORE (R273): 64 bytes. -/
def execBlockStore (bank : Nat) (s : State) : Out :=
  s.takeBank bank (fun op => op = 0x24) fun r s =>
    s.bankCheck bank r 64 fun s => s.bankPut bank r .good (r.body.take 64)

/-- An alias store (R267): one read-modify-write of the bytes, refused on a poisoned word. -/
def State.aliasStore (s : State) (b : Nat) (r : Request) (ecc : Ecc) (f : Nat → Nat → Nat) :
    State :=
  let n := opSize r.op.toNat
  let a := r.addr.toNat
  s.bankCheck b r n fun s =>
    let s := (s.bankEcc b r n ecc).bump (aMemCnt 3)
    if s.bankPoisoned b a n then s.bankAnswer b r 0x11 0 []
    else
      let new := f (leNat (s.bankRead b a n)) (r.data.toNat % 2 ^ (8 * n))
      (s.bankWrite b a (leBytes n new)).bankAnswer b r 0 0 []

/-- SET_ALIAS_STORE (R267): the data is ORed into the bytes. -/
def execSetAliasStore (bank : Nat) (ecc : Ecc) (s : State) : Out :=
  s.takeBank bank (fun op => decide (0x30 ≤ op ∧ op ≤ 0x33)) fun r s =>
    s.aliasStore bank r ecc (fun old d => old ||| d)

/-- CLEAR_ALIAS_STORE (R267): the complement of the data is ANDed into the bytes. -/
def execClearAliasStore (bank : Nat) (ecc : Ecc) (s : State) : Out :=
  s.takeBank bank (fun op => decide (0x38 ≤ op ∧ op ≤ 0x3B)) fun r s =>
    s.aliasStore bank r ecc (fun old d => old - (old &&& d))

/-- SWP at a bank (R119): the old word is answered and the new one written. -/
def execBankSwp (bank : Nat) (ecc : Ecc) (s : State) : Out :=
  s.takeBank bank (fun op => op = 0x40) fun r s =>
    let a := r.addr.toNat
    s.bankCheck bank r 4 fun s =>
      let s := s.bankEcc bank r 4 ecc
      if s.bankPoisoned bank a 4 then s.bankAnswer bank r 0x11 0 []
      else
        let old := BitVec.ofNat 64 (leNat (s.bankRead bank a 4))
        (s.bankWrite bank a (leBytes 4 r.data.toNat)).bankAnswer bank r 0 old []

/-! ### Lock directories (R283 to R292) -/

/-- The party that a lock word names (R284). -/
structure LockParty where
  cell   : BitVec 8
  flow   : BitVec 12
  cls    : BitVec 2
  waitId : BitVec 4
  deriving DecidableEq, Repr

/-- The fields of a lock word (R284). -/
def lockParty (d : BitVec 64) : LockParty :=
  { cell := d.setWidth 8, flow := (d >>> 8).setWidth 12, cls := (d >>> 20).setWidth 2
    waitId := (d >>> 22).setWidth 4 }

/-- The party owns the lock. -/
def LockEntry.ownedBy (e : LockEntry) (p : LockParty) : Bool :=
  e.held && e.cell = p.cell && e.flow = p.flow

/-- The record of a lock word in a directory. -/
def Bank.findLock (k : Bank) (a : Nat) : Option (Nat × LockEntry) :=
  k.dir.find? (fun e => e.2.addr = a)

/-- The lowest-numbered free record of a directory. -/
def Bank.freeLock (k : Bank) : Option Nat := (upTo 32).find? (fun i => (tfind k.dir i).isNone)

/-- The waiter records in use (R283). -/
def Bank.waiterCount (k : Bank) : Nat := (k.dir.map (fun e => e.2.waiters.length)).sum

/-- A waiter joins a list: behind the waiters of its class and of lower class numbers (R283). -/
def addWaiter : List Waiter → Waiter → List Waiter
  | [], w => [w]
  | x :: xs, w => if w.cls.toNat < x.cls.toNat then w :: x :: xs else x :: addWaiter xs w

/-- A record of a bank's directory is replaced. -/
def State.putLock (s : State) (b i : Nat) (e : LockEntry) : State :=
  s.modBank b (fun k => { k with dir := tins k.dir i e })

/-- The lowest-numbered free waiter record of a directory; 64 with none free. -/
def Bank.freeWaiter (k : Bank) : Nat :=
  let used := k.dir.flatMap (fun e => e.2.waiters.map Waiter.record)
  ((upTo 64).find? (· ∉ used)).getD 64

/-- The boost that an entry's owner should have: the best waiter and its class, where that is better (R290). -/
def LockEntry.wants (e : LockEntry) : Option (Nat × BitVec 2) :=
  match e.waiters with
  | w :: _ => if e.held && decide (w.cls.toNat < e.cls.toNat) then some (w.record, w.cls) else none
  | [] => none

/-- The bank boosts the owner of an entry for its best waiter, whenever that waiter changes; it unboosts an owner that no
waiter outranks any more (R290; log entry 49). -/
def State.reboost (s : State) (b i : Nat) : State :=
  match tfind (s.bank b).dir i with
  | none => s
  | some e =>
    if e.wants = e.boosted then s
    else
      let s := s.putLock b i { e with boosted := e.wants }
      match e.wants with
      | some (_, c) => (s.report (.boost e.cell.toNat e.flow b c)).bump (aMemCnt 9)
      | none => s.report (.unboost e.cell.toNat e.flow b)

/-- A grant (R285): a P flit with tag 63, its status, and the waiter's lock word as data. -/
def State.grantLock (s : State) (b : Nat) (w : Waiter) (a status : Nat) : State :=
  let data := BitVec.ofNat 64
    (w.cell.toNat + w.flow.toNat * 256 + w.cls.toNat * 2 ^ 20 + w.waitId.toNat * 2 ^ 22)
  let p : Packet :=
    { dcloud := w.rcloud, dcell := w.rcell, vc := .p
      cargo := .plain (.response
        { addr := BitVec.ofNat 32 a, status := BitVec.ofNat 8 status, rcloud := w.rcloud, rcell := w.rcell, unit := 0
          tag := 63, data, body := [] })
      place := bankPlace b, inPort := if bankIsGlobal b then 3 else 0, la := 0, errs := [], hdrErrs := []
      sender := 0x3FF, credit := none }
  s.modBank b (fun k => { k with answers := k.answers ++ [p] })

/-- A lock is released (R284, R287, R290): the old owner is unboosted, the head waiter is granted the
lock, and without a waiter the record is freed, or ABANDONED-FREE. -/
def State.releaseLock (s : State) (b i : Nat) (e : LockEntry) (abandoned : Bool) : State :=
  let s := s.report (.unboost e.cell.toNat e.flow b)
  let s := if abandoned then s.bump (aMemCnt 8) else s
  match e.waiters with
  | w :: rest =>
    let e := { e with
      cell := w.cell, flow := w.flow, cls := w.cls, waiters := rest, boosted := none }
    (((s.putLock b i e).grantLock b w e.addr (b2n abandoned)).bump (aMemCnt 5)).reboost b i
  | [] =>
    if abandoned then s.putLock b i { e with held := false, boosted := none }
    else s.modBank b (fun k => { k with dir := terase k.dir i })

/-- LCK_ABANDON (R308): the directory record in the syndrome. -/
def State.abandonReport (s : State) (b i : Nat) (ea : Word) (master : BitVec 10) : State :=
  s.raise srcLckAbandon master accLock ea (BitVec.ofNat 32 (b + i % 64 * 256))

/-- An error that a lock operation finds in a directory record that it reads (R294, R308): an entry by its number, or a
waiter record of its list. -/
def State.lockEcc (s : State) (b : Nat) (reads : LockEntry → Bool) (ecc : LockEcc) : State :=
  let found (source : Nat) (waiter : Bool) (record : Nat) : State :=
    match (s.bank b).dir.find? (fun x => reads x.2 &&
        (if waiter then x.2.waiters.any (fun w => w.record = record) else x.1 = record)) with
    | none => s
    | some (_, e) => s.raise source masterDma accLock (s.bankEa b e.addr)
        (BitVec.ofNat 32 (b + record % 64 * 256 + b2n waiter * 2 ^ 14))
  match ecc with
  | .good => s
  | .single waiter record => found srcLckDirCe waiter record
  | .double waiter record => found srcLckDirUe waiter record

/-- A lock operation at a bank: the address is checked (R275), and then the records of its lock (R294). -/
def State.takeLock (s : State) (b op : Nat) (ecc : LockEcc) (f : Request → State → State) : Out :=
  s.takeBank b (fun x => x = op) fun r s => s.bankCheck b r 4 fun s =>
    f r (s.lockEcc b (fun e => e.addr = r.addr.toNat) ecc)

/-- A free lock, or an abandoned one, is acquired (R284). Answers the status, or none where the
directory is full or another owner holds the lock. -/
def State.acquireLock (s : State) (b a : Nat) (p : LockParty) : Option (State × Nat) :=
  let k := s.bank b
  let e : LockEntry :=
    { addr := a, held := true, cell := p.cell, flow := p.flow, cls := p.cls, waiters := []
      boosted := none }
  match k.findLock a with
  | none =>
    match k.freeLock with
    | none => some (s.bump (aMemCnt 7), 2)
    | some i =>
      let s := (s.putLock b i e).bump (aMemCnt 5)
      some (s.modBank b (fun k => { k with peak := max k.peak k.dir.length }), 0)
  | some (i, f) =>
    if ¬ f.held then some ((s.putLock b i e).bump (aMemCnt 5), 1)
    else if f.ownedBy p then some (s, 4)
    else none

/-- LCK at a bank (R284): acquired, busy, self, or a waiter is appended. -/
def execBankLck (bank : Nat) (ecc : LockEcc) (s : State) : Out :=
  s.takeLock bank 0x50 ecc fun r s =>
      let a := r.addr.toNat
      let p := lockParty r.data
      match s.acquireLock bank a p with
      | some (s, status) => s.bankAnswer bank r status 0 []
      | none =>
        match (s.bank bank).findLock a with
        | none => s
        | some (i, e) =>
          if 64 ≤ (s.bank bank).waiterCount then (s.bump (aMemCnt 7)).bankAnswer bank r 2 0 []
          else
            let w : Waiter :=
              { cell := p.cell, flow := p.flow, cls := p.cls, waitId := p.waitId
                record := (s.bank bank).freeWaiter, rcloud := r.rcloud, rcell := r.rcell }
            let s := (s.putLock bank i { e with waiters := addWaiter e.waiters w }).bump (aMemCnt 6)
            (s.bankAnswer bank r 5 0 []).reboost bank i

/-- TLCK at a bank (R284): as LCK, but HELD where another owner holds the lock. -/
def execBankTlck (at_ : LockRead) (s : State) : Out :=
  s.takeLock at_.bank 0x51 at_.ecc fun r s =>
      match s.acquireLock at_.bank r.addr.toNat (lockParty r.data) with
      | some (s, status) => s.bankAnswer at_.bank r status 0 []
      | none => s.bankAnswer at_.bank r 3 0 []

/-- UNL at a bank (R284): released by the owner, NOT_OWNER for any other party. -/
def execBankUnl (at_ : LockRead) (s : State) : Out :=
  s.takeLock at_.bank 0x52 at_.ecc fun r s =>
      match (s.bank at_.bank).findLock r.addr.toNat with
      | some (i, e) =>
        if e.ownedBy (lockParty r.data) then
          (s.releaseLock at_.bank i e false).bankAnswer at_.bank r 0 0 []
        else s.bankAnswer at_.bank r 0x12 0 []
      | none => s.bankAnswer at_.bank r 0x12 0 []

/-- RELEASE_ABANDONED (R287): as UNL, with ABANDONED status. -/
def execReleaseAbandoned (at_ : LockRead) (s : State) : Out :=
  s.takeLock at_.bank 0x53 at_.ecc fun r s =>
      match (s.bank at_.bank).findLock r.addr.toNat with
      | some (i, e) =>
        if e.ownedBy (lockParty r.data) then
          ((s.abandonReport at_.bank i (s.requestEa r (s.bankEa at_.bank e.addr)) r.master).releaseLock at_.bank i e
            true).bankAnswer at_.bank r 0 0 []
        else s.bankAnswer at_.bank r 0x12 0 []
      | none => s.bankAnswer at_.bank r 0x12 0 []

/-- A waiter record is the one that a lock word names. -/
def Waiter.is (w : Waiter) (p : LockParty) : Bool :=
  w.cell = p.cell && w.flow = p.flow && w.waitId = p.waitId

/-- CANCEL_WAIT (R292): the waiter record is removed. -/
def execCancelWait (at_ : LockRead) (s : State) : Out :=
  s.takeLock at_.bank 0x54 at_.ecc fun r s =>
      let p := lockParty r.data
      let s := s.bankAnswer at_.bank r 0 0 []
      match (s.bank at_.bank).findLock r.addr.toNat with
      | some (i, e) =>
        (s.putLock at_.bank i { e with waiters := e.waiters.filter (fun w => !w.is p) }).reboost at_.bank i
      | none => s

/-- REPRIORITISE_WAITER (R291): the waiter moves to the end of its new class group. -/
def execReprioritiseWaiter (at_ : LockRead) (s : State) : Out :=
  s.takeLock at_.bank 0x55 at_.ecc fun r s =>
      let p := lockParty r.data
      let s := s.bankAnswer at_.bank r 0 0 []
      match (s.bank at_.bank).findLock r.addr.toNat with
      | some (i, e) =>
        match e.waiters.find? (fun w => w.is p) with
        | some w =>
          let others := e.waiters.filter (fun w => !w.is p)
          (s.putLock at_.bank i { e with
            waiters := addWaiter others { w with cls := p.cls } }).reboost at_.bank i
        | none => s
      | none => s

/-- One directory record is rid of a departed logical id (R288). -/
def State.dropOwner (s : State) (b i : Nat) (lid : BitVec 8) : State :=
  match tfind (s.bank b).dir i with
  | none => s
  | some e =>
    let e := { e with waiters := e.waiters.filter (fun w => w.cell ≠ lid) }
    let s := s.putLock b i e
    if e.held ∧ e.cell = lid then (s.abandonReport b i (s.bankEa b e.addr) masterDma).releaseLock b i e true
    else s.reboost b i

/-- OWNER_GONE (R288): the oldest notice releases every lock of the id and removes its waiters. -/
def execOwnerGone (at_ : LockRead) (s : State) : Out :=
  unitOk s (s.bankExists at_.bank) <|
    match (s.bank at_.bank).gone with
    | [] => s
    | lid :: rest =>
      if ¬ s.bankOn at_.bank then s
      else ((s.bank at_.bank).dir.map Prod.fst).foldl (fun s i => s.dropOwner at_.bank i lid)
        ((s.lockEcc at_.bank (fun _ => true) at_.ecc).modBank at_.bank (fun k => { k with gone := rest }))

/-! ### LCK_CMD (R287, R289) -/

/-- The bank and the address there of the lock word that LCK_CADDR names. -/
def State.lockTarget (s : State) : Option (Nat × Nat) :=
  let a := (s.reg aLckCaddr).toNat
  if a % 4 ≠ 0 then none
  else if 0x1000000 ≤ a ∧ a < 0x1800000 then
    let n := (a - 0x1000000) / 0x80000
    let off := a % 0x80000
    match tget (fun _ => 0) s.rep.cloudOf n with
    | 0 => none
    | c + 1 => if n < s.variant.lclouds then some (c * 8 + off / 0x10000, off % 0x10000) else none
  else if 0x2000000 ≤ a ∧ a < 0x2300000 then
    some (144 + (a - 0x2000000) / 0x60000, a - 0x2000000)
  else none

/-- LCK_CMD (R287, R289): the status, and the effect on the record. A directory error that it finds comes as a
FAULT_REPORT (DESIGN CHOICE: log entry 138). -/
def State.lockCommand (s : State) (force : Bool) : State :=
  let done (s : State) (status : Nat) : State := s.setRegF aLckCmd 9 8 status
  match s.lockTarget with
  | none => done s 2
  | some (b, a) =>
    match (s.bank b).findLock a with
    | none => done s 1
    | some (i, e) =>
      if e.held ≠ force then done s 1
      else if force then
        done ((s.abandonReport b i (s.reg aLckCaddr) masterHost).releaseLock b i e true) 0
      else done (s.modBank b (fun k => { k with dir := terase k.dir i })) 0

/-- CLEAR_ABANDON (R289): an ABANDONED-FREE record is freed. -/
def execClearAbandon (s : State) : Out :=
  .next (if s.hostWrites aLckCmd then s.lockCommand false else s)

/-- FORCE_RELEASE (R287): the lock is released with ABANDONED, at the bank alone. -/
def execForceRelease (s : State) : Out :=
  .next (if s.hostWrites aLckCmd then s.lockCommand true else s)

/-! ### Semaphores (R295 to R297) -/

/-- A root unit answers a request. -/
def State.rootAnswer (s : State) (r : Request) (status : Nat) (data : BitVec 64) : State :=
  { s with mem := { s.mem with rootAns := s.mem.rootAns ++ [r.answer .root status data []] } }

/-- The request at the head of a root memory's queue is served; its queue entry is free. -/
def State.takeSem (s : State) (ops : Nat → Bool) (f : Request → State → State) : Out :=
  match s.mem.semQ with
  | [] => .next s
  | r :: rest =>
    if ¬ s.fieldOn ∨ ¬ ops r.op.toNat then .next s
    else .next (f r (({ s with mem := { s.mem with semQ := rest } } : State).giveBack r.credit))

/-- A semaphore is acquired (R296): whether its count was above 0, with the state after. -/
def State.semAcquire (s : State) (n : Nat) : State × Bool :=
  let c := s.regF (aSemCfg n) 15 0
  if c = 0 then (s.bump (aMemCnt 13), false) else (s.setRegF (aSemCfg n) 15 0 (c - 1), true)

/-- A semaphore is released (R296): at max the release is refused with SEM_OVF. -/
def State.semRelease (s : State) (n : Nat) (master : BitVec 10) : State × Bool :=
  let c := s.regF (aSemCfg n) 15 0
  if s.regF (aSemCfg n) 31 16 ≤ c then
    (s.raise srcSemOvf master accAtomic (BitVec.ofNat 32 (0x2300004 + 16 * n)) 0, false)
  else (s.setRegF (aSemCfg n) 15 0 (c + 1), true)

/-- SEMAPHORE_ACQUIRE (R296): a load of the semaphore window acquires at offset 0 and reads the count
at offset 8. -/
def execSemaphoreAcquire (s : State) : Out :=
  s.takeSem (fun op => op ≠ 0x59) fun r s =>
    let n := (r.addr.toNat - 0x300000) / 16 % 64
    if r.op = 0x58 then
      let (s, ok) := s.semAcquire n
      s.rootAnswer r 0 (BitVec.ofNat 64 (b2n ok + s.regF (aSemCfg n) 15 0 * 65536))
    else if r.op = 0x12 then
      s.rootAnswer r 0 (BitVec.ofNat 64 (s.regF (aSemCfg n) 15 0 * 65536))
    else s.rootAnswer r 0x13 0

/-- SEMAPHORE_RELEASE (R296): answered OK even where the release is refused. -/
def execSemaphoreRelease (s : State) : Out :=
  s.takeSem (fun op => op = 0x59) fun r s =>
    (s.semRelease ((r.addr.toNat - 0x300000) / 16 % 64) r.master).1.rootAnswer r 0 0

/-- SEM_HOP (R297): the group's host bit, the operation, and the result. -/
def State.semHop (s : State) (n : Nat) (release : Bool) : State :=
  let s := s.setRegF aSemHop 13 8 n
  let done (r : State × Bool) : State := r.1.setRegF aSemHop 17 16 (if r.2 then 1 else 2)
  if s.regF (aSemRights (n / 8)) 8 8 = 0 then s.setRegF aSemHop 17 16 3
  else if release then done (s.semRelease n masterHost)
  else done (s.semAcquire n)

/-- HOST_ACQUIRE (R297). -/
def execHostAcquire (sem : BitVec 6) (s : State) : Out :=
  .next (if s.hostWrites aSemHop then s.semHop sem.toNat false else s)

/-- HOST_RELEASE (R297). -/
def execHostRelease (sem : BitVec 6) (s : State) : Out :=
  .next (if s.hostWrites aSemHop then s.semHop sem.toNat true else s)

/-! ### DRAM and MRAM (R278 to R282) -/

/-- A load or store of 1 to 8 bytes (R273). -/
def wordOp (op : Nat) : Bool := decide (0x10 ≤ op ∧ op ≤ 0x13) || decide (0x20 ≤ op ∧ op ≤ 0x23)

/-- DRAM_ACCESS (R279, R280). -/
def execDramAccess (ecc : Ecc) (s : State) : Out :=
  match s.mem.dramQ with
  | [] => .next s
  | r :: rest =>
    if ¬ s.fieldOn then .next s
    else
      let s := ({ s with mem := { s.mem with dramQ := rest } } : State).giveBack r.credit
      let a := r.addr.toNat
      let n := opSize r.op.toNat
      let ue (s : State) : State := (s.bump (aMemCnt 2)).rootAnswer r 0x11 0
      .next <|
        if ¬ wordOp r.op.toNat then s.rootAnswer r 0x13 0
        else if s.variant.dramBytes < a + n then s.rootAnswer r 0x10 0
        else
          let s := match ecc with
            | .single => (s.eccReport srcDramCe r r.addr).bump (aMemCnt 10)
            | _ => s
          if ecc.struck.isSome then ue ((s.eccReport srcDramUe r r.addr).bump (aMemCnt 11))
          else if r.op.toNat < 0x20 then
            if s.poisoned 19 (a / 4) ∨ s.poisoned 19 ((a + n - 1) / 4) then ue s
            else s.rootAnswer r 0 (BitVec.ofNat 64 (leNat (mread s.mem.dram a n)))
          else
            let s := { s with mem := { s.mem with
                dram := mwrite s.mem.dram a (leBytes n r.data.toNat) } }
            s.rootAnswer r 0 0

/-- MRAM_ACCESS (R281, R282): cells reach the user area alone. -/
def execMramAccess (ecc : Ecc) (s : State) : Out :=
  match s.mem.mramQ with
  | [] => .next s
  | r :: rest =>
    if ¬ s.fieldOn then .next s
    else
      let s := ({ s with mem := { s.mem with mramQ := rest } } : State).giveBack r.credit
      let a := r.addr.toNat
      let n := opSize r.op.toNat
      let user := s.variant.mramUser
      .next <|
        if ¬ wordOp r.op.toNat then s.rootAnswer r 0x13 0
        else if a < user.1 ∨ user.1 + user.2 < a + n then s.rootAnswer r 0x10 0
        else if ecc.struck.isSome ∧ (r.op.toNat < 0x20 ∨ n < 8) then
          ((s.eccReport srcMramUe r r.addr).bump (aMemCnt 2)).rootAnswer r 0x11 0
        else if r.op.toNat < 0x20 then
          s.rootAnswer r 0 (BitVec.ofNat 64 (leNat (mread s.mem.mram a n)))
        else
          let s := s.mramWrite a (leBytes n r.data.toNat)
          (s.bump (aMemCnt 12)).rootAnswer r 0 0

end Sys2Proof.Machine
end

