-- ==== Sys2Proof/Machine/Path.lean ====
section
/-! DEFINITION. The routes of the jetstream (R22, R226, R233), and the arithmetic that the loader does
on them for schedules: the S budgets of links and the latency of paths (R33, R205, R215, R218, R261). -/

namespace Sys2Proof.Machine

/-! ### Links (R226) -/

/-- Where an output port leads, and the input port there (R226); none for a port to a cell, a root unit or a station,
and for a port that does not exist. The gateway link leads through the FIFO of its bridge (R247). -/
def portLeads (at_ : Place) (port : Nat) : Option (Place × Nat) :=
  match at_, port with
  | .router c k, 1 => if k % 4 < 3 then some (.router c (k + 1), 2) else none
  | .router c k, 2 => if 0 < k % 4 then some (.router c (k - 1), 1) else none
  | .router c k, 3 => if k / 4 < 3 then some (.router c (k + 4), 4) else none
  | .router c k, 4 => if 0 < k / 4 then some (.router c (k - 4), 3) else none
  | .router c k, 5 => if k = 0 then some (.bridge c true, 0) else none
  | .bridge c up, _ => some (if up then (.level1 (level1Of c), 1 + c % 3) else (.router c 0, 5))
  | .level1 n, 0 => some (.level2 (level2Of n), 1 + n % 3)
  | .level1 n, p + 1 => if p < 3 then some (.bridge (3 * n + p) false, 0) else none
  | .level2 m, 0 => some (.root, 1 + m)
  | .level2 m, p + 1 => if p < 3 then some (.level1 (3 * m + p), 0) else none
  | .root, 1 => some (.level2 0, 0)
  | .root, 2 => some (.level2 1, 0)
  | _, _ => none

/-- The number of a router or node in a table of links: tree nodes as R259 numbers them, routers after
them. -/
def Place.num : Place → Nat
  | .level1 n => n
  | .level2 m => 6 + m
  | .root => 8
  | .router c k => 16 + c * 16 + k
  | .bridge c up => 512 + c * 2 + b2n up

/-- An output port as one number. -/
def linkNum (at_ : Place) (port : Nat) : Nat := at_.num * 8 + port

/-- The router or node behind an output port, past the FIFO of a bridge. -/
def nodeBehind (at_ : Place) (port : Nat) : Option Place :=
  match portLeads at_ port with
  | some (.bridge c up, _) => (portLeads (.bridge c up) 0).map Prod.fst
  | some (next, _) => some next
  | none => none

/-- The packet as the place where it stands sends it over its port (R229, R233): with the la for the router or node that
receives it. -/
def Packet.leaving (p : Packet) : Packet :=
  match nodeBehind p.place p.la with
  | some next => { p with la := nextPort next p.dcloud.toNat p.dcell.toNat }
  | none => p

/-- The output ports that a route takes, to the port of its destination. -/
def route : Nat → Place → Nat → Nat → List (Place × Nat)
  | 0, _, _, _ => []
  | n + 1, at_, dcloud, dcell =>
    let p := nextPort at_ dcloud dcell
    (at_, p) :: (match nodeBehind at_ p with
      | some next => route n next dcloud dcell
      | none => [])

/-! ### Paths of a schedule (R205, R215) -/

/-- The place where a path's source launches; none for a cell that is not placed (R205). -/
def State.pathSource (s : State) (code : Nat) : Option Place :=
  if code < 256 then (s.placeOf code).map (fun p => .router (p / 16) (p % 16)) else some .root

/-- The destination cloud and cell of a path (R24, R205). -/
def State.pathDest (s : State) (code : Nat) : Option (Nat × Nat) :=
  if code < 256 then (s.placeOf code).map (fun p => (p / 16, p % 16))
  else if code = 256 then some (31, 1)
  else if code = 257 then some (31, 5)
  else some (30, code - 272)

/-- The output ports of a path record's route under the current repair map. -/
def State.pathPorts (s : State) (rec_ : BitVec 64) : Option (List (Place × Nat)) :=
  match s.pathSource (bitsOf rec_.toNat 8 0), s.pathDest (bitsOf rec_.toNat 17 9) with
  | some at_, some d => some (route 20 at_ d.1 d.2)
  | _, _ => none

/-- An output port that carries a budget: every port but those to and from cells (R245). -/
def budgeted (o : Place × Nat) : Bool :=
  match o with
  | (.router _ _, 0) => false
  | _ => true

/-- The cycles of an output port on a path (R33): a mesh hop 1; the passage of router (0,0) 1 and a
bridge 4; a tree node 2. An ejection takes 1. -/
def portCycles (o : Place × Nat) : Nat :=
  match o with
  | (.router _ _, 5) => 5
  | (.router _ _, _) => 1
  | (.level1 _, 0) => 2
  | (.level1 _, _) => 7
  | _ => 2

/-- A bridge lies behind an output port (R32). -/
def crossesBridge (o : Place × Nat) : Bool :=
  match o with
  | (.router _ _, 5) => true
  | (.level1 _, p) => decide (p ≠ 0)
  | _ => false

/-- The S budgets that path records give the links: the sum of q over the paths that cross (R215). -/
def State.budgetsOf (s : State) (paths : List (BitVec 64)) : Table Nat :=
  paths.foldl (fun t rec_ =>
    ((s.pathPorts rec_).getD []).foldl (fun t o =>
      if budgeted o then
        let k := linkNum o.1 o.2
        tset (fun _ => 0) t k (tget (fun _ => 0) t k + bitsOf rec_.toNat 23 18)
      else t) t) []

/-- Every budget is at most 48 (R215, R261). -/
def budgetsOk (t : Table Nat) : Bool := t.all (fun e => decide (e.2 ≤ 48))

/-- The latency of a path in ns: the base of R33, b - 1 for each of its links, and 1 for each bridge
(R218). -/
def State.pathNs (s : State) (budgets : Table Nat) (rec_ : BitVec 64) : Option Nat :=
  (s.pathPorts rec_).map fun ports =>
    (if bitsOf rec_.toNat 8 0 < 256 then 1 else 0)
      + (ports.map (fun o => portCycles o
          + (if budgeted o then tget (fun _ => 0) budgets (linkNum o.1 o.2) - 1 else 0)
          + b2n (crossesBridge o))).sum

/-- The path records in force at the sequencer; a handover in its frame adds the new ones (R221). -/
def SeqPart.inForce (q : SeqPart) : List (BitVec 64) :=
  match q.armed with
  | some w => if w.handover && w.begun then q.paths ++ q.stagedPaths else q.paths
  | none => q.paths

/-- Every path record in force (R261). -/
def State.allPaths (s : State) : List (BitVec 64) :=
  (upTo 8).flatMap (fun p => (s.part p).inForce)

/-- The largest extra of a partition's paths under budgets (R218); none where a path cannot be
mapped. -/
def State.worstExtra (s : State) (budgets : Table Nat) (paths : List (BitVec 64)) : Option Nat :=
  paths.foldl (fun w rec_ =>
    match w, s.pathNs budgets rec_ with
    | some w, some ns => some (max w (ns - bitsOf rec_.toNat 47 32))
    | _, _ => none) (some 0)

/-- The budget registers are written (R216, R261): JET_TBUD and CLD_SBUD. -/
def State.writeBudgets (s : State) : State :=
  let t := s.budgetsOf s.allPaths
  let b (k : Nat) := tget (fun _ => 0) t k
  let s := (upTo 9).foldl (fun s n => s.setReg (aJetTbud n)
    (BitVec.ofNat 32 (((upTo 5).map (fun p => b (n * 8 + p) * 2 ^ (6 * p))).sum))) s
  (upTo s.variant.pcells).foldl (fun s p => s.setReg (aCldSbud (p / 16) (p % 16))
    (BitVec.ofNat 32 (((upTo 5).map (fun i => b ((16 + p) * 8 + i + 1) * 2 ^ (6 * i))).sum))) s

/-- The margin check of a placement (R218): every budget at most 48, and every extra of every
Scheduled partition at most its margin. -/
def State.marginsOk (s : State) : Bool :=
  let t := s.budgetsOf s.allPaths
  budgetsOk t && (upTo 8).all (fun p =>
    match s.worstExtra t (s.part p).inForce with
    | some w => decide (w ≤ s.regF (aSeqMargin p) 15 0)
    | none => false)

/-- The largest extras of a check, of the placement and the schedules that another state shows, are recorded in
SEQ_MARGIN.worst, whether the check passes or not (R218). -/
def State.noteMargins (s t : State) : State :=
  let b := t.budgetsOf t.allPaths
  (upTo 8).foldl (fun s p =>
    if (t.part p).inForce = [] then s
    else s.setRegF (aSeqMargin p) 31 16 (sat 0xFFFF ((t.worstExtra b (t.part p).inForce).getD 0xFFFF))) s

/-- The largest extras of the placement and the schedules in force are recorded (R218). -/
def State.recordMargins (s : State) : State := s.noteMargins s

end Sys2Proof.Machine
end

