-- ==== Sys2Proof/Machine/Hop.lean ====
section
/-! DEFINITION. What a link does to a flit and what an endpoint finds: the per-hop check (R230, R248),
the end-to-end CRC-7 (R231, R249), and the payload bits that an undetected error changes. -/

namespace Sys2Proof.Machine

/-! ### The per-hop check (R230) -/

/-- The codeword positions of the data bits d0 to d143: 3 to 152, less the powers of two. -/
def dataPositions : List Nat :=
  (List.range 153).filter (fun n => decide (3 ≤ n ∧ n ∉ [4, 8, 16, 32, 64, 128]))

/-- The codeword position of flit bit i, for i below 153 (R230): data bit i, check bit i - 144 at its
power of two, and the parity bit 152 at position 0. -/
def bitPosition (i : Nat) : Nat :=
  if i < 144 then dataPositions.getD i 0 else if i < 152 then 2 ^ (i - 144) else 0

/-- s of R230 for the flipped bits of a flit: the XOR of their positions. -/
def hopSyndrome (flips : BitVec 160) : Nat :=
  (List.range 153).foldl (fun s i => if flips.getLsbD i then s ^^^ bitPosition i else s) 0

/-- e of R230: the parity of the flipped bits. -/
def hopParity (flips : BitVec 160) : Bool :=
  (List.range 153).foldl (fun e i => e ^^ flips.getLsbD i) false

/-- What a receiver's check finds (R230): clean, a single-bit error that it corrects, or an
uncorrectable error. The residue is the flips that remain. -/
inductive HopResult where
  | clean (residue : BitVec 160)
  | single (residue : BitVec 160) (s : Nat)
  | bad (s : Nat) (e : Bool)
  deriving DecidableEq, Repr

/-- The check of R230. -/
def hopCheck (flips : BitVec 160) : HopResult :=
  let s := hopSyndrome flips
  let e := hopParity flips
  if s = 0 ∧ e = false then .clean flips
  else if e = true ∧ s ≤ 152 then
    match (List.range 153).find? (fun i => bitPosition i = s) with
    | some i => .single (flips ^^^ ((1 : BitVec 160) <<< i)) s
    | none => .bad s e
  else .bad s e

/-- Payload and crc errors of a flit's residue: bits [143:16], and [159:153] above them. -/
def residueErrs (r : BitVec 160) : BitVec 135 :=
  ((r >>> 16).setWidth 128).setWidth 135 ||| ((r >>> 153).setWidth 135 <<< 128)

/-! ### The end-to-end check (R231) -/

/-- The CRC-7 of 128 payload bits, fed from bit 0 upward: x^7 + x^3 + 1, register 0 at the start. -/
def crc7 (x : BitVec 128) : BitVec 7 :=
  (List.range 128).foldl (fun c i =>
    let next := c <<< 1
    if c.msb ^^ x.getLsbD i then next ^^^ 0x09 else next) 0

/-- The check of R249 passes for the errors of a flit: the code is linear. -/
def errsPass (e : BitVec 135) : Bool := crc7 (e.setWidth 128) = (e >>> 128).setWidth 7

/-! ### Payload bits (R39, R145, R236, R315) -/

/-- A header's words H0 to H3 as one number (R145). -/
def Header.toNat (h : Header) : Nat :=
  leNat (({ hdr := h, busy := 0, state := .live, scheduled := false, trapPending := false
            complete := false } : DirEntry).words.flatMap (fun w => leBytes 4 w.toNat))

/-- The header that H0 to H3 hold. -/
def Header.ofNat (v : Nat) : Header :=
  { flow := BitVec.ofNat 12 v, iteration := BitVec.ofNat 16 (v / 2 ^ 12)
    cls := BitVec.ofNat 2 (v / 2 ^ 28), atomic := bitsOf v 30 30 = 1
    base := BitVec.ofNat 14 (v / 2 ^ 32), nareas := BitVec.ofNat 3 (v / 2 ^ 48)
    areaWords := BitVec.ofNat 14 (v / 2 ^ 64), winWords := BitVec.ofNat 14 (v / 2 ^ 80)
    handler := BitVec.ofNat 14 (v / 2 ^ 96), hen := bitsOf v 110 110 = 1 }

/-- A token with payload bits flipped. -/
def Token.flip (t : Token) (x : Nat) : Token := Token.ofNat (t.toNat ^^^ x)

/-- A header with payload bits flipped. -/
def Header.flip (h : Header) (x : Nat) : Header := Header.ofNat (h.toNat ^^^ x)

/-- Data bytes with the bits of flit i flipped, i from 1 (R236). -/
def flipBody (body : List Byte) (i x : Nat) : List Byte :=
  (upTo body.length).map fun j =>
    let b := body.getD j 0
    if j / 16 + 1 = i then b ^^^ BitVec.ofNat 8 (x / 2 ^ (8 * (j % 16))) else b

/-- A Q request with payload bits of its head flipped (R236). -/
def Request.flip (r : Request) (x : Nat) : Request :=
  { r with
    addr := r.addr ^^^ BitVec.ofNat 32 x, op := r.op ^^^ BitVec.ofNat 8 (x / 2 ^ 32)
    rcloud := r.rcloud ^^^ BitVec.ofNat 5 (x / 2 ^ 40)
    rcell := r.rcell ^^^ BitVec.ofNat 4 (x / 2 ^ 45)
    unit := r.unit ^^^ BitVec.ofNat 3 (x / 2 ^ 49), tag := r.tag ^^^ BitVec.ofNat 6 (x / 2 ^ 52)
    data := r.data ^^^ BitVec.ofNat 64 (x / 2 ^ 64) }

/-- A P response with payload bits of its head flipped (R236). -/
def Response.flip (r : Response) (x : Nat) : Response :=
  { r with
    addr := r.addr ^^^ BitVec.ofNat 32 x, status := r.status ^^^ BitVec.ofNat 8 (x / 2 ^ 32)
    rcloud := r.rcloud ^^^ BitVec.ofNat 5 (x / 2 ^ 40)
    rcell := r.rcell ^^^ BitVec.ofNat 4 (x / 2 ^ 45), unit := r.unit ^^^ BitVec.ofNat 3 (x / 2 ^ 49)
    tag := r.tag ^^^ BitVec.ofNat 6 (x / 2 ^ 52), data := r.data ^^^ BitVec.ofNat 64 (x / 2 ^ 64) }

/-- An event message as a token flit carries it: the value, the flow, and the flag in the iteration's place, every
other field 0. The manual gives no payload of an event (PRESUMED: log entry 60). -/
def eventToken (flow : BitVec 12) (flag : BitVec 5) (value : Word) : Token :=
  { Token.ofNat 0 with value, flow, iteration := flag.setWidth 16 }

/-- A message with the payload bits of flit i flipped. The manual gives no payload of a grant's tail: its fields lie
from bit 0 upward (PRESUMED: log entry 60). -/
def Msg.flip (m : Msg) (i x : Nat) : Msg :=
  match m with
  | .token t => .token (t.flip x)
  | .start h t => if i = 0 then .start (h.flip x) t else .start h (t.flip x)
  | .prefetch h t => if i = 0 then .prefetch (h.flip x) t else .prefetch h (t.flip x)
  | .grant h q => if i = 0 then .grant (h.flip x) q else .grant h (q ^^^ BitVec.ofNat 16 x)
  | .preMatched t w1 st c l o =>
    if i = 0 then .preMatched (t.flip x) w1 st c l o
    else .preMatched t (w1 ^^^ BitVec.ofNat 32 x) (st ^^^ BitVec.ofNat 32 (x / 2 ^ 32))
      (c ^^^ BitVec.ofNat 3 (x / 2 ^ 64)) (l ^^ (bitsOf x 67 67 = 1)) (o ^^ (bitsOf x 68 68 = 1))
  | .event f g v =>
    let t := (eventToken f g v).flip x
    .event t.flow (t.iteration.setWidth 5) t.value
  | .request r => .request (if i = 0 then r.flip x else { r with body := flipBody r.body i x })
  | .response r => .response (if i = 0 then r.flip x else { r with body := flipBody r.body i x })

/-- A mirror record with tail bits flipped (R318). -/
def Mirror.flip (m : Mirror) (x : Nat) : Mirror :=
  { k := m.k ^^^ BitVec.ofNat 32 x, tstart := m.tstart ^^^ BitVec.ofNat 36 (x / 2 ^ 32)
    fseq := m.fseq ^^^ BitVec.ofNat 20 (x / 2 ^ 68), entry := m.entry ^^^ BitVec.ofNat 10 (x / 2 ^ 88)
    outcome := m.outcome ^^^ BitVec.ofNat 2 (x / 2 ^ 98)
    present := m.present ^^^ BitVec.ofNat 2 (x / 2 ^ 100)
    mcount := m.mcount ^^^ BitVec.ofNat 2 (x / 2 ^ 102) }

/-- A pair packet with the bits of its head or its tail flipped (R315). -/
def PairPacket.flip (p : PairPacket) (i x : Nat) : PairPacket :=
  if i = 0 then
    { p with
      fseq := p.fseq ^^^ BitVec.ofNat 20 x, n := p.n ^^^ BitVec.ofNat 8 (x / 2 ^ 20)
      checker := p.checker ^^ (bitsOf x 28 28 = 1)
      dcloud := p.dcloud ^^^ BitVec.ofNat 5 (x / 2 ^ 32)
      dcell := p.dcell ^^^ BitVec.ofNat 4 (x / 2 ^ 37)
      pid := p.pid ^^^ BitVec.ofNat 8 (x / 2 ^ 48), flow := p.flow ^^^ BitVec.ofNat 12 (x / 2 ^ 64)
      iteration := p.iteration ^^^ BitVec.ofNat 16 (x / 2 ^ 76) }
  else
    { p with
      msg := p.msg.map (fun m => m.flip 0 x), mirror := p.mirror.map (fun m => m.flip x)
      word := p.word ^^^ BitVec.ofNat 32 x }

/-- What a packet carries, as its endpoint uses it after errors that no check has found (R231). -/
def Packet.received (p : Packet) : Cargo :=
  p.errs.foldl (fun c e =>
    let x := (e.2.setWidth 128).toNat
    match c with
    | .plain m => .plain (m.flip e.1 x)
    | .paired q => .paired (q.flip e.1 x)
    | .replay t r => .replay (t.flip x) { r with value := (t.flip x).value }) p.cargo

/-- The payload bits of flit i of a message, as its flips number them. -/
def Msg.payload (m : Msg) (i : Nat) : Nat :=
  let part (body : List Byte) : Nat := leNat ((body.drop (16 * (i - 1))).take 16)
  match m with
  | .token t => t.toNat
  | .start h t => if i = 0 then h.toNat else t.toNat
  | .prefetch h t => if i = 0 then h.toNat else t.toNat
  | .grant h q => if i = 0 then h.toNat else q.toNat
  | .preMatched t w1 st c l o =>
    if i = 0 then t.toNat
    else w1.toNat + st.toNat * 2 ^ 32 + c.toNat * 2 ^ 64 + b2n l * 2 ^ 67 + b2n o * 2 ^ 68
  | .event f g v => (eventToken f g v).toNat
  | .request r =>
    if i = 0 then
      r.addr.toNat + r.op.toNat * 2 ^ 32 + r.rcloud.toNat * 2 ^ 40 + r.rcell.toNat * 2 ^ 45 + r.unit.toNat * 2 ^ 49
        + r.tag.toNat * 2 ^ 52 + r.data.toNat * 2 ^ 64
    else part r.body
  | .response r =>
    if i = 0 then
      r.addr.toNat + r.status.toNat * 2 ^ 32 + r.rcloud.toNat * 2 ^ 40 + r.rcell.toNat * 2 ^ 45
        + r.unit.toNat * 2 ^ 49 + r.tag.toNat * 2 ^ 52 + r.data.toNat * 2 ^ 64
    else part r.body

/-- The payload bits of a mirror record's tail (R318). -/
def Mirror.payload (m : Mirror) : Nat :=
  m.k.toNat + m.tstart.toNat * 2 ^ 32 + m.fseq.toNat * 2 ^ 68 + m.entry.toNat * 2 ^ 88 + m.outcome.toNat * 2 ^ 98
    + m.present.toNat * 2 ^ 100 + m.mcount.toNat * 2 ^ 102

/-- The payload bits of a body or tail flit of a packet: what a flip must change to leave zeros (R248). -/
def Packet.tailPayload (p : Packet) (i : Nat) : Nat :=
  match p.cargo with
  | .plain m => m.payload i
  | .paired q => match q.msg, q.mirror with
    | some m, _ => m.payload 0
    | none, some m => m.payload
    | none, none => q.word.toNat
  | .replay t _ => t.toNat

/-- What stands in place of a body or tail flit that could not be corrected, as a difference from the flit that was sent: a
payload of zeros with the crc 0x7F (R248). -/
def Packet.zeroed (p : Packet) (i : Nat) : BitVec 135 :=
  let x := BitVec.ofNat 128 (p.tailPayload i)
  x.setWidth 135 ||| ((crc7 x ^^^ 0x7F#7).setWidth 135 <<< 128)

/-- The first flit of a packet that fails the end-to-end check (R249). -/
def Packet.badFlit (p : Packet) : Option Nat :=
  (p.errs.find? (fun e => !errsPass e.2)).map Prod.fst

/-! ### Crossing a link (R248) -/

/-- The link id of an output port (R259). -/
def linkId (at_ : Place) (port : Nat) : Nat :=
  match at_ with
  | .router c k => c % 32 * 256 + k % 16 * 16 + port % 8
  | .level1 n => 0x4000 + n % 16 * 256 + port % 8
  | .level2 m => 0x4000 + (6 + m) % 16 * 256 + port % 8
  | .root => 0x4800 + port % 8
  | .bridge c up =>
    if up then c % 32 * 256 + 5 else 0x4000 + level1Of c % 16 * 256 + (1 + c % 3)

/-- The master of a report by a router or node (R262). -/
def placeMaster (at_ : Place) : BitVec 10 :=
  match at_ with
  | .router c k => cellMaster (c * 16 + k)
  | _ => masterDma

/-- A network report about a packet at a link (R262). -/
def State.jetReport (s : State) (source : Nat) (detector : Place) (link : Nat) (p : Packet)
    (head se : Nat) : State :=
  s.raise source (placeMaster detector) p.access (BitVec.ofNat 32 link)
    (BitVec.ofNat 32 (head % 65536 + se % 512 * 65536))

/-- Header bits that an error left changed (R229): the destination, the port and the channel. -/
def Packet.flipHead (p : Packet) (r : BitVec 160) : Packet :=
  let x := r.toNat
  { p with
    dcloud := p.dcloud ^^^ BitVec.ofNat 5 x, dcell := p.dcell ^^^ BitVec.ofNat 4 (x / 32)
    la := p.la ^^^ bitsOf x 11 9
    vc := match (p.vc.code ^^^ bitsOf x 13 12) with
      | 0 => .t
      | 1 => .q
      | 2 => .p
      | _ => .s }

/-- Header bits of a body or tail flit, or kind bits of a head, that errors left changed. -/
def Packet.addHead (p : Packet) (flit : Nat) (r : BitVec 160) : Packet :=
  { p with hdrErrs := tset (fun _ => 0) p.hdrErrs flit (tget (fun _ => 0) p.hdrErrs flit
    ^^^ (r.setWidth 16 &&& (if flit = 0 then 0xC000#16 else 0xF1FF#16))) }

/-- The packet after flips on one of its flits left a residue. A body or tail flit follows its head's route whatever
its own header bits say (R236), and every sender writes its la anew. -/
def Packet.addErrs (p : Packet) (flit : Nat) (r : BitVec 160) : Packet :=
  let p := { p.addHead flit r with
    errs := tset (fun _ => 0) p.errs flit (tget (fun _ => 0) p.errs flit ^^^ residueErrs r) }
  if flit = 0 then p.flipHead r else p

/-- One flit of a packet reaches the receiver of a link with flipped bits (R248): the packet as it goes on, or nothing
where it is discarded. -/
def State.receiveFlit (s : State) (p : Packet) (detector : Place) (link flit : Nat)
    (flips : BitVec 160) : State × Option Packet :=
  if flips = 0 ∨ p.flits ≤ flit then (s, some p)
  else
    let bad (sy : Nat) (e : Bool) : State × Option Packet :=
      let head := p.flit16 flit ^^^ (flips.toNat % 65536)
      let s := (s.bump (aJetCnt 1)).jetReport srcJetHopUe detector link p head (sy + b2n e * 256)
      if flit = 0 then (s, none)
      else (s, some { p.addHead flit flips with errs := tset (fun _ => 0) p.errs flit (p.zeroed flit) })
    match hopCheck flips with
    | .clean r => (s, some (p.addErrs flit r))
    | .single r sy =>
      if s.regF aJetCtrl 0 0 = 1 then
        let q := p.addErrs flit r
        ((s.bump (aJetCnt 0)).jetReport srcJetHopCe detector link p (q.flit16 flit) (sy + 256), some q)
      else bad sy true
    | .bad sy e => bad sy e

/-- A packet reaches the receiver of a link with the flipped bits of its flits, in the order of its flits (R248): the packet
as it goes on, or nothing where it is discarded. -/
def State.receive (s : State) (p : Packet) (detector : Place) (link : Nat) (flips : Table (BitVec 160)) :
    State × Option Packet :=
  if flips = [] then (s, some p)
  else (upTo p.flits).foldl (fun r i => match r.2 with
    | some q => r.1.receiveFlit q detector link i (tget (fun _ => 0) flips i)
    | none => r) (s, some p)

/-! ### Probes (R259, R260) -/

/-- Flit i of a packet is a token flit (R259): a single flit on T or S, or the tail of a start or prefetch message, with the
payload that it carries there. -/
def Packet.tokenFlit (p : Packet) (i : Nat) : Option Token :=
  if (p.vc = .t ∨ p.vc = .s) ∧ i + 1 = p.flits then
    match p.received with
    | .plain (.token t) => some t
    | .plain (.start _ t) => some t
    | .plain (.prefetch _ t) => some t
    | .plain (.event f g v) => some (eventToken f g v)
    | .replay t _ => some t
    | _ => none
  else none

/-- A flit passes the filters of a probe (R259). -/
def State.probePasses (s : State) (n : Nat) (p : Packet) (i : Nat) : Bool :=
  let cfg := s.reg (aPrbCfg n)
  let dst := s.reg (aPrbDst n)
  let fl := s.reg (aPrbFlow n)
  let w := p.flit16 i
  let vc := bitsOf w 13 12
  let kind := bitsOf w 15 14
  fld cfg (2 + vc) (2 + vc) = 1 && fld cfg (6 + kind) (6 + kind) = 1
    && (fld cfg 14 14 = 0 || (fld dst 4 0 = bitsOf w 4 0
        && (fld dst 9 9 = 1 || fld dst 8 5 = bitsOf w 8 5)))
    && (match p.tokenFlit i with
      | none => true
      | some t => decide (t.cls.toNat < 4) && fld cfg (10 + t.cls.toNat) (10 + t.cls.toNat) = 1
          && (fld cfg 15 15 = 0 || decide (fld fl 11 0 ≤ t.flow.toNat ∧ t.flow.toNat ≤ fld fl 27 16)))

/-- A probe's trace record of a flit (R260). -/
def State.probeRecord (s : State) (n : Nat) (p : Packet) (i : Nat) : Nat :=
  let tok := p.tokenFlit i
  let flow := match tok with
    | some t => t.flow.toNat
    | none => 0
  let cls := match tok with
    | some t => t.cls.toNat
    | none => 0
  let w := p.flit16 i
  let last := match tok, p.received with
    | some t, _ => t.iteration.toNat
    | none, .plain (.request r) => if i = 0 then r.addr.toNat % 65536 else 0
    | none, _ => 0
  s.zen.count % 2 ^ 63
    + (flow + bitsOf w 13 12 * 2 ^ 12 + bitsOf w 15 14 * 2 ^ 14 + n * 2 ^ 16 + cls * 2 ^ 21
        + bitsOf w 8 5 * 2 ^ 24 + 2 ^ 31) * 2 ^ 64
    + (bitsOf w 4 0 + bitsOf w 11 9 * 32 + last * 65536) * 2 ^ 96

/-- One flit of a packet leaves an output port: every probe of the port counts it where it passes, and
may trace it. -/
def State.probeFlit (s : State) (link : Nat) (p : Packet) (i : Nat) : State :=
  (upTo 32).foldl (fun s n =>
    if s.regF (aPrbCfg n) 0 0 = 1 ∧ s.regF (aPrbSel n) 15 0 = link ∧ s.probePasses n p i then
      let s := s.bump (aPrbCnt n)
      if s.regF (aPrbCfg n) 1 1 = 1 then
        match s.putTrace (s.probeRecord n p i) 3 with
        | (s, true) => s
        | (s, false) => s.bump (aPrbDrop n)
      else s
    else s) s

/-- A packet leaves an output port (R259). -/
def State.probe (s : State) (at_ : Place) (port : Nat) (p : Packet) : State :=
  (upTo p.flits).foldl (fun s i => s.probeFlit (linkId at_ port) p i) s

/-- PRB_CFG is written (R259): en set from 0 to 1 clears the counters. -/
def State.writePrbCfg (s : State) (n : Nat) (v : Word) : State :=
  let s := if s.regF (aPrbCfg n) 0 0 = 0 ∧ fld v 0 0 = 1 then
      (s.setReg (aPrbCnt n) 0).setReg (aPrbDrop n) 0 else s
  s.setReg (aPrbCfg n) (v &&& 0xFFFF#32)

/-- PRB_CFG_WRITE (R259). -/
def execPrbCfgWrite (probe : Nat) (v : Word) (s : State) : Out :=
  unitOk s (probe < 32) <| s.ownWrite (aPrbCfg probe) v (s.writePrbCfg probe v)

end Sys2Proof.Machine
end

