-- ==== Sys2Proof/Machine/Spill.lean ====
section
/-! DEFINITION. The spill engine of a cloud (R66 to R73): its two levels, the tokens it takes, returns
and fires, latch sweeps, purges, its ager, and the flush of a park (R254, R274). -/

namespace Sys2Proof.Machine

/-! ### The levels (R66, R67) -/

/-- The index v of a token (R66). -/
def Token.spillIndex (t : Token) : Nat := setOf t.flow t.iteration t.addr * 16 + t.cell.toNat % 16

/-- Level-2 sets of a cloud (MEM_SPILL_CFG.l2_size). -/
def State.l2Sets (s : State) (c : Nat) : Nat := 64 * 2 ^ s.regF (aMemSpillCfg c) 10 8

/-- Level 3 is enabled (MEM_SPILL_CFG.l3_en). -/
def State.l3On (s : State) (c : Nat) : Bool := s.regF (aMemSpillCfg c) 16 16 = 1

/-- Where an entry lies: level 2 or 3, and its place in that level's table. -/
structure SpillPos where
  level3 : Bool
  index  : Nat
  deriving DecidableEq, Repr

/-- The places of a level-2 set, and of a level-3 bucket, in order. -/
def l2Places (set : Nat) : List Nat := (upTo 7).map (set * 7 + ·)

/-- The places of a level-3 bucket, in order. -/
def l3Places (bucket : Nat) : List Nat := (upTo 63).map (bucket * 63 + ·)

/-- The master of a spill engine's report: the cloud's gateway, at its router 0 (R83). -/
def engineMaster (c : Nat) : BitVec 10 := BitVec.ofNat 10 (c * 16)

/-- A spill engine reports a token (R83); for a duplicate with its port (R63). -/
def State.engineFault (s : State) (source c : Nat) (t : Token) : State :=
  s.raise source (engineMaster c) accToken (keyAddr t.flow t.addr)
    (if source = srcDup then dupSyn t else t.iteration.setWidth 32)

/-- An entry at a place. -/
def Cloud.entryAt (k : Cloud) (p : SpillPos) : Option Entry :=
  tfind (if p.level3 then k.l3 else k.l2) p.index

/-- The cloud with a place emptied. -/
def Cloud.clearAt (k : Cloud) (p : SpillPos) : Cloud :=
  if p.level3 then { k with l3 := terase k.l3 p.index } else { k with l2 := terase k.l2 p.index }

/-- The cloud with an entry written at a place. -/
def Cloud.putAt (k : Cloud) (p : SpillPos) (e : Entry) : Cloud :=
  if p.level3 then { k with l3 := tins k.l3 p.index e } else { k with l2 := tins k.l2 p.index e }

/-- The places of index v at both levels, level 2 first. -/
def State.placesOf (s : State) (c v : Nat) : List SpillPos :=
  (l2Places (v % s.l2Sets c)).map (fun i => { level3 := false, index := i })
    ++ (l3Places v).map (fun i => { level3 := true, index := i })

/-- The first place among several whose entry satisfies a test. -/
def Cloud.findAt (k : Cloud) (p : Entry → Bool) (ps : List SpillPos) : Option (SpillPos × Entry) :=
  ps.findSome? fun q => (k.entryAt q).bind fun e => if p e then some (q, e) else none

/-- The place among several whose entry satisfies a test and has the earliest stamp, the first of
equal ones. -/
def Cloud.earliestAt (k : Cloud) (p : Entry → Bool) (ps : List SpillPos) : Option (SpillPos × Entry) :=
  ps.foldl (fun best q =>
    match k.entryAt q with
    | none => best
    | some e =>
      if ¬ p e then best
      else match best with
        | none => some (q, e)
        | some (r, f) => if earlier e.tok.stamp f.tok.stamp then some (q, e) else some (r, f)) none

/-- A waiting token of a key, under the rule of R66. -/
def Entry.spillHit (e : Entry) (cell : BitVec 8) (flow : BitVec 12) (iteration : BitVec 16)
    (addr : BitVec 14) : Bool :=
  e.hit false flow iteration addr && e.tok.cell = cell

/-! ### Leaving the levels (R68, R72) -/

/-- The physical cell of a cloud that works under an id. -/
def State.homeIn (s : State) (c : Nat) (cell : BitVec 8) : Option Nat :=
  ((upTo 16).map (c * 16 + ·)).find? fun p => match s.lidOf p with
    | some lid => s.workId lid = cell.toNat
    | none => false

/-- The physical cell that keeps the spill counters of an id whose tokens a cloud's levels hold: the one of that cloud, or
while a relocation moves the id's tokens to the cloud, the cell that the id still stands on (R68, R73). -/
def State.counterOf (s : State) (c : Nat) (cell : BitVec 8) : Option Nat :=
  (s.homeIn c cell).orElse fun _ =>
    if s.rep.phase ≠ .idle ∧ s.workId s.rep.lid = cell.toNat then s.placeOf s.rep.lid else none

/-- A token of a cell's set has left levels 2 and 3, to be told by the next COUNT (R68). -/
def State.countLeft (s : State) (c : Nat) (t : Token) : State :=
  match s.counterOf c t.cell with
  | none => s
  | some p =>
    let i := p % 16 * 256 + setOf t.flow t.iteration t.addr
    s.modCloud (p / 16) (fun k => { k with left := tset (fun _ => 0) k.left i (tget (fun _ => 0) k.left i + 1) })

/-- A level-2 entry has freed: the earliest token of the level-3 buckets of its set moves up into it
(R72). -/
def State.moveUp (s : State) (c index : Nat) : State :=
  let k := s.cloud c
  let set := index / 7
  let ps := (k.l3.map Prod.fst).filter (fun i => i / 63 % s.l2Sets c = set)
  match k.earliestAt (fun _ => true) (ps.map (fun i => { level3 := true, index := i })) with
  | none => s
  | some (q, e) => s.modCloud c (fun k => (k.clearAt q).putAt { level3 := false, index } e)

/-- An entry is removed from its level, and the cell will hear of it (R68, R72). -/
def State.takeSpilled (s : State) (c : Nat) (q : SpillPos) (e : Entry) : State :=
  let s := (s.modCloud c (fun k => k.clearAt q)).countLeft c e.tok
  if q.level3 then s else s.moveUp c q.index

/-- A spill engine sends a packet from its router to one of its cells (R227, R274). -/
def State.engineSend (s : State) (c pcell : Nat) (vc : Vc) (m : Msg) : State :=
  s.modCloud c (fun k => { k with engineOut := k.engineOut ++ [
    { dcloud := BitVec.ofNat 5 c, dcell := BitVec.ofNat 4 (pcell % 16), vc, cargo := .plain m
      place := .router c 15, inPort := 0, la := 0, errs := [], hdrErrs := [], sender := 0x3FF, credit := none }] })

/-- A token is returned to a cell: a token flit on T with its spilled flag 1 (R71, R274). -/
def State.returnToken (s : State) (c pcell : Nat) (t : Token) : State :=
  (s.engineSend c pcell .t (.token t)).bump (aMemSpillRet c)

/-- A pair fired at a spill level is delivered as a pre-matched activation (R70, R274): the left token in the head, the
rest of the firing in the tail. -/
def State.preMatch (s : State) (c pcell : Nat) (left : Token) (a : Activation) : State :=
  (s.engineSend c pcell .t (.preMatched { left with port := 0 } a.w1 a.stamp (a.cls.setWidth 3) a.late a.ordered)).bump
    (aMemSpillFire c)

/-! ### Taking a token (R67, R70) -/

/-- An entry is pushed down to its own level-3 bucket, or discarded with SPILL_FULL (R67). The manual names no entry of a
bucket that it takes: it takes the lowest free one (DESIGN CHOICE: log entry 19). -/
def State.pushDown (s : State) (c : Nat) (e : Entry) : State :=
  match (l3Places e.tok.spillIndex).find? (fun i => (tfind (s.cloud c).l3 i).isNone) with
  | some i => s.modCloud c (fun k => { k with l3 := tins k.l3 i e })
  | none => (s.engineFault srcSpillFull c e.tok).countLeft c e.tok

/-- A token enters level 2 (R67); and whether it was itself discarded. -/
def State.enterL2 (s : State) (c : Nat) (e : Entry) : State × Bool :=
  let places := l2Places (e.tok.spillIndex % s.l2Sets c)
  match places.find? (fun i => (tfind (s.cloud c).l2 i).isNone) with
  | some i => (s.modCloud c (fun k => { k with l2 := tins k.l2 i e }), false)
  | none =>
    if ¬ s.l3On c then ((s.engineFault srcSpillFull c e.tok).countLeft c e.tok, true)
    else
      match (s.cloud c).earliestAt (fun _ => true)
          (places.map (fun i => { level3 := false, index := i })) with
      | none => (s, false)
      | some (q, f) =>
        (((s.modCloud c (fun k => k.clearAt q)).pushDown c f).modCloud c (fun k => k.putAt q e), false)

/-- A token from a cell is probed against the levels, and fires, is a duplicate, or enters level 2
(R67, R70); and whether it was discarded with SPILL_FULL. -/
def State.receiveSpill (s : State) (c pcell : Nat) (e : Entry) : State × Bool :=
  let t := e.tok
  let s := s.bump (aMemSpillOut c)
  match (s.cloud c).findAt (fun x => x.spillHit t.cell t.flow t.iteration t.addr)
      (s.placesOf c t.spillIndex) with
  | some (q, x) =>
    if x.tok.port = t.port then ((s.engineFault srcDup c t).countLeft c t, false)
    else
      let s := (s.takeSpilled c q x).countLeft c t
      (if t.port = 1 then s.preMatch c pcell t (pairAct t x.tok)
        else s.preMatch c pcell x.tok (pairAct x.tok t), false)
  | none => s.enterL2 c e

/-- The spill engine of a cloud works: the cloud runs or drains. -/
def State.engineOn (s : State) (c : Nat) : Bool :=
  (s.cloud c).state = .run || (s.cloud c).state = .drain

/-- The request at the head of a spill engine's queue is handled by the command of its operation, and answered with some
data; its entry's credit returns (R238, R274). -/
def State.takeEngine (s : State) (c op : Nat) (f : Request → Nat → State → State × Nat) : Out :=
  unitOk s (c < s.variant.clouds) <|
    match (s.cloud c).engineQ with
    | [] => s
    | r :: rest =>
      if ¬ s.engineOn c ∨ r.op.toNat ≠ op then s
      else
        let (s, data) := f r (r.rcloud.toNat * 16 + r.rcell.toNat)
          ((s.modCloud c (fun k => { k with engineQ := rest })).giveBack r.credit)
        s.modCloud c (fun k => { k with
          engineOut := k.engineOut ++ [r.answer (.router c 15) 0 (BitVec.ofNat 64 data) []] })

/-- The token in the tail of a message (R274). -/
def Request.token (r : Request) : Token := Token.ofNat (leNat r.body)

/-- Field [hi:lo] of the data of a message (R274). -/
def Request.field (r : Request) (hi lo : Nat) : Nat := bitsOf r.data.toNat hi lo

/-- The entries that a spilled token's probe reads, level 2 first (R66, R83). -/
def State.spillEcc (s : State) (c : Nat) (t : Token) (ecc : MatchEcc) : State :=
  let at_ (place : Nat) : Option (SpillPos × Entry) :=
    ((s.placesOf c t.spillIndex)[place]?).bind fun q => ((s.cloud c).entryAt q).map fun e => (q, e)
  match ecc with
  | .good => s
  | .single place => match at_ place with
    | some (_, e) => s.engineFault srcMatchEccC c e.tok
    | none => s
  | .double place => match at_ place with
    | some (q, e) => (s.takeSpilled c q e).engineFault srcMatchEccU c e.tok
    | none => s

/-- SPILL (R67, R70). -/
def execSpill (at_ : CloudRead) (s : State) : Out :=
  s.takeEngine at_.cloud 0x60 fun r pcell s =>
    let e : Entry := { tok := r.token, latch := false, past := fld r.addr 12 12 = 1 }
    let (s, full) := (s.spillEcc at_.cloud e.tok at_.ecc).receiveSpill at_.cloud pcell e
    (s, b2n full)

/-- RECALL (R69): the partner, or the token of the same port, is removed and returned. -/
def execRecall (cloud : Nat) (s : State) : Out :=
  s.takeEngine cloud 0x61 fun r pcell s =>
    let flow := BitVec.ofNat 12 (r.field 11 0)
    let iteration := BitVec.ofNat 16 (r.field 27 12)
    let addr := BitVec.ofNat 14 (r.field 41 28)
    let cell := BitVec.ofNat 8 (s.idOf pcell)
    let v := setOf flow iteration addr * 16 + cell.toNat % 16
    match (s.cloud cloud).findAt (fun x => x.spillHit cell flow iteration addr) (s.placesOf cloud v) with
    | some (q, x) =>
      ((s.takeSpilled cloud q x).returnToken cloud pcell x.tok,
        if x.tok.port.toNat = r.field 43 42 then 2 else 1)
    | none => (s, 0)

/-- FETCH (R72): the waiting token of a cell's set with the earliest stamp is returned. -/
def execFetch (cloud : Nat) (s : State) : Out :=
  s.takeEngine cloud 0x62 fun r pcell s =>
    let cell := BitVec.ofNat 8 (s.idOf pcell)
    let v := fld r.addr 7 0 * 16 + cell.toNat % 16
    match (s.cloud cloud).earliestAt
        (fun x => x.tok.cell = cell && x.tok.spillIndex = v) (s.placesOf cloud v) with
    | some (q, x) => ((s.takeSpilled cloud q x).returnToken cloud pcell x.tok, 1)
    | none => (s, 0)

/-- The first entry of levels 2 and 3 that satisfies a test. R48 gives the engine no order for the tokens that a sweep
finds: it takes level 2 by place, then level 3 by place (DESIGN CHOICE: log entry 19). -/
def Cloud.firstSpilled (k : Cloud) (p : Entry → Bool) : Option (SpillPos × Entry) :=
  match k.l2.find? (fun e => p e.2) with
  | some (i, e) => some ({ level3 := false, index := i }, e)
  | none => (k.l3.find? (fun e => p e.2)).map fun (i, e) => ({ level3 := true, index := i }, e)

/-- Every entry of levels 2 and 3 that satisfies a test is taken, and something done with each. -/
def State.takeAll (c : Nat) (p : Entry → Bool) (f : State → Token → State) : Nat → State → State
  | 0, s => s
  | n + 1, s =>
    match (s.cloud c).firstSpilled p with
    | none => s
    | some (q, e) => State.takeAll c p f n (f (s.takeSpilled c q e) e.tok)

/-- The tokens that a cloud holds at levels 2 and 3. -/
def Cloud.spilledCount (k : Cloud) : Nat := k.l2.length + k.l3.length

/-- The entries of levels 2 and 3 that satisfy a test. -/
def Cloud.spilledWith (k : Cloud) (p : Entry → Bool) : Nat :=
  (k.l2.filter (fun e => p e.2)).length + (k.l3.filter (fun e => p e.2)).length

/-- SWEEP (R48): a new latch fires the left tokens of its (flow, addr) at the levels and discards the
right ones. -/
def execSweep (cloud : Nat) (s : State) : Out :=
  s.takeEngine cloud 0x64 fun r pcell s =>
    let lat := r.token
    let own (e : Entry) : Bool := e.tok.cell = lat.cell && e.tok.flow = lat.flow && e.tok.addr = lat.addr
    let rights := (s.cloud cloud).spilledWith (fun e => own e && e.tok.port = 2)
    let lefts := (s.cloud cloud).spilledWith (fun e => own e && e.tok.port ≠ 2)
    (State.takeAll cloud own
      (fun s t => if t.port = 2 then s.engineFault srcPortMix cloud t
        else s.preMatch cloud pcell t (latchAct t lat)) (s.cloud cloud).spilledCount s,
      lefts % 65536 + rights % 65536 * 65536)

/-- ENGINE_PURGE (R57): what the purge names leaves levels 2 and 3, each token as ORPHAN; the answer gives their
number. -/
def execEnginePurge (cloud : Nat) (s : State) : Out :=
  s.takeEngine cloud 0x65 fun r pcell s =>
    let p : Purge :=
      { flow := BitVec.ofNat 12 (r.field 11 0)
        iteration := if r.field 28 28 = 1 then none else some (BitVec.ofNat 16 (r.field 27 12)) }
    let cell := BitVec.ofNat 8 (s.idOf pcell)
    let own (e : Entry) : Bool := e.tok.cell = cell && p.names e
    (State.takeAll cloud own (fun s t => s.engineFault srcOrphan cloud t) (s.cloud cloud).spilledCount s,
      (s.cloud cloud).spilledWith own % 65536)

/-- COUNT (R68, R274): the cell lowers its counter of the first set of which tokens have left. -/
def execCount (pcell : Nat) (s : State) : Out :=
  unitOk s (pcell < s.variant.pcells) <|
    let c := pcell / 16
    match (s.cloud c).left.find? (fun e => e.1 / 256 = pcell % 16) with
    | none => s
    | some (i, n) =>
      if ¬ s.cellRuns pcell then s
      else (s.modCloud c (fun k => { k with left := terase k.left i })).modCell pcell
        (fun k => k.modSpills (i % 256) (· - n))

/-! ### The engine's ager (R53 to R55) -/

/-- The late policy of a flow in the flow table, which a spill engine reads (R55). -/
def State.flowPolicy (s : State) (flow : BitVec 12) : Nat := s.flowF flow.toNat 0 6 5

/-- A spilled entry takes the outcome of a late test, and the flow's late policy where it is late
(R54). -/
def State.settleAge (s : State) (c : Nat) (q : SpillPos) (e : Entry) (late : Bool) : State :=
  let keep := s.modCloud c (fun k => k.putAt q e)
  if ¬ late then keep
  else match s.flowPolicy e.tok.flow with
    | 0 => keep
    | 1 =>
      let s := s.takeSpilled c q e
      match s.homeIn c e.tok.cell with
      | some p => s.modCell p (fun k => { k with lateDrops := k.lateDrops + 1 })
      | none => s
    | _ => (s.takeSpilled c q e).engineFault srcTokenLate c e.tok

/-- One entry of a level is aged (R54). -/
def State.ageSpilled (s : State) (c : Nat) (q : SpillPos) : State :=
  match (s.cloud c).entryAt q with
  | none => s
  | some e => s.settleAge c q (e.age s.now).1 (e.age s.now).2

/-- The late test on wake (R73): the full line time of a stamp, in units of 16 ns, is rebuilt from the
parking time and the past bit, and tested against the present. -/
def Entry.rebuild (e : Entry) (park now : Nat) : Entry × Bool :=
  if e.latch then (e, false)
  else
    let d := (BitVec.ofNat 32 park - e.tok.stamp).toNat
    let t : Int := if e.past ∨ d < 2 ^ 31 then (park : Int) - d else (park : Int) + (2 ^ 32 - d)
    let past := decide (t ≤ now)
    let late := decide ((2 : Int) ^ 31 ≤ now - t) && !e.tok.late
    ({ e with past, tok := { e.tok with late := e.tok.late || late } }, late)

/-- Every level-3 entry of a waking cloud is tested (R73, R256 step 4). -/
def State.rebuildStamps (s : State) (c : Nat) : State :=
  let park := (s.reg (aMemSpillParkl c)).toNat + (s.reg (aMemSpillParkh c)).toNat * 2 ^ 32
  ((s.cloud c).l3.map Prod.fst).foldl (fun s i =>
    let q : SpillPos := { level3 := true, index := i }
    match (s.cloud c).entryAt q with
    | none => s
    | some e =>
      let r := e.rebuild (park / 16) (s.zen.count / 16)
      s.settleAge c q r.1 r.2) s

/-- Every entry of one level is aged. -/
def State.ageLevel (s : State) (c : Nat) (level3 : Bool) : State :=
  let k := s.cloud c
  ((if level3 then k.l3 else k.l2).map Prod.fst).foldl
    (fun s i => s.ageSpilled c { level3, index := i }) s

/-- SPILL_AGER (R53): the engine ages its level 2, or its level 3. -/
def execSpillAger (cloud level : Nat) (s : State) : Out :=
  unitOk s (cloud < s.variant.clouds ∧ (level = 2 ∨ level = 3)) <|
    if s.engineOn cloud then s.ageLevel cloud (level = 3) else s

/-! ### Flush and evict (R73, R254, R274) -/

/-- A waiting token that a cell can send to its spill engine (R64, R65). -/
def Entry.sendable (e : Entry) : Bool := e.eligible

/-- The cells of a cloud have no waiting token left that can spill. -/
def State.storesSent (s : State) (c : Nat) : Bool :=
  ((upTo 16).map (c * 16 + ·)).all fun p =>
    !(s.cell p).evictAsk && (s.cell p).store.all (fun e => !e.2.sendable)

/-- A message of a cell to its engine has not been served: it waits to be launched, or is under a tag (R239). -/
def Cell.engineBusy (c : Cell) : Bool :=
  let own (w : Pending) : Bool := match w with
    | .engine | .purge _ => true
    | _ => false
  c.houseQ.any (fun h => own h.what) || c.tags.any (fun o => own o.what)

/-- Levels 1 and 2 of a cloud are empty, and no token moves between its levels (R73). -/
def State.levelsEmpty (s : State) (c : Nat) : Bool :=
  (s.cloud c).l2.isEmpty && (s.cloud c).engineQ.isEmpty && (s.cloud c).engineOut.isEmpty
    && ((upTo 16).map (c * 16 + ·)).all (fun p =>
      (s.cell p).store.isEmpty && (s.cell p).inQ.isEmpty && !(s.cell p).engineBusy)

/-- The token of a SPILL message, as an entry (R274). -/
def spillMessage (op : Byte) (addr : Word) (body : List Byte) : Option Entry :=
  if op = 0x60 then some { tok := Token.ofNat (leNat body), latch := false, past := fld addr 12 12 = 1 } else none

/-- The token that a packet of the spill engine carries: a victim on its way to the levels, or a returned token. -/
def Packet.moving (p : Packet) : Option (Bool × Entry) :=
  match p.cargo with
  | .plain (.request r) => if r.unit = 2 then (spillMessage r.op r.addr r.body).map (fun e => (true, e)) else none
  | .plain (.token t) => if t.spilled ∧ p.vc = .t then some (false, { tok := t, latch := false, past := false }) else none
  | _ => none

/-- The tokens of a cloud that move between levels: those that leave a store (true), whose next level is 2, and those
that return to one (false). All of them count as caught in the engine's move register (R79, R80; DESIGN CHOICE: log
entry 137). -/
def State.inMotion (s : State) (c : Nat) : List (Bool × Entry) :=
  let cells := (upTo 16).map (c * 16 + ·)
  cells.flatMap (fun p =>
      ((s.cell p).houseQ.filterMap fun h => (spillMessage h.op h.ea h.body).map (fun e => (true, e)))
      ++ (s.cell p).inQ.filterMap fun x => match x with
        | .returned t _ => some (false, { tok := t, latch := false, past := false })
        | _ => none)
    ++ ((s.jet.flight.filter fun p => match p.place with
        | .router d _ => d = c
        | _ => false).filterMap Packet.moving)
    ++ ((s.cloud c).engineQ.filterMap fun r => (spillMessage r.op r.addr r.body).map (fun e => (true, e)))
    ++ (s.cloud c).engineOut.filterMap Packet.moving

/-- The level-3 buckets have room for every token that levels 1 and 2 of a cloud hold (R73). -/
def State.bucketsFit (s : State) (c : Nat) : Bool :=
  let k := s.cloud c
  let waiting := (k.l2.map (fun e => e.2.tok.spillIndex))
    ++ ((upTo 16).map (c * 16 + ·)).flatMap (fun p => (s.cell p).store.map (fun e => e.2.tok.spillIndex))
    ++ (s.inMotion c).map (fun m => m.2.tok.spillIndex)
  waiting.all fun v => decide ((waiting.filter (· = v)).length
    + (k.l3.filter (fun e => e.1 / 63 = v)).length ≤ 63)

/-- Every level-2 entry whose level-3 bucket has room moves down; none is discarded (R73). -/
def State.emptyL2 (s : State) (c : Nat) : State :=
  (s.cloud c).l2.foldl (fun s x =>
    match (l3Places x.2.tok.spillIndex).find? (fun i => (tfind (s.cloud c).l3 i).isNone) with
    | some i => s.modCloud c (fun k =>
        { k with l2 := terase k.l2 x.1, l3 := tins k.l3 i x.2 })
    | none => s) s

/-- A flush would lose a token, or could not end, so that the park is abandoned (R73, R253): without level 3 any waiting
token, with it tokens for which a bucket has no room, and always an entry that cannot spill. -/
def State.parkLoses (s : State) (c : Nat) : Bool :=
  let cells := (upTo 16).map (c * 16 + ·)
  cells.any (fun p => (s.cell p).store.any (fun e => !e.2.sendable || decide (4095 ≤ (s.cell p).spills (e.1 / 8))))
    || (if s.l3On c then !s.bucketsFit c
      else !(s.cloud c).l2.isEmpty || cells.any (fun p => !(s.cell p).store.isEmpty) || !(s.inMotion c).isEmpty)

/-- FLUSH (R254): the engine has the cloud's cells send their waiting tokens, then moves level 2 to
level 3; the flush has completed when levels 1 and 2 are empty. Where a token would be lost the park is
abandoned, since a park never discards a token (R73; DESIGN CHOICE: log entry 129). -/
def execFlush (cloud : Nat) (s : State) : Out :=
  unitOk s (cloud < s.variant.clouds) <|
    let k := s.cloud cloud
    if ¬ k.flushAsk ∨ ¬ s.engineOn cloud then s
    else if s.parkLoses cloud then s.modCloud cloud (fun k => { k with wakeAsk := true })
    else if ¬ s.storesSent cloud then
      ((upTo 16).map (cloud * 16 + ·)).foldl (fun s p =>
        if (s.cell p).store.any (fun e => e.2.sendable) then
          s.modCell p (fun c => { c with evictAsk := true })
        else s) s
    else if k.engineQ ≠ [] then s
    else
      let s := if s.l3On cloud then s.emptyL2 cloud else s
      s.modCloud cloud (fun k => { k with flushed := s.levelsEmpty cloud })

/-- EVICT (R274): the cell sends every waiting token that can spill as a SPILL. A token whose spill
counter is full stays, so that no park discards one. -/
def execEvict (pcell : Nat) (s : State) : Out :=
  unitOk s (pcell < s.variant.pcells) <|
    if ¬ (s.cell pcell).evictAsk ∨ ¬ s.cellRuns pcell then s
    else
      let s := (s.cell pcell).store.foldl (fun s x =>
        let set := x.1 / 8
        if ¬ x.2.sendable ∨ 4095 ≤ (s.cell pcell).spills set then s
        else (s.dropEntry pcell x.1).spillOut pcell set x.2) s
      s.modCell pcell (fun c => { c with evictAsk := false })

end Sys2Proof.Machine
end

