-- ==== Sys2Proof/Machine/Network.lean ====
section
/-! DEFINITION. The jetstream (R226 to R251): terminal buffers and their credits, the agents of the
clouds, the movement of packets from hop to hop and their delivery, and the timeouts (R242). -/

namespace Sys2Proof.Machine

/-! ### Terminal buffers and credits (R237, R238) -/

/-- The credits that a holder has for a buffer (R237). -/
def creditLimit (h : Holder) (b : Buffer) : Nat :=
  match b, h with
  | .tokenQueue p, .cell q => if p / 16 = q / 16 then 1 else 0
  | .tokenQueue _, .root => 4
  | .tokenQueue p, .ingress c => if p / 16 = c then 8 else 0
  | .tokenQueue _, .egress _ => 0
  | .tokenQueue p, .engine c => if p / 16 = c then 2 else 0
  | .prefetch _, .root => 1
  | .prefetch _, _ => 0
  | .bankQueue b, .cell q => if b / 8 = q / 16 then 1 else 0
  | .bankQueue _, .root => 4
  | .bankQueue b, .ingress c => if b / 8 = c then 4 else 0
  | .bankQueue _, _ => 0
  | .engineQueue e, .cell q => if e = q / 16 then 1 else 0
  | .engineQueue e, .ingress c => if e = c then 2 else 0
  | .engineQueue _, _ => 0
  | .marchQueue _, .root => 4
  | .marchQueue _, _ => 0
  | .ingress c _, .egress e => if c = e then 0 else 2
  | .ingress _ _, _ => 0
  | .egress c _, .cell q => if q / 16 = c then 2 else 0
  | .egress _ _, _ => 0
  | .rootIngress _, .egress _ => 2
  | .rootIngress _, _ => 0

/-- A holder has a credit for a buffer: fewer are spent than it has. -/
def State.hasCredit (s : State) (h : Holder) (b : Buffer) : Bool :=
  decide ((s.jet.credits.filter (fun c => c.holder = h ∧ c.buffer = b)).length < creditLimit h b)

/-- The cloud is FENCED or OFF, so that flits for it go to the fault sink (R257, R258). -/
def State.cloudGone (s : State) (c : Nat) : Bool :=
  match (s.cloud c).state with
  | .fenced | .off => true
  | .test | .run | .drain | .parked | .waking => false

/-- The terminal buffer of a packet inside its destination cloud (R227, R237); none for P and S packets,
and for an absent unit. The one credit for a prefetch slot is the dispatcher's (R178). -/
def Packet.terminal (p : Packet) : Option Buffer :=
  let c := p.dcloud.toNat
  let k := p.dcell.toNat
  match p.vc, p.cargo with
  | .t, .plain (.prefetch _ t) => some (.prefetch t.cell.toNat)
  | .t, _ => some (.tokenQueue (c * 16 + k))
  | .q, .plain (.request r) =>
    if r.unit = 1 ∧ 4 ≤ k ∧ k < 12 then some (.bankQueue (c * 8 + (k - 4)))
    else if r.unit = 2 ∧ k = 15 then some (.engineQueue c)
    else if r.unit = 3 ∧ k = 15 then some (.marchQueue c)
    else none
  | _, _ => none

/-- The logical cell whose place decides where a T or S packet goes (R232): the cell field of its token.
A copy for a half of a pair carries the physical place of its half, and is not translated. -/
def State.mapped (s : State) (p : Packet) : Option Nat :=
  match p.vc, p.cargo, p.token? with
  | .t, .plain _, some t | .s, .plain _, some t =>
    if p.dcloud.toNat = 31 ∨ (s.pairOf t.cell.toNat).isSome then none else some t.cell.toNat
  | _, _, _ => none

/-- The packet with the place that the route map gives its logical cell (R232); none for an id that no
cell holds or that belongs to no partition, and for a message on T or S, such as a station's copy for a half of a pair, that
names a physical cell with no logical id (R25, R28). -/
def State.translate (s : State) (p : Packet) : Option Packet :=
  match s.mapped p with
  | none =>
    if (p.vc = .t ∨ p.vc = .s) ∧ p.dcloud.toNat < 18 ∧ (s.lidOf (p.dcloud.toNat * 16 + p.dcell.toNat)).isNone then none
    else some p
  | some lid =>
    if (s.partOf lid).isNone then none
    else (s.placeOf lid).map fun pc =>
      { p with dcloud := BitVec.ofNat 5 (pc / 16), dcell := BitVec.ofNat 4 (pc % 16) }

/-- The packet as its terminal sees it: with the router that the map gives (R232). -/
def State.destined (s : State) (p : Packet) : Packet := (s.translate p).getD p

/-- The buffer for which a holder needs a credit to launch a packet (R238). -/
def State.launchBuffer (s : State) (h : Holder) (p : Packet) : Option Buffer :=
  let c := p.dcloud.toNat
  if p.vc = .p ∨ p.vc = .s then none
  else match h with
    | .cell q => if c = q / 16 then p.terminal else some (.egress (q / 16) p.vc)
    | .egress _ => if c < 18 then some (.ingress c p.vc) else some (.rootIngress p.vc)
    | .ingress _ => p.terminal
    | .engine _ => p.terminal
    | .root => if c < 18 ∧ ¬ s.cloudGone c then (s.destined p).terminal else none

/-- A packet as its holder launches it, with the la that the holder writes: a cell, an engine and the root for their own
router or node, an agent for the router or node at the end of its link (R233, R262). -/
def Packet.launchedBy (p : Packet) (h : Holder) : Packet :=
  match h with
  | .egress _ | .ingress _ => p.leaving
  | .cell _ | .engine _ | .root => p.routed

/-- A packet launched under a credit: the credit is spent with what a later report about it needs, and an episode of
waiting for that buffer ends (R242). None where the holder has no credit. -/
def State.spend (s : State) (h : Holder) (p : Packet) : Option (State × Packet) :=
  match s.launchBuffer h p with
  | none => some (s, { p with credit := none })
  | some b =>
    if s.hasCredit h b then
      let c : Credit :=
        { holder := h, buffer := b, time := s.zen.count, head := BitVec.ofNat 16 (p.launchedBy h).head16
          access := p.access }
      some ({ s with jet := { s.jet with
        credits := s.jet.credits ++ [c], stalls := s.jet.stalls.filter (· ≠ (h, b)) } },
        { p with credit := some c })
    else none

/-- A packet moves inside the links. -/
def State.fly (s : State) (p : Packet) : State :=
  { s with jet := { s.jet with flight := s.jet.flight ++ [p] } }

/-! ### The fault sink (R25) -/

/-- Root units that take no tokens (R25). -/
def takesNoTokens (unit : Nat) : Bool := decide (unit ∈ [2, 3, 4, 6, 7, 9])

/-- Why the root delivers a packet to the fault sink (R25, R530), if it does. -/
def State.sinkReason (s : State) (p : Packet) : Option Nat :=
  let c := p.dcloud.toNat
  let k := p.dcell.toNat
  let tok := decide (p.vc = .t ∨ p.vc = .s)
  if c = 31 then
    if 10 ≤ k then some 1
    else if tok ∧ takesNoTokens k then some 5
    else none
  else if c = 30 then if s.variant.stations ≤ k then some 2 else none
  else if 18 ≤ c then some 1
  else if s.variant.clouds ≤ c then some 2
  else if p.vc ≠ .p ∧ s.cloudGone c then some 4
  else if tok ∧ (s.translate p).isNone then some 3
  else none

/-- A packet goes to the fault sink; its buffer entry is free. -/
def State.sinkPacket (s : State) (p : Packet) (reason : Nat) : State :=
  (s.sink p reason).giveBack p.credit

/-- An answer that a router, an agent or the root makes waits there until its local buffer has room (R240; DESIGN CHOICE:
log entry 46). -/
def State.answerAt (s : State) (p : Packet) : State := { s with jet := { s.jet with errOut := s.jet.errOut ++ [p] } }

/-- An error response goes to the requester that a Q packet names, from a place (R249, R257, R262). -/
def State.errorAnswer (s : State) (p : Packet) (place : Place) : State :=
  match p.cargo with
  | .plain (.request r) => s.answerAt (r.answer place 0xFF 0 [])
  | _ => s

/-! ### The agents of a cloud (R228, R256, R257) -/

/-- A packet is for a logical cell: a token by its cell field, which for a half of a pair is the working id, and a mirror
record by the place that it goes to (R318, R342). -/
def State.isFor (s : State) (lid : Nat) (p : Packet) : Bool :=
  match p.cargo, p.token? with
  | .paired q, none => q.mirror.isSome && decide (s.placeOf lid = some (p.dcloud.toNat * 16 + p.dcell.toNat))
  | _, some t => decide (t.cell.toNat = s.workId lid)
  | _, none => false

/-- A relocation by shadow swap holds a token or a mirror record for its logical cell (R342). -/
def State.heldForSwap (s : State) (p : Packet) : Bool :=
  s.rep.shadow && decide (s.rep.phase = .copy) && s.isFor s.rep.lid p

/-- A packet at an ingress agent has no credit yet for its terminal buffer, and waits there for one (R238): one that came under
a credit for an ingress buffer, or whose logical cell has moved since its launch. -/
def Packet.needsCredit (p : Packet) : Bool :=
  match p.credit with
  | some c => decide (some c.buffer ≠ p.terminal)
  | none => p.terminal.isSome

/-- A packet waits at a cloud's ingress agent. -/
def State.holdIngress (s : State) (c : Nat) (p : Packet) : State :=
  s.modCloud c (fun k => { k with ingressB := k.ingressB ++ [p] })

/-- A packet for a cloud whose bridge is gone (R257, R258): a P packet is discarded, every other goes to the fault sink,
and a request is answered with an error response. -/
def State.ingressGone (s : State) (c : Nat) (p : Packet) : State :=
  if p.vc = .p then s.giveBack p.credit
  else
    let s := s.sinkPacket p 4
    if p.vc = .q then s.errorAnswer p (.level1 (level1Of c)) else s

/-- A packet for a cloud reaches its ingress agent (R228, R232, R256, R257): the agent fills in the router of a token's
cell, wakes a parked cloud, and holds T and Q packets until it forwards them; S and P packets pass by the node's own
buffers. A token whose logical cell has moved to another cloud is handed to that cloud's agent. -/
def State.ingressArrive (s : State) (c : Nat) (p : Packet) : State :=
  if s.variant.clouds ≤ c then s.sinkPacket p 2
  else if s.cloudGone c then s.ingressGone c p
  else match s.translate p with
    | none => s.sinkPacket p 3
    | some p =>
      let c := p.dcloud.toNat
      let s := s.wakeCloud c
      let p := { p with place := .level1 (level1Of c), la := 1 + c % 3 }
      if p.vc = .t ∨ p.vc = .q then s.holdIngress c p else s.fly p

/-- A packet from a cloud reaches its level-one node (R228, R257): T and Q packets enter the egress
buffer, S and P packets pass; a response ends the forwarded request that it answers. -/
def State.egressArrive (s : State) (c : Nat) (p : Packet) : State :=
  match p.vc with
  | .t | .q => s.modCloud c (fun k => { k with egressB := k.egressB ++ [p] })
  | .p | .s =>
    let s := match p.cargo with
      | .plain (.response r) => s.modCloud c (fun k => { k with
          forwarded := k.forwarded.filter (fun q => match q.cargo with
            | .plain (.request x) =>
              ¬ (x.rcloud = p.dcloud ∧ x.rcell = p.dcell ∧ x.tag = r.tag)
            | _ => true) })
      | _ => s
    if 1 ≤ p.la ∧ p.la ≤ 3 then s.ingressArrive (3 * level1Of c + (p.la - 1)) p else s.fly p

/-! ### Delivery (R227, R249) -/

/-- A Q packet has reached a router and goes to the unit that it names (R227, R262): a bank, the spill engine, or with a
code that its unit does not know an answer of BAD_OP (R274). -/
def State.deliverRequest (s : State) (c k : Nat) (p : Packet) (r : Request) : State :=
  if r.unit = 1 ∧ 4 ≤ k ∧ k < 12 then
    s.modBank (c * 8 + (k - 4)) (fun b => { b with
      queue := b.queue ++ [{ r with credit := p.credit }] })
  else if r.unit = 2 ∧ k = 15 ∧ (0x60 ≤ r.op.toNat ∧ r.op.toNat ≤ 0x65 ∧ r.op.toNat ≠ 0x63) then
    s.modCloud c (fun x => { x with engineQ := x.engineQ ++ [{ r with credit := p.credit }] })
  else if r.unit = 0 ∨ (k = 15 ∧ (r.unit = 2 ∨ r.unit = 3)) then
    (s.giveBack p.credit).answerAt (r.answer (.router c k) 0x13 0 [])
  else
    let s := (s.giveBack p.credit).jetReport srcJetBadunit (.router c k) (linkId (.router c k) 0) p
      p.head16 0
    s.errorAnswer p (.router c k)

/-- A packet is taken at the local port of a router (R227); none where its queue has no room. A token with its spilled
flag is a return, and stands ahead of network tokens (R71, R274); a response for no cell has no taker here. A pre-matched
activation has the pair and replay flags of its left token (DESIGN CHOICE: log entry 124). -/
def State.deliverCell (s : State) (c k : Nat) (p : Packet) (cargo : Cargo) : Option State :=
  let pc := c * 16 + k
  let free := s.giveBack p.credit
  match cargo with
  | .plain (.token t) =>
    if p.vc = .s then
      if 8 ≤ (s.cell pc).schedQ.length then none
      else some (free.modCell pc (fun x => { x with schedQ := x.schedQ ++ [t] }))
    else if t.spilled then
      some (s.modCell pc (fun x => { x with inQ := frontOf x.inQ (.returned t p.credit) }))
    else some (s.modCell pc (fun x => { x with inQ := x.inQ ++ [.network t none p.credit] }))
  | .plain (.start h t) =>
    some (s.modCell pc (fun x => { x with inQ := x.inQ ++ [.network t (some h) p.credit] }))
  | .plain (.prefetch h t) => some (s.modCell pc (fun x => { x with prefetchIn := some (h, t) }))
  | .plain (.grant h q) =>
    some (s.modCell pc (fun x => { x with inQ := x.inQ ++ [.grant h q p.credit] }))
  | .plain (.preMatched t w1 stamp cls late ordered) =>
    let a : Activation :=
      { monoAct t with w1, stamp, cls := cls.setWidth 2, late, ordered }
    some (s.modCell pc (fun x => { x with preQ := x.preQ ++ [(a, p.credit)] }))
  | .plain (.event _ _ _) => some free
  | .plain (.request r) => some (s.deliverRequest c k p r)
  | .plain (.response r) =>
    some (if r.unit = 0 then free.modCell pc (fun x => { x with respQ := x.respQ ++ [r] }) else free)
  | .paired q =>
    some (free.modCell pc (fun x => match q.mirror with
      | some m => { x with mirrorQ := x.mirrorQ ++ [m] }
      | none => x))
  | .replay _ r => some (free.modCell pc (fun x => { x with replayQ := x.replayQ ++ [r] }))

/-- The event of an EVS message (R164): its time is taken at acceptance. -/
def evsEvent (flow : BitVec 12) (flag : BitVec 5) (value : Word) : Event :=
  { flow, flag, value, time := 0, local_ := false }

/-- A request reaches a root unit (R24, R273). -/
def State.rootRequest (s : State) (unit : Nat) (p : Packet) (r : Request) : State :=
  let r := { r with credit := none }
  match unit with
  | 2 =>
    if 0x300000 ≤ r.addr.toNat ∨ r.op = 0x58 ∨ r.op = 0x59 then
      { s with mem := { s.mem with semQ := s.mem.semQ ++ [r] } }
    else s.modBank (144 + r.addr.toNat / 0x60000) (fun b => { b with queue := b.queue ++ [r] })
  | 3 => { s with mem := { s.mem with dramQ := s.mem.dramQ ++ [r] } }
  | 4 => { s with mem := { s.mem with mramQ := s.mem.mramQ ++ [r] } }
  | _ => (s.jetReport srcJetBadunit .root (linkId .root 3) p p.head16 0).errorAnswer p .root

/-- A packet is taken by a root unit (R24); none where its queue has no room (R165), or the barrier port holds
64 extract tokens (R461). -/
def State.deliverRoot (s : State) (unit : Nat) (p : Packet) (cargo : Cargo) : Option State :=
  let free := s.giveBack p.credit
  match cargo with
  | .plain (.event f g v) =>
    if unit ≠ 0 then some free
    else if s.eventRoom 5 then some (free.postEvent 5 (evsEvent f g v))
    else none
  | .plain (.token t) =>
    if unit = 5 then
      some { free with fio := { free.fio with inQ := free.fio.inQ ++ [(t, p.sender)] } }
    else if unit = 8 then
      if free.bar.inQ.length + free.bar.extractQ.length < 64
      then some { free with bar := { free.bar with inQ := free.bar.inQ ++ [t] } } else none
    else some free
  | .plain (.request r) => some (free.rootRequest unit p r)
  | _ => some free

/-- A packet is taken by a pair station: an answer, or a token or pair packet (R312, R314, R322). -/
def State.deliverStation (s : State) (i : Nat) (p : Packet) (cargo : Cargo) : State :=
  let s := s.giveBack p.credit
  match cargo with
  | .plain (.response r) => s.modStation i (fun q => { q with answers := q.answers ++ [r] })
  | _ => s.modStation i (fun q => { q with
      inQ := q.inQ ++ [{ p with cargo, errs := [], credit := none }] })

/-- A packet that fails the end-to-end check (R249). -/
def State.badEnd (s : State) (at_ : Place) (port : Nat) (p : Packet) (flit : Nat) : State × Option Packet :=
  let s := (s.bump (aJetCnt 2)).jetReport srcJetE2e at_ (linkId at_ port) p (p.flit16 flit) 0
  match p.vc, p.received with
  | .p, .plain (.response r) =>
    if flit = 0 then (s.giveBack p.credit, none)
    else (s, some { p with errs := [], cargo := .plain (.response { r with status := 0xFF }) })
  | .q, _ =>
    let s := s.giveBack p.credit
    (if flit = 0 then s else s.errorAnswer { p with cargo := p.received } at_, none)
  | _, _ => (s.giveBack p.credit, none)

/-- A packet leaves the network at a port (R249): its endpoint checks it and takes it. None where the
endpoint has no room. -/
def State.eject (s : State) (at_ : Place) (port : Nat) (p : Packet) : Option State :=
  let (s, p?) := match p.badFlit with
    | none => (s, some p)
    | some i => s.badEnd at_ port p i
  match p? with
  | none => some s
  | some p =>
    match at_ with
    | .router c k => s.deliverCell c k p p.received
    | .root =>
      if port = 4 then some (s.deliverStation p.dcell.toNat p p.received)
      else s.deliverRoot p.dcell.toNat p p.received
    | _ => some (s.giveBack p.credit)

/-! ### Input buffers (R240) -/

/-- The flits of one VC that an input buffer holds (R240). A root unit's T and Q packets stand in the root ingress
buffer, whose entries their credits have reserved (R237). -/
def bufferSize (at_ : Place) (vc : Vc) : Nat :=
  match at_, vc with
  | .router _ _, .s => 2
  | .router _ _, _ => 4
  | _, _ => 8

/-- A packet's flits as a buffer of a place counts them: a longer packet fills the buffer, and its further flits stand in
the links behind it (DESIGN CHOICE: log entry 130). -/
def Packet.held (p : Packet) (at_ : Place) : Nat := min p.flits (bufferSize at_ p.vc)

/-- A packet stands in the root ingress buffer (R237). -/
def Packet.inRootIngress (p : Packet) : Bool :=
  decide (p.place = .root) && decide (30 ≤ p.dcloud.toNat) && (decide (p.vc = .t) || decide (p.vc = .q))
    && p.credit.isSome

/-- The packet stands in an input buffer of a place. -/
def Packet.standsIn (p : Packet) (at_ : Place) (inPort : Nat) (vc : Vc) : Bool :=
  decide (p.place = at_) && decide (p.inPort = inPort) && decide (p.vc = vc) && !p.inRootIngress

/-- An input buffer has room for a packet (R240). -/
def State.roomFor (s : State) (p : Packet) (at_ : Place) (inPort : Nat) : Bool :=
  let used := ((s.jet.flight.filter (fun q => q.standsIn at_ inPort p.vc)).map (fun q => q.held at_)).sum
  { p with place := at_ }.inRootIngress || decide (used + p.held at_ ≤ bufferSize at_ p.vc)

/-- The endpoint at an output port that leads to no link takes a packet now (R165, R241, R461). -/
def State.endRoom (s : State) (p : Packet) : Bool :=
  match p.place, p.cargo with
  | .router c k, .plain (.token _) =>
    decide (p.vc ≠ .s) || decide ((s.cell (c * 16 + k)).schedQ.length < 8)
  | .root, .plain (.event _ _ _) => decide (p.dcell ≠ unitDispatcher) || s.eventRoom 5
  | .root, .plain (.token _) => decide (p.dcell ≠ unitBarrier) || decide (p.dcloud ≠ cloudRoot)
      || decide (s.bar.inQ.length + s.bar.extractQ.length < 64)
  | _, _ => true

/-- The link behind an output port works: the bridge and the routers of a cloud that runs or drains. -/
def State.linkOn (s : State) (at_ : Place) (port : Nat) : Bool :=
  let on (c : Nat) : Bool :=
    decide ((s.cloud c).state = .run) || decide ((s.cloud c).state = .drain)
  match at_ with
  | .router c _ => on c
  | .bridge c _ => on c
  | .level1 n => port = 0 || on (3 * n + (port - 1))
  | _ => true

/-- What stands at the next terminal, where a level-one node hands a packet to an agent, takes the reserved entry
(R237, R238); a packet for it needs no room in the node's buffers. -/
def entersAgent (next from_ : Place) (p : Packet) : Bool :=
  (decide (p.vc = .t) || decide (p.vc = .q)) && (match next, from_ with
    | .level1 _, .bridge _ _ => true
    | .level1 n, _ => decide (p.dcloud.toNat < 18) && decide (level1Of p.dcloud.toNat = n)
    | _, _ => false)

/-- The packet can cross the link that it stands at (R240): the link works, no swap holds it back, and the buffer behind
has room. -/
def State.canCross (s : State) (p : Packet) : Bool :=
  s.linkOn p.place p.la && (match portLeads p.place p.la with
    | none => s.endRoom p
    | some (next, inPort) => entersAgent next p.place p || s.roomFor p next inPort)

/-- No packet of an earlier place of a buffer goes to the same destination on the same channel: each
destination has its own order (R238). -/
def firstFor (same : Packet → Packet → Bool) (q : List Packet) (i : Nat) (p : Packet) : Bool :=
  (q.take i).all (fun x => !(same x p && decide (x.vc = p.vc)))

/-! ### Arbitration (R241, R245) -/

/-- A packet is the first of its input buffer; in the root ingress buffer, the first for its unit (R234, R238). -/
def State.headOfBuffer (s : State) (i : Nat) (p : Packet) : Bool :=
  (s.jet.flight.take i).all fun q =>
    if p.inRootIngress then
      !(q.inRootIngress && q.dcloud = p.dcloud && q.dcell = p.dcell && decide (q.vc = p.vc))
    else !q.standsIn p.place p.inPort p.vc

/-- The pair (input port, VC) by which an arbiter knows a packet. -/
def Packet.pairCode (p : Packet) : Nat := p.inPort * 4 + p.vc.code

/-- A packet as the egress agent of a cloud sends it from its level-one node. -/
def Packet.fromEgress (p : Packet) (c : Nat) : Packet :=
  { p with place := .level1 (level1Of c), inPort := 1 + c % 3 }.routed

/-- A packet as the ingress agent of a cloud sends it from its level-one node. -/
def Packet.fromIngress (p : Packet) (c : Nat) : Packet :=
  { p with place := .level1 (level1Of c), inPort := 0, la := 1 + c % 3 }

/-- The holder has what a launch of the packet needs (R238). -/
def State.mayHold (s : State) (h : Holder) (p : Packet) : Bool :=
  match s.launchBuffer h p with
  | some b => s.hasCredit h b
  | none => true

/-- The egress agent of a cloud can send the packet at place i of its buffer over port 0 of its node now: the first for its
destination, under a credit (R238). -/
def State.egressReady (s : State) (c i : Nat) (p : Packet) : Bool :=
  firstFor (fun x y => x.dcloud = y.dcloud && x.dcell = y.dcell) (s.cloud c).egressB i p
    && !(decide (p.dcloud.toNat < s.variant.clouds) && s.cloudGone p.dcloud.toNat)
    && s.mayHold (.egress c) p && decide ((p.fromEgress c).la = 0) && s.canCross (p.fromEgress c)

/-- The ingress agent of a cloud can send the packet at place i of its buffer into the cloud's bridge now: the first for its
router, under a credit for its terminal buffer, and a request only while its table of forwarded requests has room (R238,
R252, R256, R257). -/
def State.ingressReady (s : State) (c i : Nat) (p : Packet) : Bool :=
  decide ((s.cloud c).state = .run) && !s.heldForSwap p && !(decide (p.vc = .q) && decide (64 ≤ (s.cloud c).forwarded.length))
    && firstFor (fun x y => x.dcell = y.dcell) (s.cloud c).ingressB i p
    && (!p.needsCredit || s.mayHold (.ingress c) p) && s.canCross (p.fromIngress c)

/-- The pairs (input port, VC) by which the agents at a level-one node can send over one of its outputs now: their packets
share the arbiter of the port with those of the node's own buffers (R245; DESIGN CHOICE: log entry 130). -/
def State.agentContenders (s : State) (at_ : Place) (port : Nat) : List (Nat × Vc) :=
  let pick (q : List Packet) (ready : Nat → Packet → Bool) (form : Packet → Packet) : List (Nat × Vc) :=
    (upTo q.length).filterMap fun i => (q[i]?).bind fun p =>
      if ready i p then some ((form p).pairCode, p.vc) else none
  match at_, port with
  | .level1 n, 0 => (upTo 3).flatMap fun j =>
    pick (s.cloud (3 * n + j)).egressB (s.egressReady (3 * n + j)) (fun p => p.fromEgress (3 * n + j))
  | .level1 n, j + 1 => pick (s.cloud (3 * n + j)).ingressB (s.ingressReady (3 * n + j)) (fun p => p.fromIngress (3 * n + j))
  | _, _ => []

/-- The pairs that can send over an output port now. -/
def State.contenders (s : State) (at_ : Place) (port : Nat) : List (Nat × Vc) :=
  ((upTo s.jet.flight.length).filterMap fun i => (s.jet.flight[i]?).bind fun p =>
    if p.place = at_ ∧ p.la = port ∧ s.headOfBuffer i p ∧ s.canCross p then some (p.pairCode, p.vc) else none)
    ++ s.agentContenders at_ port

/-- The S budget of an output port (R215, R245). -/
def State.budget (s : State) (at_ : Place) (port : Nat) : Nat :=
  let field (a n : Nat) : Nat := s.regF a (6 * n + 5) (6 * n)
  match at_ with
  | .router c k => field (aCldSbud c k) (port - 1)
  | .level1 n => field (aJetTbud n) port
  | .level2 m => field (aJetTbud (6 + m)) port
  | .root => field (aJetTbud 8) port
  | .bridge _ _ => 0

/-- An output port's arbiter. -/
def State.arbiter (s : State) (at_ : Place) (port : Nat) : Arbiter :=
  tget (fun _ => Arbiter.idle) s.jet.arbiters (linkNum at_ port)

/-- The 64 cycles of a link's island in core cycles: a cloud at 500 MHz counts 2 for each (R31, R216). -/
def State.budgetSpan (s : State) (at_ : Place) : Nat :=
  match at_ with
  | .router c _ | .bridge c _ => if (s.cloud c).slowAct then 128 else 64
  | .level1 _ | .level2 _ | .root => 64

/-- The S flits that have left an output port in its last 64 cycles (R245). -/
def State.sentS (s : State) (at_ : Place) (port : Nat) : List Nat :=
  (s.arbiter at_ port).sTimes.filter (fun t => s.zen.cycle < t + s.budgetSpan at_)

/-- The pair that an output port serves next (R241, R245): S while fewer than b S flits have left it in the last 64 cycles,
and at a cell's port always; otherwise every pair in turn. -/
def State.arbitrate (s : State) (at_ : Place) (port : Nat) : Option Nat :=
  let all := s.contenders at_ port
  let sOnes := all.filter (fun c => c.2 = .s)
  let first : Bool := match at_ with
    | .router _ _ => decide (port = 0) || decide ((s.sentS at_ port).length < s.budget at_ port)
    | _ => decide ((s.sentS at_ port).length < s.budget at_ port)
  roundRobin (s.arbiter at_ port).last ((if first && !sOnes.isEmpty then sOnes else all).map Prod.fst)

/-- A packet has left an output port. -/
def State.served (s : State) (p : Packet) : State :=
  let k := linkNum p.place p.la
  let sent := s.sentS p.place p.la
  let a : Arbiter :=
    { sTimes := if p.vc = .s then sent ++ List.replicate p.flits s.zen.cycle else sent, last := p.pairCode }
  { s with jet := { s.jet with arbiters := tset (fun _ => Arbiter.idle) s.jet.arbiters k a } }

/-! ### Movement (R233) -/

/-- A packet has crossed a link and stands at the next router or node (R233), or in the bridge's FIFO. -/
def State.arriveAt (s : State) (from_ next : Place) (inPort : Nat) (p : Packet) : State :=
  let p := { p with place := next, inPort }
  match next, from_ with
  | .level1 _, .bridge c _ => s.egressArrive c p
  | .level1 n, _ => if 1 ≤ p.la ∧ p.la ≤ 3 then s.ingressArrive (3 * n + (p.la - 1)) p else s.fly p
  | _, _ => s.fly p

/-- A packet leaves the output port where it stands and meets the check of its receiver (R230, R248): a bridge's FIFO
receives without a check, and the node behind it checks. None for one that its receiver discards. -/
def State.sendOver (s : State) (p : Packet) (flips : Table (BitVec 160)) : State × Option Packet :=
  let link := linkId p.place p.la
  match p.place, portLeads p.place p.la with
  | .bridge _ _, some (next, _) => s.receive p next link flips
  | _, some (.bridge _ _, _) => (s.probe p.place p.la p.leaving, some p.leaving)
  | _, some (next, _) => (s.probe p.place p.la p.leaving).receive p.leaving next link flips
  | _, none => (s.probe p.place p.la p).receive p p.place link flips

/-- The port leads to the cell, to a root unit or to a station. -/
def endPort (at_ : Place) (port : Nat) : Bool :=
  match at_ with
  | .router _ _ => port = 0
  | .root => port = 3 || port = 4
  | _ => false

/-- A packet stands in the FIFO of a bridge. -/
def Packet.bridged (p : Packet) : Bool :=
  match p.place with
  | .bridge _ _ => true
  | _ => false

/-- The cloud towards which a packet at a level-one node goes. -/
def Packet.towards (p : Packet) : Option Nat :=
  match p.place with
  | .level1 n => if 0 < p.la then some (3 * n + (p.la - 1)) else none
  | _ => none

/-- A packet that has left its place goes over its output port to the next place or out of the network (R233, R249);
none where its endpoint has no room. -/
def State.goOver (s : State) (p : Packet) (flips : Table (BitVec 160)) : Option State :=
  match (s.sendOver p flips).2, portLeads p.place p.la with
  | none, _ => some (s.sendOver p flips).1
  | some q, none => (s.sendOver p flips).1.eject p.place p.la q
  | some q, some (next, inPort) => some ((s.sendOver p flips).1.arriveAt p.place next inPort q)

/-- The packet at a place of the links takes its output port, where it is its turn (R233, R240, R245, R248). At the root
one that cannot be delivered goes to the fault sink (R25). One whose la an undetected error has turned to a port that
does not exist is lost, and its credit returns by R242 (DESIGN CHOICE: log entry 130). -/
def State.hopFlight (s : State) (i : Nat) (flips : Table (BitVec 160)) : State :=
  match s.jet.flight[i]? with
  | none => s
  | some p =>
    let s1 := { s with jet := { s.jet with flight := s.jet.flight.eraseIdx i } }
    if ¬ s.headOfBuffer i p then s
    else match (if p.place = .root then s.sinkReason p else none) with
    | some r => s1.sinkPacket p r
    | none =>
      match p.towards.filter (fun c => s.cloudGone c) with
      | some c => s1.ingressGone c p
      | none =>
        if (portLeads p.place p.la).isNone ∧ ¬ endPort p.place p.la then s1
        else if ¬ s.canCross p ∨ (p.towards.isSome ∧ s.heldForSwap p)
            ∨ (¬ p.bridged ∧ s.arbitrate p.place p.la ≠ some p.pairCode) then s
        else ((if p.bridged then s1 else s1.served p).goOver p flips).getD s

/-- A packet enters the local input buffer of the router or node at which its sender launches (R240); none where the
buffer has no room. -/
def State.launch (s : State) (p : Packet) (flips : Table (BitVec 160)) : Option State :=
  let p := p.routed
  if ¬ s.roomFor p p.place p.inPort then none
  else match s.receive p p.place (linkId p.place p.inPort) flips with
    | (s, none) => some s
    | (s, some q) => some (s.fly q)

/-- A message of the cell to its own spill engine. -/
def Packet.toSpill (p : Packet) : Bool :=
  match p.cargo with
  | .plain (.request r) => r.unit = 2
  | _ => false

/-- A cell may launch a packet: it runs, in DRAIN only S and P packets leave (R252), and no swap holds
it back (R342). The messages by which a cell's tokens leave for level 3 go on in the drain of a park (R254; DESIGN
CHOICE: log entry 129). -/
def State.mayLaunch (s : State) (pcell : Nat) (p : Packet) : Bool :=
  let k := s.cloud (pcell / 16)
  s.cellRuns pcell && (k.state = .run || p.vc = .s || p.vc = .p || (k.flushAsk && p.toSpill))
    && !s.heldForSwap p

/-- A packet that a holder launches under a credit, into the router or node where it stands; none where it cannot. -/
def State.launchUnder (s : State) (h : Holder) (p : Packet) (flips : Table (BitVec 160)) : Option State :=
  (s.spend h p).bind fun r => r.1.launch r.2 flips

/-- The place in a cell's output queue of the packet that leaves next: the first that is not held back, where every one
before it is held back and travels on another VC (R244, R252). -/
def State.outNext (s : State) (pcell : Nat) : List Packet → List Vc → Nat → Option (Nat × Packet)
  | [], _, _ => none
  | p :: rest, held, n =>
    if s.mayLaunch pcell p ∧ p.vc ∉ held then some (n, p)
    else s.outNext pcell rest (p.vc :: held) (n + 1)

/-- A cell launches the next packet of its output queue (R244); a token for an id that no cell holds, or that belongs to
no partition, goes to the fault sink (R25, R28). A strand that waits for an entry may try again. -/
def State.hopFromCell (s : State) (pcell : Nat) (flips : Table (BitVec 160)) : State :=
  match s.outNext pcell (s.cell pcell).outQ [] 0 with
  | none => s
  | some (n, p) =>
    let s1 := s.modCell pcell (fun c => { c with outQ := c.outQ.eraseIdx n }.freeOutputs)
    match s.mapped p with
    | some lid =>
      if (s.tokenRoute lid).isNone then s1.sink p.routed 3
      else (s1.launchUnder (.cell pcell) p flips).getD s
    | none => (s1.launchUnder (.cell pcell) p flips).getD s

/-- The request of the cell itself that waits longest, as a packet under a tag (R239, R274, R287, R292). In a paired cell every
request of a lock leaves as the outputs of a half do, as a pair packet (R314). -/
def State.houseRequest (s : State) (pcell tag : Nat) : Option (Packet × Outstanding) :=
  let form (h : HouseReq) (dest : BitVec 5 × BitVec 4) (unit : BitVec 3) (addr : Word) : Packet × Outstanding :=
    let r : Request :=
      { op := h.op, addr, data := h.data, body := h.body, rcloud := BitVec.ofNat 5 (pcell / 16)
        rcell := BitVec.ofNat 4 (pcell % 16), unit, tag := BitVec.ofNat 6 tag, credit := none }
    let p := match h.what with
      | .engine | .purge _ => cellPacket pcell dest .q (.plain (.request r))
      | _ => s.outPacket pcell h.seq dest .q (.request r)
    (p, { tag, head := BitVec.ofNat 16 p.routed.head16, uid := 0, what := h.what, ea := h.ea, time := s.zen.count })
  match (s.cell pcell).houseQ with
  | [] => none
  | h :: _ =>
    match h.what with
    | .engine | .purge _ => some (form h (BitVec.ofNat 5 (pcell / 16), 15) 2 h.ea)
    | _ => (s.partOfCell pcell).bind fun part => (s.locate (s.idOf pcell) part h.ea).map fun l =>
      form h l.region.server.1 l.region.server.2.1 l.region.server.2.2

/-- A cell launches the head of its request queue, or else a request of its own (R239). -/
def State.hopRequest (s : State) (pcell : Nat) (flips : Table (BitVec 160)) : State :=
  match (s.cell pcell).reqQ with
  | p :: rest =>
    if ¬ s.mayLaunch pcell p then s
    else ((s.modCell pcell (fun c => { c with reqQ := rest })).launchUnder (.cell pcell) p flips).getD s
  | [] =>
    match (s.cell pcell).houseQ, (s.cell pcell).freeTag with
    | _ :: rest, some tag =>
      match s.houseRequest pcell tag with
      | none => s.modCell pcell (fun c => { c with houseQ := rest })
      | some (p, o) =>
        if ¬ s.mayLaunch pcell p then s
        else ((s.modCell pcell (fun c => { c with
          houseQ := rest, tags := c.tags ++ [o] })).launchUnder (.cell pcell) p flips).getD s
    | _, _ => s

/-- A bank, the DRAM, MRAM and semaphore units as unit 152, or the spill engine of cloud c as 160 + c, launch the head of
what they send: answers on P, and an engine's tokens on T under its credits (R237, R274). From 256 on it is an answer made
by a router, an agent or the root, the first of its place. -/
def State.hopAnswer (s : State) (unit : Nat) (flips : Table (BitVec 160)) : State :=
  if 256 ≤ unit then
    let i := unit - 256
    match s.jet.errOut[i]? with
    | none => s
    | some p =>
      if (s.jet.errOut.take i).any (fun q => q.place = p.place) then s
      else (({ s with jet := { s.jet with errOut := s.jet.errOut.eraseIdx i } } : State).launch p flips).getD s
  else if 160 ≤ unit then
    let c := unit - 160
    match (s.cloud c).engineOut with
    | [] => s
    | p :: rest =>
      if ¬ s.engineOn c then s
      else ((s.modCloud c (fun k => { k with engineOut := rest })).launchUnder (.engine c) p flips).getD s
  else if unit = 152 then
    match s.mem.rootAns with
    | [] => s
    | p :: rest => (({ s with mem := { s.mem with rootAns := rest } } : State).launch p flips).getD s
  else
    match (s.bank unit).answers with
    | [] => s
    | p :: rest =>
      if ¬ s.bankOn unit then s
      else ((s.modBank unit (fun b => { b with answers := rest })).launch p flips).getD s

/-- The root egress launches a packet of its buffer, the first for its destination (R234, R237, R252). -/
def State.hopFromRoot (s : State) (i : Nat) (flips : Table (BitVec 160)) : State :=
  match s.jet.rootOut[i]? with
  | none => s
  | some p =>
    let c := p.dcloud.toNat
    let drains := decide (c < 18) && decide ((s.cloud c).state = .drain)
      && decide (p.vc = .t ∨ p.vc = .q)
    let same (x y : Packet) : Bool :=
      (s.destined x).dcloud = (s.destined y).dcloud && (s.destined x).dcell = (s.destined y).dcell
    if ¬ firstFor same s.jet.rootOut i p ∨ drains ∨ s.heldForSwap p then s
    else (({ s with jet := { s.jet with rootOut := s.jet.rootOut.eraseIdx i } } : State).launchUnder .root p
      flips).getD s

/-- An egress agent forwards a packet of its buffer under a credit for the next terminal buffer; one for
a cloud that is gone goes to the fault sink (R238, R257). It leaves by the node's port 0, or for a sibling cloud goes to
that cloud's agent in the same node. -/
def State.hopEgress (s : State) (cloud i : Nat) (flips : Table (BitVec 160)) : State :=
  match (s.cloud cloud).egressB[i]? with
  | none => s
  | some p =>
    let c := p.dcloud.toNat
    let s1 := s.modCloud cloud (fun k => { k with egressB := k.egressB.eraseIdx i })
    if ¬ firstFor (fun x y => x.dcloud = y.dcloud && x.dcell = y.dcell) (s.cloud cloud).egressB i p then s
    else if c < s.variant.clouds ∧ s.cloudGone c then s1.sinkPacket p 4
    else match s1.spend (.egress cloud) (p.fromEgress cloud) with
      | none => s
      | some (s2, q) =>
        let s2 := s2.giveBack p.credit
        if 1 ≤ q.la ∧ q.la ≤ 3 then s2.ingressArrive (3 * level1Of cloud + (q.la - 1)) q
        else if ¬ s.egressReady cloud i p ∨ s.arbitrate q.place q.la ≠ some q.pairCode then s
        else ((s2.served q).goOver q flips).getD s

/-- An ingress agent forwards a packet that it holds into the cloud's bridge, where it is ready and the node's output port
serves it next (R238, R245). A packet that has a credit for its terminal buffer keeps it. -/
def State.hopIngress (s : State) (cloud i : Nat) : State :=
  match (s.cloud cloud).ingressB[i]? with
  | none => s
  | some p =>
    let p0 := p.fromIngress cloud
    if ¬ s.ingressReady cloud i p ∨ s.arbitrate p0.place p0.la ≠ some p0.pairCode then s
    else match (if p.needsCredit then s.spend (.ingress cloud) p0 else some (s, p0)) with
      | none => s
      | some (s1, q) =>
        let s1 := s1.modCloud cloud (fun k => { k with
          ingressB := k.ingressB.eraseIdx i
          forwarded := if p.vc = .q then k.forwarded ++ [p] else k.forwarded })
        let s1 := if p.needsCredit then s1.giveBack p.credit else s1
        let s1 := (s1.served q).probe q.place q.la q.leaving
        s1.fly { q.leaving with place := .bridge cloud false, inPort := 0 }

/-- FLIT_HOP (R233): one packet is launched, forwarded, or moved over one link; the flips are those of
its flits on that link. -/
def execFlitHop (sel : HopSel) (index : Nat) (flips : Table (BitVec 160)) (s : State) : Out :=
  match sel with
  | .fromCell => unitOk s (index < s.variant.pcells) (s.hopFromCell index flips)
  | .request => unitOk s (index < s.variant.pcells) (s.hopRequest index flips)
  | .answer => unitOk s (s.bankExists index || index = 152
      || decide (160 ≤ index ∧ index < 160 + s.variant.clouds) || decide (256 ≤ index)) (s.hopAnswer index flips)
  | .fromRoot => .next (s.hopFromRoot index flips)
  | .egress c => unitOk s (c < s.variant.clouds) (s.hopEgress c index flips)
  | .ingress c => unitOk s (c < s.variant.clouds) (s.hopIngress c index)
  | .inFlight => .next (s.hopFlight index flips)

/-! ### Credits and timeouts (R238, R242) -/

/-- A credit for a prefetch slot is the dispatcher's record of an empty slot: with the credit it holds the slot as empty
again (R178, R237; DESIGN CHOICE: log entry 46). -/
def State.slotFree (s : State) (c : Credit) : State :=
  match c.buffer with
  | .prefetch lid => { s with dsp := { s.dsp with pfFull := s.dsp.pfFull.filter (· ≠ lid) } }
  | _ => s

/-- CREDIT_RETURN (R238): a credit on the sideband reaches its holder. -/
def execCreditReturn (index : Nat) (s : State) : Out :=
  .next <| match s.jet.returns[index]? with
  | some c => ({ s with jet := { s.jet with
      returns := s.jet.returns.eraseIdx index, credits := s.jet.credits.erase c } } : State).slotFree c
  | none => s

/-- The first output that a packet of a holder takes towards a buffer (R262). -/
def holderLink (h : Holder) (dcloud dcell : Nat) : Nat :=
  match h with
  | .cell p =>
    let at_ : Place := .router (p / 16) (p % 16)
    linkId at_ (nextPort at_ dcloud dcell)
  | .egress c =>
    let at_ : Place := .level1 (level1Of c)
    linkId at_ (nextPort at_ dcloud dcell)
  | .ingress c => linkId (.level1 (level1Of c)) (1 + c % 3)
  | .engine c => linkId (.router c 15) (meshPort 15 dcell)
  | .root => linkId .root (nextPort .root dcloud dcell)

/-- The master of a report by a holder (R262). -/
def holderMaster (h : Holder) : BitVec 10 :=
  match h with
  | .cell p => cellMaster p
  | .engine c => engineMaster c
  | .egress _ | .ingress _ | .root => masterDma

/-- The destination fields of a buffer, as its packets name it; of a prefetch slot, those of its cell. -/
def State.bufferDest (s : State) (b : Buffer) : Nat × Nat :=
  match b with
  | .tokenQueue p => (p / 16, p % 16)
  | .prefetch lid => (((s.placeOf lid).getD 0) / 16, ((s.placeOf lid).getD 0) % 16)
  | .bankQueue b => (b / 8, 4 + b % 8)
  | .engineQueue c => (c, 15)
  | .marchQueue c => (c, 15)
  | .ingress c _ => (c, 0)
  | .egress _ _ => (31, 0)
  | .rootIngress _ => (31, 0)

/-- CREDIT_TIMEOUT (R242): a credit not returned within cto is reclaimed by its holder. -/
def execCreditTimeout (index : Nat) (s : State) : Out :=
  .next <| match s.jet.credits[index]? with
  | some c =>
    let dest := s.bufferDest c.buffer
    let s := ({ s with jet := { s.jet with credits := s.jet.credits.eraseIdx index } } : State).slotFree c
    (s.bump (aJetCnt 3)).raise srcJetCreditLost (holderMaster c.holder) c.access
      (BitVec.ofNat 32 (holderLink c.holder dest.1 dest.2)) (c.head.setWidth 32)
  | none => s

/-- The operation of an outstanding request, as an access type (R351). -/
def Pending.access (p : Pending) : BitVec 3 :=
  match p with
  | .load _ _ _ => accRead
  | .store => accWrite
  | .swp _ => accAtomic
  | .lck _ _ _ | .tlck _ _ | .unl _ | .release _ | .cancel _ | .reprioritise => accLock
  | .engine | .purge _ => accWrite

/-- A cell's response is missing: its own interface makes an error response. -/
def State.cellTimeout (s : State) (pcell tag : Nat) : State :=
  let c := s.cell pcell
  match c.tags.find? (fun o => o.tag = tag) with
  | none => s
  | some o =>
    if c.respQ.any (fun r => r.tag.toNat = tag) then s
    else
      let at_ : Place := .router (pcell / 16) (pcell % 16)
      let s := (s.bump (aJetCnt 4)).raise srcJetRespLost (cellMaster pcell) o.what.access
        (BitVec.ofNat 32 (linkId at_ (bitsOf o.head.toNat 11 9))) (o.head.setWidth 32)
      s.modCell pcell (fun c => { c with respQ := c.respQ ++
        [{ addr := o.ea, status := 0xFF, rcloud := BitVec.ofNat 5 (pcell / 16)
           rcell := BitVec.ofNat 4 (pcell % 16), unit := 0, tag := BitVec.ofNat 6 tag, data := 0, body := [] }] })

/-- A pair station's response is missing (R242, R322): an error response under its own tag. -/
def State.stationTimeout (s : State) (st tag : Nat) : State :=
  let x := s.station st
  match x.tags.find? (fun o => o.tag = tag) with
  | none => s
  | some o =>
    if x.answers.any (fun r => r.tag.toNat = tag) then s
    else
      let s := (s.bump (aJetCnt 4)).raise srcJetRespLost masterDma (opAccess o.main.op)
        (BitVec.ofNat 32 (linkId .root (bitsOf o.head.toNat 11 9))) (o.head.setWidth 32)
      s.modStation st (fun x => { x with answers := x.answers ++
        [{ addr := o.main.addr, status := 0xFF, rcloud := cloudStation, rcell := BitVec.ofNat 4 st, unit := 0
           tag := BitVec.ofNat 6 tag, data := 0, body := [] }] })

/-- RESPONSE_TIMEOUT (R242): a response missing for cto is replaced by an error response from the
requester's own interface. The report names the first link of the request and shows the head of the request (R262). -/
def execResponseTimeout (from_ : Requester) (tag : Nat) (s : State) : Out :=
  match from_ with
  | .cell pcell => unitOk s (pcell < s.variant.pcells) (s.cellTimeout pcell tag)
  | .station st => unitOk s (st < s.variant.stations) (s.stationTimeout st tag)

/-- The packets that a holder has ready (R242). -/
def State.readyPackets (s : State) (h : Holder) : List Packet :=
  match h with
  | .cell p => (s.cell p).outQ.take 1 ++ (match (s.cell p).reqQ with
    | q :: _ => [q]
    | [] => (((s.cell p).freeTag.bind (s.houseRequest p)).map Prod.fst).toList)
  | .egress c => (s.cloud c).egressB
  | .ingress c => (s.cloud c).ingressB.filter Packet.needsCredit
  | .engine c => (s.cloud c).engineOut.take 1
  | .root => s.jet.rootOut

/-- The first packet of a holder that waits for a credit in an episode not yet reported, with the buffer (R242). -/
def State.stalled (s : State) (h : Holder) : Option (Packet × Buffer) :=
  (s.readyPackets h).findSome? fun p => match s.launchBuffer h p with
    | some b => if ¬ s.hasCredit h b ∧ (h, b) ∉ s.jet.stalls then some (p, b) else none
    | none => none

/-- STALL_TIMEOUT (R242): a holder has waited for a credit longer than stall; JET_STALL is reported once
for the episode. -/
def execStallTimeout (h : Holder) (s : State) : Out :=
  .next <| match s.stalled h with
  | none => s
  | some (p, b) =>
    if s.regF aJetTmo 31 16 = 0 then s
    else
      let s := { s with jet := { s.jet with stalls := s.jet.stalls ++ [(h, b)] } }
      let p := match h with
        | .cell q => { p with place := .router (q / 16) (q % 16) }.routed
        | .engine c => { p with place := .router c 15 }.routed
        | .egress c => p.fromEgress c
        | .ingress c => p.fromIngress c
        | .root => { p with place := .root }.routed
      s.raise srcJetStall (holderMaster h) p.access
        (BitVec.ofNat 32 (linkId p.place p.la)) (BitVec.ofNat 32 (p.launchedBy h).head16)

end Sys2Proof.Machine
end

