-- ==== Sys2Proof/Machine/Clouds.lean ====
section
/-! DEFINITION. The states of a cloud (R34 to R38, R252 to R258): frequency changes, drains, parks,
wakes, power-up, return to OFF and fences; and the margin and pair checks of a placement. -/

namespace Sys2Proof.Machine

/-! ### Which clouds hold cells -/

/-- The logical cells that a cloud holds (CLD_STAT.ncells). -/
def State.lidsIn (s : State) (c : Nat) : List Nat :=
  (upTo s.variant.lcells).filter (fun lid => match s.placeOf lid with
    | some p => p / 16 = c
    | none => false)

/-- The island runs at 1.000 GHz whatever CLD_CTRL.slow says (R31). -/
def State.fastForced (s : State) (c : Nat) : Bool :=
  (s.lidsIn c).any (fun lid => (s.pairOf lid).isSome || (match s.partOf lid with
    | some p => (s.partition p).sched
    | none => false))

/-- The frequency that the island should have: 500 MHz when set (R31). -/
def State.wantsSlow (s : State) (c : Nat) : Bool :=
  s.regF (aCldCtrl c) 1 1 = 1 && !s.fastForced c

/-- A relocation uses the cloud (R258). -/
def State.relocating (s : State) (c : Nat) : Bool :=
  decide (s.rep.phase ≠ .idle) && (decide (s.rep.old / 16 = c) || decide (s.rep.sub / 16 = c))

/-! ### Drains (R35, R38, R252) -/

/-- A cause for a drain arises: it starts when the cloud runs, and waits while another drain does
(R38). -/
def State.startDrain (s : State) (c : Nat) (cause : DrainCause) : State :=
  match (s.cloud c).state with
  | .run => s.modCloud c (fun k => { k with
      state := .drain, cause := some cause, drained := false, relock := false, wakeAsk := false })
  | .drain => s.modCloud c (fun k => { k with
      waiting := if some cause = k.cause ∨ cause ∈ k.waiting then k.waiting else k.waiting ++ [cause] })
  | .off | .test | .parked | .waking | .fenced => s

/-- A refill of one of the cloud's cells waits for the switch of its logical id (R360). -/
def State.refilling (s : State) (c : Nat) : Bool := s.rep.refills.any (fun r => r.2 / 16 = c)

/-- What a cloud in RUN has still to do: a cause that waits, a change of frequency, the switch of a refilled id, or a
return to OFF (R35, R38, R252, R258). -/
def State.onRun (s : State) (c : Nat) : State :=
  let k := s.cloud c
  if k.state ≠ .run then s
  else match k.waiting with
    | d :: rest => (s.modCloud c (fun k => { k with waiting := rest })).startDrain c d
    | [] =>
      if s.wantsSlow c ≠ k.slowAct then s.startDrain c (.freq (s.wantsSlow c))
      else if s.refilling c then s.startDrain c .move
      else if s.lidsIn c = [] ∧ ¬ s.relocating c ∧ s.regF (aCldCtrl c) 0 0 = 0 then
        s.startDrain c .off
      else s

/-- A cloud enters RUN (R252 step 5). -/
def State.toRun (s : State) (c : Nat) : State :=
  (s.modCloud c (fun k => { k with
    state := .run, pllLock := true, cause := none, drained := false, relock := false
    wakeAsk := false, flushAsk := false, flushed := false, cold := false })).onRun c

/-- The request under a tag stands in the cell's own queue still, and has not been launched. -/
def Cell.unsent (c : Cell) (tag : Nat) : Bool :=
  c.reqQ.any (fun p => match p.cargo with
    | .plain (.request r) => decide (r.tag.toNat = tag)
    | .paired q => match q.msg with
      | some (.request r) => decide (r.tag.toNat = tag)
      | _ => false
    | _ => false)

/-- Every router and bridge of the cloud is empty, and no request of its cells is outstanding (R252
step 4). One that the drain keeps in a cell's queue is launched after it. -/
def State.drainDone (s : State) (c : Nat) : Bool :=
  (s.jet.flight ++ s.jet.errOut).all (fun p => match p.place with
    | .router d _ | .bridge d _ => d ≠ c
    | .level1 _ | .level2 _ | .root => true)
  && ((upTo 16).map (c * 16 + ·)).all (fun p => (s.cell p).tags.all (fun o => (s.cell p).unsent o.tag))

/-- A cloud without power (R258): nothing that it held is kept. -/
def State.powerOff (s : State) (c : Nat) : State :=
  let s := s.modCloud c (fun k => { Cloud.idle with
    state := .off, retired := k.retired, ingressB := k.ingressB, egressB := k.egressB })
  let s := ((upTo 16).map (c * 16 + ·)).foldl (fun s p => s.setCell p Cell.idle) s
  (upTo 8).foldl (fun s j => s.modBank (c * 8 + j) (fun _ => Bank.idle)) s

/-- A cloud parks (R254 steps 3 and 4). -/
def State.toParked (s : State) (c : Nat) : State :=
  let t := s.zen.count
  let s := (s.setReg (aMemSpillParkl c) (BitVec.ofNat 32 t)).setReg (aMemSpillParkh c)
    (BitVec.ofNat 32 (t / 2 ^ 32))
  (s.modCloud c (fun k => { k with
    state := .parked, pllLock := false, cause := none, flushAsk := false, flushed := false })).bump
    (aJetCnt 7)

/-- The state with a logical id at a physical cell (R36). -/
def State.place (s : State) (lid pcell : Nat) : State :=
  { s with rep := { s.rep with place := tset (fun _ => 0) s.rep.place lid (pcell + 1) } }

/-- The state with a logical id at no cell. -/
def State.unplace (s : State) (lid : Nat) : State :=
  { s with rep := { s.rep with place := terase s.rep.place lid } }

/-- The refills of a drained cloud take their logical ids (R36, R360); each cell runs, and is available (R172). -/
def State.finishRefills (s : State) (c : Nat) : State :=
  let s1 := (s.rep.refills.filter (fun r => r.2 / 16 = c)).foldl (fun s r =>
    (s.place r.1 r.2).modCell r.2 (fun x => { x with stopped := false })) s
  let s2 := { s1 with rep := { s1.rep with refills := s1.rep.refills.filter (fun r => r.2 / 16 ≠ c) } }
  if s.refilling c then s2.tryAll else s2

/-- The relocation has asked for the drain of its clouds, and has not yet switched (R339, R342). -/
def State.switching (s : State) : Bool :=
  decide (s.rep.phase = .switch) || decide (s.rep.phase = .return_)
    || (s.rep.shadow && decide (s.rep.phase = .copy))

/-- A park is given up: a flit has come, or a relocation uses the cloud and completes first (R38, R254). -/
def State.parkOff (s : State) (c : Nat) : Bool := (s.cloud c).wakeAsk || s.relocating c || s.refilling c

/-- The action of a drain's cause, once the drain is complete (R252 step 4). A cloud that a relocation, a refill or
keep_on has taken meanwhile does not go OFF (R38, R258). -/
def State.drainAction (s : State) (c : Nat) (d : DrainCause) : State :=
  match d with
  | .freq _ => s.modCloud c (fun k => { k with relock := true, pllLock := false })
  | .move =>
    let s := s.finishRefills c
    if s.switching && s.relocating c then s.modCloud c (fun k => { k with drained := true }) else s.toRun c
  | .park => if s.parkOff c then s.toRun c else s.toParked c
  | .off =>
    if s.lidsIn c = [] ∧ ¬ s.relocating c ∧ ¬ s.refilling c ∧ s.regF (aCldCtrl c) 0 0 = 0 then s.powerOff c
    else s.toRun c

/-- DRAIN_COMPLETE (R252): the drain of a cloud is complete and its cause's action runs; a park waits
until levels 1 and 2 are empty, unless it is abandoned (R254). -/
def execDrainComplete (cloud : Nat) (s : State) : Out :=
  unitOk s (cloud < s.variant.clouds) <|
    let k := s.cloud cloud
    match k.state, k.cause with
    | .drain, some d =>
      if ¬ s.drainDone cloud ∨ k.relock ∨ k.drained ∨ (d = .park ∧ ¬ s.parkOff cloud ∧ ¬ (k.flushed ∧ s.levelsEmpty cloud)) then s
      else (s.bump (aJetCnt 8)).drainAction cloud d
    | _, _ => s

/-- PLL_RELOCK_DONE (R35): the island PLL has relocked and the cloud returns to RUN. -/
def execPllRelockDone (cloud : Nat) (s : State) : Out :=
  unitOk s (cloud < s.variant.clouds) <|
    let k := s.cloud cloud
    match k.state, k.cause with
    | .drain, some (.freq slow) =>
      if k.relock then (s.modCloud cloud (fun k => { k with slowAct := slow })).toRun cloud else s
    | _, _ => s

/-! ### CLD_CTRL (R35, R258) -/

/-- A cloud powers up from OFF (R258); a cell of it that holds an id is available again (R172, R174). -/
def State.powerUp (s : State) (c : Nat) : State :=
  if (s.cloud c).state = .off then
    (s.modCloud c (fun k => { k with state := .waking, cold := true, slowAct := false })).tryAll
  else s

/-- A write of CLD_CTRL (R35, R258): slow may start a frequency change; keep_on 1 powers an OFF cloud
up. -/
def State.writeCldCtrl (s : State) (c : Nat) (v : Word) : State :=
  let s := s.setReg (aCldCtrl c) (v &&& 3)
  let s := if fld v 0 0 = 1 then s.powerUp c else s
  s.onRun c

/-- CLD_CTRL_SLOW_WRITE (R35). -/
def execCldCtrlSlowWrite (cloud : Nat) (v : Word) (s : State) : Out :=
  unitOk s (cloud < 18) (s.ownWrite (aCldCtrl cloud) v (s.writeCldCtrl cloud v))

/-- CLD_CTRL_KEEP_ON_WRITE (R258). -/
def execCldCtrlKeepOnWrite (cloud : Nat) (v : Word) (s : State) : Out :=
  unitOk s (cloud < 18) (s.ownWrite (aCldCtrl cloud) v (s.writeCldCtrl cloud v))

/-! ### Park, wake and power-up (R253 to R258) -/

/-- A cell lets its cloud park (R253). -/
def State.cellIdle (s : State) (pcell : Nat) (l3 : Bool) : Bool :=
  let c := s.cell pcell
  (match s.lidOf pcell with
    | some lid => s.liveCount lid = 0 && decide (lid ∉ s.dsp.drain)
    | none => true)
  && c.dir.isEmpty && c.prefetch.isNone && c.prefetchIn.isNone && c.readyQ.isEmpty && c.inQ.isEmpty
  && c.schedQ.isEmpty && c.preQ.isEmpty && c.outQ.isEmpty && c.strands.isEmpty
  && c.store.all (fun e => l3 && e.2.sendable)
  && c.tags.isEmpty && c.reqQ.isEmpty && c.houseQ.isEmpty

/-- R253: the cloud meets every condition for a park. -/
def State.parkable (s : State) (c : Nat) : Bool :=
  let l3 := s.l3On c
  s.regF aJetCtrl 1 1 = 1 && s.regF (aCldCtrl c) 0 0 = 0 && !s.fastForced c
  && !s.relocating c && !(s.lidsIn c).isEmpty
  && ((upTo 16).map (c * 16 + ·)).all (fun p => s.cellIdle p l3)
  && (l3 || (s.cloud c).l2.isEmpty)
  && ((upTo 8).map (c * 8 + ·)).all (fun b =>
    (s.bank b).dir.isEmpty && (s.bank b).queue.isEmpty && (s.bank b).answers.isEmpty)

/-- PARK_IDLE (R253): a cloud that has met the park conditions for JET_PCTL.idle starts to park; its
spill engine is asked to flush (R254). -/
def execParkIdle (cloud : Nat) (s : State) : Out :=
  unitOk s (cloud < s.variant.clouds) <|
    if (s.cloud cloud).state = .run ∧ s.parkable cloud then
      (s.startDrain cloud .park).modCloud cloud (fun k => { k with
        flushAsk := true, flushed := false })
    else s

/-- WAKE_COMPLETE (R256): a woken cloud rebuilds its stamps, restarts its bridge and returns to RUN. -/
def execWakeComplete (cloud : Nat) (s : State) : Out :=
  unitOk s (cloud < s.variant.clouds) <|
    if (s.cloud cloud).state = .waking ∧ ¬ (s.cloud cloud).cold then
      (s.toRun cloud).rebuildStamps cloud
    else s

/-- A cell whose cloud has powered up from OFF (R258 step 4): valid bits, frame directory, queues and spill counters are
clear; instruction and frame stores are left for the copy or load that follows. -/
def Cell.poweredUp (c : Cell) : Cell :=
  { Cell.idle with
    istore := c.istore, frame := c.frame, globals := c.globals, latePol := c.latePol, nextUid := c.nextUid
    stopped := c.stopped }

/-- POWER_UP_COMPLETE (R258): a cloud powered from OFF has cleared its scratchpads and its cells' stores,
and enters RUN. -/
def execPowerUpComplete (cloud : Nat) (s : State) : Out :=
  unitOk s (cloud < s.variant.clouds) <|
    if (s.cloud cloud).state = .waking ∧ (s.cloud cloud).cold then
      let s := { s with mem := { s.mem with poison := s.mem.poison.filter (fun w => w.1 ≠ cloud) } }
      let s := ((upTo 16).map (cloud * 16 + ·)).foldl (fun s p => s.modCell p Cell.poweredUp) s
      (s.modCloud cloud (fun k => { k with scratch := [], l2 := [], l3 := [] })).toRun cloud
    else s

/-! ### Fences (R257) -/

/-- A wait for a lock of a fenced cloud ends with ACCESS, and H6 holds the lock address (R293). A suspended strand's
record names the slot that it left. -/
def State.lockLost (s : State) (pcell : Nat) (w : WaitRec) : State :=
  let c := s.cell pcell
  let s := s.modCell pcell (fun c => { c with waits := c.waits.filter (fun x => x.waitId ≠ w.waitId) })
  let trap (t : Strand) (slot : Nat) : State :=
    match t.wait with
    | .lock _ _ ea => s.trapStrand pcell slot { t with wait := .nothing } .access 0 ea false
    | _ => s
  match c.slots.find? (fun e => e.2.uid = w.uid), c.resume.find? (fun t => t.uid = w.uid) with
  | some (slot, t), _ => trap t slot
  | none, some t => trap (c.restoreStrand t) (fld (c.word (t.rb.toNat + 9)) 10 8)
  | none, none => s

/-- The bank of a lock word, by the address that a cell knows it by. -/
def State.lockBank (s : State) (pcell : Nat) (ea : Word) : Option Nat :=
  (s.partOfCell pcell).bind fun p => (s.locate (s.idOf pcell) p ea).map fun l => l.region.bankNo

/-- A cloud is fenced: every other cell's waits for its locks end, and held-lock entries that name it are dropped without
any message (R293). -/
def State.fenceLocks (s : State) (c : Nat) : State :=
  ((upTo s.variant.pcells).filter (· / 16 ≠ c)).foldl (fun s p =>
    let gone (b : Nat) : Bool := decide (b < 144 ∧ b / 8 = c)
    let s := s.modCell p (fun x => { x with
      held := x.held.filter (fun h => !(s.lockBank p h.addr).any gone) })
    ((s.cell p).waits.filter (fun w => gone w.bank)).foldl (fun s w => s.lockLost p w) s) s

/-- A cloud is fenced at once (R38, R257): flits inside it are lost, its agent answers for it, waits for its locks end
(R293), and any pending change is abandoned. -/
def State.fenceCloud (s : State) (c : Nat) : State :=
  let k := s.cloud c
  if k.state = .fenced then s
  else
    let s := s.fenceLocks c
    let s := s.modCloud c (fun k => { k with
      state := .fenced, cause := none, waiting := [], relock := false, drained := false
      wakeAsk := false, cold := false, flushAsk := false, flushed := false, ingressB := []
      forwarded := [], engineQ := [], engineOut := [] })
    let s := { s with
      rep := { s.rep with refills := s.rep.refills.filter (fun r => r.2 / 16 ≠ c) }
      jet := { s.jet with
        flight := s.jet.flight.filter (fun p => match p.place with
          | .router d _ | .bridge d _ => d ≠ c
          | .level1 _ | .level2 _ | .root => true)
        errOut := s.jet.errOut.filter (fun p => match p.place with
          | .router d _ | .bridge d _ => d ≠ c
          | .level1 _ | .level2 _ | .root => true) } }
    let s := ((upTo 16).map (c * 16 + ·)).foldl (fun s p => s.modCell p (fun x => { x with
      stopped := true, outQ := [], reqQ := [], houseQ := [], trapQ := [] })) s
    let s := k.ingressB.foldl (fun s p => s.ingressArrive c p) s
    k.forwarded.foldl (fun s p => s.errorAnswer p (.level1 (level1Of c))) s

/-! ### Placements (R218, R309, R337) -/

/-- The main and the checker of every pair lie below different level-one nodes (R309). -/
def State.pairsApart (s : State) : Bool :=
  s.pairs?.all fun q => match s.placeOf q.2.2.1, s.placeOf q.2.2.2 with
    | some m, some k => level1Of (m / 16) ≠ level1Of (k / 16)
    | _, _ => true

/-- A placement of a Scheduled cell passes the margin check and the pair rule (R337); one of a Dynamic
cell always passes. -/
def State.moveAllowed (s : State) (lid pcell : Nat) : Bool :=
  match s.partOf lid with
  | some p => !(s.partition p).sched || ((s.place lid pcell).marginsOk && (s.place lid pcell).pairsApart)
  | none => true

/-- The check of a placement of a Scheduled cell is recorded (R218). -/
def State.noteMove (s : State) (lid pcell : Nat) : State :=
  match s.partOf lid with
  | some p => if (s.partition p).sched then s.noteMargins (s.place lid pcell) else s
  | none => s

/-- A spare cloud that holds no logical cloud (R338): a physical cloud beyond the logical ones, or one
that retirement has emptied, to which no logical cloud is assigned. -/
def State.freeSpare (s : State) (c : Nat) : Bool :=
  decide (s.variant.lclouds ≤ c ∧ c < s.variant.clouds) && !(s.cloud c).retired
    && decide ((s.cloud c).state ≠ .fenced)
    && (upTo s.variant.lclouds).all (fun n => tget (fun _ => 0) s.rep.cloudOf n ≠ c + 1)

/-- A relocation or a refill has taken the cell, and no logical id stands there yet (R339, R360). -/
def State.promised (s : State) (p : Nat) : Bool :=
  (decide (s.rep.phase ≠ .idle) && (decide (p = s.rep.sub) || decide (p = s.rep.old)))
    || s.rep.refills.any (fun r => r.2 = p)

/-- The good free physical cells of spare clouds, lowest first (REP_STAT.spare_free). -/
def State.spareCells (s : State) : List Nat :=
  (upTo s.variant.pcells).filter (fun p => s.freeSpare (p / 16) && (s.lidOf p).isNone
    && decide (p ∉ s.rep.failed) && decide (p ∉ s.rep.fenced) && !s.promised p)

end Sys2Proof.Machine
end

