-- ==== Sys2Proof/Machine/Codec.lean ====
section
/-! DEFINITION. Check values over bytes: the CRC-16 of the logs, the boot record and the service
frames (R305, R376, R464, R490), the CRC-32 and the layout of Powyn frames (R428), the text of service lines (R463,
R464, R498), and the SHA-256 digest of images and keys (R468, R469; the function
is the public standard FIPS 180-4). -/

namespace Sys2Proof.Machine

/-! ### CRC-16 -/

/-- One bit of the CRC-16 with polynomial 0x1021, most significant bit first. -/
def crcBit (c : BitVec 16) : BitVec 16 := if c.msb then (c <<< 1) ^^^ 0x1021 else c <<< 1

/-- One byte of the CRC-16. -/
def crcByte (c : BitVec 16) (b : Byte) : BitVec 16 :=
  let c := c ^^^ ((b.setWidth 16) <<< 8)
  crcBit (crcBit (crcBit (crcBit (crcBit (crcBit (crcBit (crcBit c)))))))

/-- The CRC-16 over bytes, initial value 0xFFFF (R376). -/
def crc16 (bs : List Byte) : BitVec 16 := bs.foldl crcByte 0xFFFF

/-! ### CRC-32 (R428) -/

/-- One bit of the CRC-32 of IEEE 802.3, least significant bit first. -/
def crc32Bit (c : Word) : Word := if c.getLsbD 0 then (c >>> 1) ^^^ 0xEDB88320 else c >>> 1

/-- One byte of the CRC-32. -/
def crc32Byte (c : Word) (b : Byte) : Word :=
  crc32Bit (crc32Bit (crc32Bit (crc32Bit (crc32Bit (crc32Bit (crc32Bit (crc32Bit (c ^^^ b.setWidth 32))))))))

/-- The CRC-32 over bytes. -/
def crc32 (bs : List Byte) : Word := ~~~bs.foldl crc32Byte 0xFFFFFFFF

/-! ### Powyn frames (R428) -/

/-- Header and payload of a frame. -/
def frameBody (f : Frame) : List Byte :=
  [f.type, BitVec.ofNat 8 (f.dst.toNat + b2n f.isLocal * 64 + b2n f.up * 128),
    BitVec.ofNat 8 (f.src.toNat + b2n f.adapter * 64), BitVec.ofNat 8 (f.payload.length / 32)]
    ++ leBytes 2 f.seq.toNat ++ [0, 0] ++ f.payload

/-- The seq of a frame's header. -/
def frameSeq (bs : List Byte) : BitVec 16 := BitVec.ofNat 16 (leNat ((bs.drop 4).take 2))

/-- The frame that header and payload spell under the crc that follows them: none where their number does not fit len,
or the crc fails. -/
def frameOf (body : List Byte) (crc : Word) : Option Frame :=
  let n := 32 * (body.getD 3 0).toNat
  let b1 := body.getD 1 0
  let b2 := body.getD 2 0
  if n ≤ 512 ∧ body.length = 8 + n ∧ crc = crc32 body then
    some { type := body.getD 0 0, dst := b1.setWidth 6, isLocal := b1.getLsbD 6, up := b1.getLsbD 7
           src := b2.setWidth 6, adapter := b2.getLsbD 6, seq := frameSeq body, payload := body.drop 8 }
  else none

/-! ### Text lines (R463, R464, R498) -/

/-- Characters as bytes. -/
def ascii (t : String) : List Byte := t.toList.map (fun c => BitVec.ofNat 8 c.toNat)

/-- A hexadecimal digit. -/
def hexDigit (n : Nat) : Byte := BitVec.ofNat 8 (if n < 10 then 48 + n else 55 + n)

/-- A number in n hexadecimal digits. -/
def hexText : Nat → Nat → List Byte
  | 0, _ => []
  | n + 1, v => hexDigit (v / 16 ^ n % 16) :: hexText n v

/-- A decimal number below 100. -/
def decText (n : Nat) : List Byte :=
  (if n < 10 then [] else [hexDigit (n / 10)]) ++ [hexDigit (n % 10)]

/-- The bytes of a service frame before its CRC-16. -/
def svcBody (seq cmd : Byte) (payload : List Byte) : List Byte :=
  seq :: cmd :: BitVec.ofNat 8 payload.length :: payload

/-- A service frame as a text line: ":", hexadecimal pairs with the CRC-16 low byte first, CR and LF. -/
def svcLine (seq cmd : Byte) (payload : List Byte) : List Byte :=
  let body := svcBody seq cmd payload
  ascii ":" ++ (body ++ leBytes 2 (crc16 body).toNat).flatMap (fun b => hexText 2 b.toNat) ++ [13, 10]

/-- The serial number as IDENT and the connection line print it: the halves of CAP_SNLO joined by a hyphen, those of
CAP_SNHI in front only where it is not 0 (R498). -/
def serialText (n : Nat) : List Byte :=
  (if n / 2 ^ 32 = 0 then [] else hexText 4 (n / 2 ^ 48 % 2 ^ 16) ++ ascii "-" ++ hexText 4 (n / 2 ^ 32 % 2 ^ 16) ++ ascii "-")
    ++ hexText 4 (n / 2 ^ 16 % 2 ^ 16) ++ ascii "-" ++ hexText 4 (n % 2 ^ 16)

/-! ### SHA-256 -/

/-- A k-th root of x, rounded down: r with the bits below n added, from the top, that keep the power at most x. -/
def rootFrom (k x : Nat) : Nat → Nat → Nat
  | 0, r => r
  | n + 1, r => rootFrom k x n (if (r + 2 ^ n) ^ k ≤ x then r + 2 ^ n else r)

/-- The first 32 bits of the fractional part of a k-th root. -/
def rootWord (k p : Nat) : Word := BitVec.ofNat 32 (rootFrom k (p * 2 ^ (32 * k)) 40 0)

/-- The primes below a bound of at most 361. -/
def primesTo (n : Nat) : List Nat :=
  (List.range n).filter fun p => 1 < p && (List.range 19).all (fun d => d < 2 || p ≤ d || p % d ≠ 0)

/-- The constants of the 64 rounds: cube roots of the first 64 primes. -/
def roundWords : List Word := (primesTo 312).map (rootWord 3)

/-- The eight chaining words. -/
structure ShaState where
  a : Word
  b : Word
  c : Word
  d : Word
  e : Word
  f : Word
  g : Word
  h : Word
  deriving DecidableEq, Repr

/-- The chaining words that a list holds. -/
def ShaState.ofList (l : List Word) : ShaState :=
  { a := l.getD 0 0, b := l.getD 1 0, c := l.getD 2 0, d := l.getD 3 0
    e := l.getD 4 0, f := l.getD 5 0, g := l.getD 6 0, h := l.getD 7 0 }

/-- The initial chaining words: square roots of the first eight primes. -/
def shaInit : ShaState := .ofList ((primesTo 20).map (rootWord 2))

/-- The message schedule, newest word first. -/
def shaExpand : Nat → List Word → List Word
  | 0, w => w
  | n + 1, w =>
    let x := w.getD 1 0
    let y := w.getD 14 0
    let s1 := x.rotateRight 17 ^^^ x.rotateRight 19 ^^^ (x >>> 10)
    let s0 := y.rotateRight 7 ^^^ y.rotateRight 18 ^^^ (y >>> 3)
    shaExpand n ((s1 + w.getD 6 0 + s0 + w.getD 15 0) :: w)

/-- One round, with its constant and its schedule word. -/
def shaRound (s : ShaState) (kw : Word × Word) : ShaState :=
  let s1 := s.e.rotateRight 6 ^^^ s.e.rotateRight 11 ^^^ s.e.rotateRight 25
  let ch := (s.e &&& s.f) ^^^ (~~~s.e &&& s.g)
  let t1 := s.h + s1 + ch + kw.1 + kw.2
  let s0 := s.a.rotateRight 2 ^^^ s.a.rotateRight 13 ^^^ s.a.rotateRight 22
  let maj := (s.a &&& s.b) ^^^ (s.a &&& s.c) ^^^ (s.b &&& s.c)
  { a := t1 + (s0 + maj), b := s.a, c := s.b, d := s.c, e := s.d + t1, f := s.e, g := s.f, h := s.g }

/-- A big-endian word of four bytes. -/
def beWord (bs : List Byte) : Word := bs.foldl (fun w b => (w <<< 8) ||| b.setWidth 32) 0

/-- The sixteen words of a block, newest first. -/
def shaWords : Nat → List Byte → List Word → List Word
  | 0, _, w => w
  | n + 1, bs, w => shaWords n (bs.drop 4) (beWord (bs.take 4) :: w)

/-- One block of 64 bytes. -/
def shaBlock (s : ShaState) (bs : List Byte) : ShaState :=
  let w := (shaExpand 48 (shaWords 16 bs [])).reverse
  let t := (roundWords.zip w).foldl shaRound s
  { a := s.a + t.a, b := s.b + t.b, c := s.c + t.c, d := s.d + t.d
    e := s.e + t.e, f := s.f + t.f, g := s.g + t.g, h := s.h + t.h }

/-- All blocks. -/
def shaBlocks : Nat → ShaState → List Byte → ShaState
  | 0, s, _ => s
  | n + 1, s, bs => shaBlocks n (shaBlock s (bs.take 64)) (bs.drop 64)

/-- The padded message: 0x80, zeros, and the bit length in eight big-endian bytes. -/
def shaPad (bs : List Byte) : List Byte :=
  bs ++ [0x80] ++ List.replicate ((119 - bs.length % 64) % 64) 0
    ++ (leBytes 8 (bs.length * 8)).reverse

/-- SHA-256 of bytes, the first byte of the digest in bits [255:248]. -/
def sha256 (bs : List Byte) : BitVec 256 :=
  let m := shaPad bs
  let s := shaBlocks (m.length / 64) shaInit m
  s.a ++ s.b ++ s.c ++ s.d ++ s.e ++ s.f ++ s.g ++ s.h

/-- The 32 bytes of a digest, the first byte first. -/
def digestBytes (d : BitVec 256) : List Byte := (leBytes 32 d.toNat).reverse

/-- The digest that 32 bytes hold. -/
def digestOf (bs : List Byte) : BitVec 256 :=
  BitVec.ofNat 256 (leNat bs.reverse)

end Sys2Proof.Machine
end

