-- ==== Sys2Proof/Machine/Repair.lean ====
section
/-! DEFINITION. Memory test and repair: the macros (R298), the allocation of spares (R302, R303), the
repair log (R305, R306) and the rolling test of scratchpad and global banks (R300, R304). -/

namespace Sys2Proof.Machine

/-! ### Macros (R298) -/

/-- What a macro id names. -/
inductive MacroAt where
  | cell (pcell m : Nat)
  | scratch (cloud half : Nat)
  | glob (half : Nat)
  deriving DecidableEq, Repr

/-- The unit of a macro id; a scratchpad half and a global half are numbered in address order. -/
def macroAt (id : Nat) : MacroAt :=
  if id < 1152 then .cell (id / 4) (id % 4)
  else if id < 1440 then .scratch ((id - 1152) / 16) ((id - 1152) % 16)
  else .glob (id - 1440)

/-- The march engine that serves a macro: the cloud's, or the root's as 18 (R299). -/
def marchEngine (id : Nat) : Nat :=
  match macroAt id with
  | .cell p _ => p / 16
  | .scratch c _ => c
  | .glob _ => 18

/-- The poison number of the word at a row and a column (R272): the words of a row lie one after the other in its 1,248
columns. Every read of a matching-store entry has a check of its own (R83), so that its poison is seen in no other way. -/
def macroWord (id row col : Nat) : Nat × Nat :=
  let w := row * 32 + col / 39
  match macroAt id with
  | .cell p 0 => (1024 + p, w)
  | .cell p 1 => (32 + p, w)
  | .cell p 2 => (32 + p, 8192 + w)
  | .cell p _ => (2048 + p, w)
  | .scratch c h => (c, h * 8192 + w)
  | .glob h => (18, h * 8192 + w)

/-- The address field of an engine's report: macro id in [10:0], row in [26:16]. -/
def macroAddr (id row : Nat) : Word := BitVec.ofNat 32 (id % 2048 + row % 2048 * 65536)

/-! ### Spares (R302) -/

/-- An allocation under way: spares used, the lines replaced in order, and the bits not yet covered. -/
structure Alloc where
  rows  : Nat
  cols  : Nat
  /-- Lines replaced: a row when set, and its number. -/
  taken : List (Bool × Nat)
  left  : List FailBit
  deriving DecidableEq, Repr

/-- A spare row for a row, where one is left. -/
def Alloc.takeRow (a : Alloc) (r : Nat) : Alloc :=
  if a.rows < 2 then
    { a with rows := a.rows + 1, taken := a.taken ++ [(true, r)], left := a.left.filter (fun b => b.row ≠ r) }
  else a

/-- A spare column for a column, where one is left. -/
def Alloc.takeCol (a : Alloc) (k : Nat) : Alloc :=
  if a.cols < 2 then
    { a with cols := a.cols + 1, taken := a.taken ++ [(false, k)], left := a.left.filter (fun b => b.col ≠ k) }
  else a

/-- The three passes of R302 over the failing bits of a macro that has used some spares. -/
def allocSpares (used : Nat × Nat) (bits : List FailBit) : Alloc :=
  let bits := bits.eraseDups
  let a : Alloc := { rows := used.1, cols := used.2, taken := [], left := bits }
  let a := (bits.map FailBit.row).eraseDups.foldl (fun a r =>
    if 2 - a.cols < (a.left.filter (fun b => b.row = r)).length then a.takeRow r else a) a
  let a := (bits.map FailBit.col).eraseDups.foldl (fun a k =>
    if 2 - a.rows < (a.left.filter (fun b => b.col = k)).length then a.takeCol k else a) a
  bits.foldl (fun a b =>
    if b ∉ a.left then a
    else if a.rows < 2 then a.takeRow b.row
    else a.takeCol b.col) a

/-! ### The repair log (R305, R306) -/

/-- Where the repair log lies in MRAM (R281), and how many entries it holds. -/
def Variant.repairLog : Variant → Nat × Nat
  | .ltm7256 => (0x300000, 4096)
  | .ltm7128 => (0x300000, 4096)
  | .ltm7064 => (0xC0000, 1024)

/-- A repair log entry, less its seq and crc. -/
structure RepEntry where
  time   : Nat
  local_ : Bool
  target : Nat
  spare  : Nat
  kind   : Nat
  index  : Nat
  origin : Nat
  deriving DecidableEq, Repr

/-- The 16 bytes of an entry (R305). -/
def RepEntry.bytes (e : RepEntry) (seq : BitVec 16) : List Byte :=
  let body := leBytes 8 (timeWord e.time e.local_)
    ++ leBytes 4 (e.target % 2048 + e.spare % 2 * 2 ^ 11 + e.kind % 16 * 2 ^ 12 + e.index % 2048 * 2 ^ 16
      + e.origin % 4 * 2 ^ 27)
    ++ leBytes 2 seq.toNat
  body ++ leBytes 2 (crc16 body).toNat

/-- The entry that 16 bytes hold; none when its crc fails (R306). -/
def RepEntry.ofBytes (bs : List Byte) : Option RepEntry :=
  if leNat (bs.drop 14) ≠ (crc16 (bs.take 14)).toNat then none
  else
    let t := leNat (bs.take 8)
    let w := leNat ((bs.drop 8).take 4)
    some { time := bitsOf t 62 0, local_ := bitsOf t 63 63 = 1, target := bitsOf w 10 0
           spare := bitsOf w 11 11, kind := bitsOf w 15 12, index := bitsOf w 26 16
           origin := bitsOf w 28 27 }

/-- An entry is appended to the repair log; a full log reports REPLOG_FULL, with the macro and row of the repair, and does
not keep it (R306, R308; no macro for a map-out or a retirement: log entry 133). -/
def State.logRepair (s : State) (kind target spare index origin : Nat) (addr : Word) : State :=
  let (base, cap) := s.variant.repairLog
  if cap ≤ s.rep.logCount then
    s.raise srcReplogFull masterDma accRead addr 0
  else
    let e : RepEntry :=
      { time := s.zen.count, local_ := s.zen.state ≠ .locked, target, spare, kind, index, origin }
    let s := s.mramWrite (base + s.rep.logCount * 16) (e.bytes s.rep.logSeq)
    { s with
      rep := { s.rep with logCount := s.rep.logCount + 1, logSeq := s.rep.logSeq + 1 } }

/-- Spare rows and columns that a macro has used. -/
def State.sparesOf (s : State) (id : Nat) : Nat × Nat := tget (fun _ => (0, 0)) s.mem.spares id

/-! ### Repairs (R302 to R304) -/

/-- A spare is applied to a line of a macro: it is counted, logged and reported. -/
def State.applySpare (s : State) (id origin : Nat) (bits : List FailBit) (line : Bool × Nat) : State :=
  let (r, c) := s.sparesOf id
  let spare := if line.1 then r else c
  let row := if line.1 then line.2 else match bits.find? (fun b => b.col = line.2) with
    | some b => b.row
    | none => 0
  let s := { s with mem := { s.mem with
    spares := tset (fun _ => (0, 0)) s.mem.spares id (if line.1 then (r + 1, c) else (r, c + 1)) } }
  let s := s.logRepair (if line.1 then 1 else 2) id spare line.2 origin (macroAddr id row)
  let s := (s.bump (aMemCnt 14)).addRegF (aMarEng (marchEngine id)) 15 8 1
  s.raise srcMarRepair masterDma accRead (macroAddr id row) 0

/-- A word of a macro is poisoned and reported; the manual names the ECC syndrome, and no value for it: a free word (R272,
R304, R308). -/
def State.poisonMacro (s : State) (id row col : Nat) : State :=
  let w := macroWord id row col
  if s.poisoned w.1 w.2 then s
  else
    let (n, s) := ((s.setPoison w.1 w.2).bump (aMemCnt 1)).takeFresh
    s.raise srcMemUe masterDma accRead (macroAddr id row) (Config.freeWord n)

/-- The words that cannot be corrected, with two failing bits or more, and the words of bits that no
spare covers, are poisoned (R304). -/
def State.poisonFails (s : State) (id : Nat) (bits left : List FailBit) : State :=
  bits.foldl (fun s b =>
    if b ∈ left ∨ 1 < (bits.filter (fun d => d.row = b.row ∧ d.col / 39 = b.col / 39)).length
    then s.poisonMacro id b.row b.col else s) s

/-- A macro's cloud is a spare cloud that holds no logical cloud (R303). -/
def State.spareMacro (s : State) (id : Nat) : Option Nat :=
  match macroAt id with
  | .cell p _ => if s.freeSpare (p / 16) then some (p / 16) else none
  | .scratch c _ => if s.freeSpare c then some c else none
  | .glob _ => none

/-- A macro is unrepairable (R303): it is counted, logged with kind 5, and reported; a spare cloud that it belongs to
leaves the spares. -/
def State.unrepairable (s : State) (id row origin : Nat) : State :=
  let s := (s.addRegF (aMarEng (marchEngine id)) 23 16 1).logRepair 5 id 0 0 origin (macroAddr id row)
  let s := match s.spareMacro id with
    | some c => s.modCloud c (fun k => { k with retired := true })
    | none => s
  let source := match macroAt id with
    | .glob _ => srcMarGlobal
    | .cell _ _ | .scratch _ _ => srcMarUnrep
  s.raise source masterDma accRead (macroAddr id row) 0

/-- The failing bits that a march found in a macro: spares take them in the passes of R302, and what is
left makes the macro unrepairable. -/
def State.repairMacro (s : State) (f : MacroFail) (origin : Nat) : State :=
  let a := allocSpares (s.sparesOf f.macroId) f.bits
  let s := a.taken.foldl (fun s line => s.applySpare f.macroId origin f.bits line) s
  match a.left with
  | [] => s
  | b :: _ => s.unrepairable f.macroId b.row origin

/-- The failing bits that a transparent test finds in a macro: repaired, and the words that cannot be corrected, or that no
spare covers, poisoned (R304). -/
def State.mendMacro (s : State) (f : MacroFail) (origin : Nat) : State :=
  (s.repairMacro f origin).poisonFails f.macroId f.bits (allocSpares (s.sparesOf f.macroId) f.bits).left

/-- The failing bits of a macro exceed its spares (R303). -/
def State.exceeds (s : State) (f : MacroFail) : Bool :=
  !(allocSpares (s.sparesOf f.macroId) f.bits).left.isEmpty

/-! ### The rolling march of scratchpad and global banks (R300, R301, R304) -/

/-- Segments of 16 words that an engine marches: a cloud's scratchpad, or global memory. -/
def marchSegments (engine : Nat) : Nat := if engine < 18 then 8192 else 49152

/-- The macro and the first word of a segment. -/
def segmentAt (engine seg : Nat) : Nat × Nat :=
  let half := seg / 512
  (if engine < 18 then 1152 + engine * 16 + half else 1440 + half, seg % 512 * 16)

/-- A failing bit lies in the segment that begins at a word of its macro. -/
def inSegment (word : Nat) (b : FailBit) : Bool :=
  let w := b.row * 32 + b.col / 39
  decide (b.row < 256 ∧ b.col < 1248 ∧ word ≤ w ∧ w < word + 16)

/-- ROLL_SEGMENT (R300): the transparent test of the engine's next segment leaves every word as it was;
failing bits are repaired, and words that no spare saves are poisoned (R304). -/
def execRollSegment (engine : Nat) (bits : List FailBit) (s : State) : Out :=
  unitOk s (engine < s.variant.clouds ∨ engine = 18) <|
    let on := if engine < 18
      then decide ((s.cloud engine).state = .run ∨ (s.cloud engine).state = .drain) else s.running
    if ¬ (s.running ∧ on ∧ s.regF aMarCtrl 0 0 = 1) then s
    else
      let seg := tget (fun _ => 0) s.mem.marchAt engine
      let (id, word) := segmentAt engine seg
      let fails := bits.filter (inSegment word)
      let s := { s with mem := { s.mem with
        marchAt := tset (fun _ => 0) s.mem.marchAt engine ((seg + 1) % marchSegments engine) } }
      if fails = [] then s
      else s.mendMacro { macroId := id, bits := fails } 1

end Sys2Proof.Machine
end

