-- ==== Sys2Proof/Machine/Roll.lean ====
section
/-! DEFINITION. Relocation while running: rolling self-test (R338 to R340), shadow swap (R341, R342), the
moves of a cell's state (R73, R274), and what ends a relocation early (R343). -/

namespace Sys2Proof.Machine

/-! ### Reports and the next cell (R338, R341, R345) -/

/-- A repair source's report: the logical cell and a physical cell (R345). -/
def State.repReport (s : State) (source lid pcell : Nat) : State :=
  s.raise source masterDma accToken (BitVec.ofNat 32 lid) (BitVec.ofNat 32 pcell)

/-- A cell is skipped, or its test is abandoned: REP_ROLLST.skips rises and ROLL_SKIP is reported. -/
def State.rollSkip (s : State) (lid : Nat) : State :=
  let s := { s with rep := { s.rep with skips := sat 255 (s.rep.skips + 1) } }
  s.repReport srcRollSkip lid ((s.placeOf lid).getD 0)

/-- A logical cell may take its turn (R338, R341): it is placed in a partition of the regime, whose
partition is not halted. -/
def State.rollable (s : State) (sched : Bool) (lid : Nat) : Bool :=
  (s.placeOf lid).isSome && !s.cellGone lid && (match s.partOf lid with
    | some p => (s.partition p).sched == sched && !s.partHalted p
    | none => false)

/-- The next logical cell in ascending order after the last one taken. -/
def State.nextRoll (s : State) (sched : Bool) (last : Option Nat) : Option Nat :=
  let all := (upTo s.variant.lcells).filter (s.rollable sched)
  match last with
  | none => all.head?
  | some l => match all.find? (fun x => decide (l < x)) with
    | some x => some x
    | none => all.head?

/-- A relocation is over (phase 0): the drain at the dispatcher ends, so that the cell is available again (R172), and clouds
that it kept powered may return to OFF (R339 step 6, R258). -/
def State.endRoll (s : State) : State :=
  let a := s.rep.old / 16
  let b := s.rep.sub / 16
  let s := { s with
    rep := { s.rep with phase := .idle, shadow := false, back := false, waited := 0 }
    dsp := { s.dsp with drain := s.dsp.drain.filter (· ≠ s.rep.lid) } }
  let free (s : State) (c : Nat) : State :=
    if (s.cloud c).state = .drain ∧ (s.cloud c).cause = some .move then s.toRun c else s.onRun c
  (free (free s a) b).tryAll

/-! ### The start (R338, R339 step 1, R341) -/

/-- A relocation of a logical cell starts, or is skipped or refused. -/
def State.beginRoll (s : State) (lid : Nat) (shadow : Bool) : State :=
  match s.placeOf lid with
  | none => s
  | some a =>
    if shadow ∧ tget (fun _ => 0) s.rep.quiet lid < 40 then s.rollSkip lid
    else match s.spareCells.head? with
      | none => s.rollSkip lid
      | some b =>
        if ¬ s.moveAllowed lid b then (s.noteMove lid b).repReport srcRepRefused lid b
        else
          let s := { s.noteMove lid b with
            rep := { s.rep with
              phase := .drain, lid := lid, old := a, sub := b, shadow := shadow, back := false
              waited := 0 }
            dsp := { s.dsp with
              drain := if shadow ∨ lid ∈ s.dsp.drain then s.dsp.drain else s.dsp.drain ++ [lid] } }
          (s.powerUp (b / 16)).wakeCloud (a / 16)

/-- ROLL_START (R338, R341): a period is over; the next Dynamic cell is due, and after it the next
Scheduled one. -/
def execRollStart (s : State) : Out :=
  .next <|
    let roll := s.regF aRepCtrl 0 0 = 1
    let shadow := s.regF aRepCtrl 1 1 = 1
    if ¬ s.running ∨ s.rep.phase ≠ .idle then s
    else if shadow ∧ (s.rep.turn ∨ ¬ roll) then
      let s := { s with rep := { s.rep with turn := false } }
      match s.nextRoll true s.rep.lastShadow with
      | none => s
      | some lid => ({ s with rep := { s.rep with lastShadow := some lid } }).beginRoll lid true
    else if roll then
      let s := { s with rep := { s.rep with turn := shadow } }
      match s.nextRoll false s.rep.lastLid with
      | none => s
      | some lid => ({ s with rep := { s.rep with lastLid := some lid } }).beginRoll lid false
    else s

/-- ROLL_DRAIN_DONE (R339 step 2): the live count has reached 0 and the substitute's cloud runs. -/
def execRollDrainDone (s : State) : Out :=
  .next <|
    if s.rep.phase = .drain ∧ ¬ s.rep.shadow ∧ s.liveCount s.rep.lid = 0
        ∧ (s.cloud (s.rep.sub / 16)).state = .run ∧ (s.cloud (s.rep.old / 16)).state = .run then
      { s with rep := { s.rep with phase := .copy } }
    else s

/-- ROLL_DRAIN_TIMEOUT (R339): the live count has not reached 0 within REP_ROLL.dmax. -/
def execRollDrainTimeout (s : State) : Out :=
  .next <|
    if s.rep.phase = .drain ∧ ¬ s.rep.shadow ∧ s.liveCount s.rep.lid ≠ 0 then
      (s.rollSkip s.rep.lid).endRoll
    else s

/-! ### The copy and the moves (R339 steps 2 and 3) -/

/-- The physical cell that a relocation leaves, and the one that it goes to. -/
def State.rollFrom (s : State) : Nat := if s.rep.back then s.rep.sub else s.rep.old
def State.rollTo (s : State) : Nat := if s.rep.back then s.rep.old else s.rep.sub

/-- Both clouds of the relocation drain for the switch of a logical id (R252). -/
def State.drainBoth (s : State) : State :=
  (s.startDrain (s.rep.old / 16) .move).startDrain (s.rep.sub / 16) .move

/-- Both clouds have completed their drain (R252 step 4). -/
def State.bothDrained (s : State) : Bool :=
  [s.rep.old / 16, s.rep.sub / 16].all fun c =>
    decide ((s.cloud c).state = .drain ∧ (s.cloud c).cause = some .move) && (s.cloud c).drained

/-- The copy of the instruction store, the head bits, the globals and the reserved granules. -/
def Cell.copyBlocks (to_ from_ : Cell) (granules : Nat) : Cell :=
  let n := granules * 256
  { to_ with
    istore := from_.istore
    globals := from_.globals
    frame := mwrite (mclear to_.frame 0 n) 0 (mread from_.frame 0 n) }

/-- ROLL_COPY_DONE (R339 step 3): the blocks are copied and both clouds drain. -/
def execRollCopyDone (s : State) : Out :=
  .next <|
    if s.rep.phase = .copy ∧ ¬ s.rep.shadow then
      let a := s.cell s.rep.old
      let s := s.modCell s.rep.sub (fun c => c.copyBlocks a (s.reserved s.rep.lid))
      let s := (s.carryPoison (1024 + s.rep.old) (1024 + s.rep.sub) 8192).carryPoison (32 + s.rep.old) (32 + s.rep.sub)
        (s.reserved s.rep.lid * 64)
      { s with rep := { s.rep with phase := .switch } }.drainBoth
    else s

/-- A move of the relocation may be made: both clouds are drained, and the cell is quiet. -/
def State.moving (s : State) (old new : Nat) : Bool :=
  let c := s.cell s.rollFrom
  (decide (s.rep.phase = .switch) || decide (s.rep.phase = .return_)) && !s.rep.shadow
    && decide (old = s.rollFrom) && decide (new = s.rollTo) && s.bothDrained
    && c.inQ.isEmpty && c.schedQ.isEmpty && c.readyQ.isEmpty && c.preQ.isEmpty && c.sweep.isNone
    && c.purges.isEmpty && c.boostQ.isEmpty && c.prefetchIn.isNone && c.respQ.isEmpty

/-- The latest message of R274 is answered. -/
def State.replyTo (s : State) (status : Byte) (data : List Byte) : State :=
  { s with mem := { s.mem with reply := (status, data) } }

/-- MOVE_ENTRY (R274): an entry of the store, with its latch and past bits, moves to the same way. -/
def execMoveEntry (old new index : Nat) (s : State) : Out :=
  unitOk s (old < s.variant.pcells ∧ new < s.variant.pcells) <|
    if ¬ s.moving old new then s
    else match tfind (s.cell old).store index with
      | none => s
      | some e =>
        ((s.modCell old (fun c => { c with store := terase c.store index })).modCell new
          (fun c => { c with store := tins c.store index e })).replyTo 0 []

/-- MOVE_SPILL (R72, R73): an entry of the logical cell at level 2 or 3 moves to the new cloud's tables, and
its index stays; a level-2 entry that frees takes a token from level 3. -/
def execMoveSpill (lid level index : Nat) (s : State) : Out :=
  let a := s.rollFrom / 16
  let b := s.rollTo / 16
  .next <|
    if ¬ (s.moving s.rollFrom s.rollTo ∧ lid = s.rep.lid ∧ a ≠ b) then s
    else
      let q : SpillPos := { level3 := level = 3, index }
      match (s.cloud a).entryAt q with
      | none => s
      | some e =>
        if e.tok.cell.toNat ≠ s.workId lid then s
        else
          let s := s.modCloud a (fun k => k.clearAt q)
          let s := if q.level3 then s else s.moveUp a q.index
          (if level = 3 ∧ s.l3On b then s.pushDown b e else (s.enterL2 b e).1).replyTo 0 []

/-- The entries of a list from one place on are replaced by those of another, so many at a time. -/
def spliceAt {α : Type} (to_ from_ : List α) (at_ n : Nat) : List α :=
  to_.take at_ ++ (from_.drop at_).take n ++ to_.drop (at_ + n)

/-- The keys of a table from one place on take the values of another table, so many at a time. -/
def spliceTable {α : Type} (to_ from_ : Table α) (at_ n : Nat) : Table α :=
  to_.filter (fun e => e.1 < at_) ++ from_.filter (fun e => at_ ≤ e.1 ∧ e.1 < at_ + n)
    ++ to_.filter (fun e => at_ + n ≤ e.1)

/-- A 64-byte block of a part of a cell's state is copied: 32 spill counters, 256 policies, 8 held locks
or 4 directory entries, or the slot engine or the globals with the block at offset 0. -/
def Cell.copyPart (to_ from_ : Cell) (part off : Nat) : Cell :=
  match part with
  | 0 => { to_ with spillCnt := spliceTable to_.spillCnt from_.spillCnt (off / 2) 32 }
  | 1 => { to_ with latePol := spliceTable to_.latePol from_.latePol (off * 4) 256 }
  | 2 => { to_ with held := spliceAt to_.held from_.held (off / 8) 8 }
  | 3 => { to_ with dir := spliceAt to_.dir from_.dir (off / 16) 4 }
  | 4 => if off = 0 then { to_ with engine := from_.engine } else to_
  | 5 => if off = 0 then { to_ with globals := from_.globals } else to_
  | _ => to_

/-- MOVE_STATE (R274): a part of the cell's state moves in 64-byte blocks; parts 6 to 15 are answered with
ACCESS. -/
def execMoveState (old new part off : Nat) (s : State) : Out :=
  unitOk s (old < s.variant.pcells ∧ new < s.variant.pcells) <|
    if ¬ s.moving old new ∨ off % 64 ≠ 0 then s
    else if 5 < part then s.replyTo 0x10 []
    else
      let a := s.cell old
      (s.modCell new (fun c => c.copyPart a part off)).replyTo 0 []

/-- Every part of the cell's state has moved. -/
def State.allMoved (s : State) (old new : Nat) : Bool :=
  let a := s.cell old
  let b := s.cell new
  let k := s.cloud (old / 16)
  let mine := fun (e : Nat × Entry) => decide (e.2.tok.cell.toNat = s.workId s.rep.lid)
  a.store.isEmpty && decide (a.spillCnt = b.spillCnt) && decide (a.latePol = b.latePol)
    && decide (a.held = b.held) && decide (a.dir = b.dir) && decide (a.engine = b.engine)
    && decide (a.globals = b.globals)
    && (decide (old / 16 = new / 16) || !(k.l2.any mine || k.l3.any mine))

/-- A waiting packet for a half of a pair, or for a cell, is sent to where the logical cell now lies: a token, or a mirror
record to a checker (R342). -/
def Packet.moveTo (p : Packet) (lid old new : Nat) : Packet :=
  let there := { p with dcloud := BitVec.ofNat 5 (new / 16), dcell := BitVec.ofNat 4 (new % 16) }
  match p.cargo, p.token? with
  | .paired q, none =>
    if q.mirror.isSome ∧ p.dcloud.toNat * 16 + p.dcell.toNat = old then there else p
  | _, some t =>
    if (p.vc = .t ∨ p.vc = .s) ∧ t.cell.toNat = lid ∧ p.dcloud.toNat = old / 16
        ∧ (p.dcell.toNat = old % 16 ∨ p.sender ≠ 0x3FF) then there
    else p
  | _, none => p

/-- A packet that an ingress agent holds in its node's buffers before the old cloud's bridge is handed to the agent of the
cloud where its logical cell now lies; every packet that was launched before and is still on its way keeps its route
(R252), and that cloud's agent hands it on when it comes (R232). -/
def Packet.handOn (p : Packet) (lid old new : Nat) : Packet :=
  if p.towards = some (old / 16) ∧ p.moveTo lid old new ≠ p then
    { p.moveTo lid old new with place := .level1 (level1Of (new / 16)), la := 1 + new / 16 % 3 }
  else p

/-- The waiting packets for a logical cell take the new route map (R232): those at cells, at egress agents and at the root;
and those that the old cloud's ingress agent holds go to the new cloud's, each with the credit that it came under (R238). -/
def State.readdress (s : State) (lid old new : Nat) : State :=
  let m := fun (p : Packet) => p.moveTo lid old new
  let s := s.mapCells (fun _ c => { c with outQ := c.outQ.map m })
  let s := s.mapClouds (fun _ k => { k with egressB := k.egressB.map m })
  let s := { s with jet := { s.jet with
    rootOut := s.jet.rootOut.map m, flight := s.jet.flight.map (fun p : Packet => p.handOn lid old new) } }
  if old / 16 = new / 16 then
    s.modCloud (old / 16) (fun k => { k with ingressB := k.ingressB.map m })
  else
    let held := (s.cloud (old / 16)).ingressB
    let moves := held.filter (fun p => m p ≠ p)
    let s := s.modCloud (old / 16) (fun k => { k with ingressB := held.filter (fun p => m p = p) })
    moves.foldl (fun s p => s.holdIngress (new / 16) (m p)) s

/-- A packet of a cell's output queue, once its cell lies elsewhere. -/
def Packet.rehome (p : Packet) (pcell : Nat) : Packet :=
  { p with place := .router (pcell / 16) (pcell % 16), sender := pcell }

/-- The switch of a logical id from one physical cell to another (R36): all route maps and CLD_CELL change
in this step, and the cell that the id has left is stopped. -/
def State.switchCell (s : State) (lid old new : Nat) : State :=
  let a := s.cell old
  let s := s.place lid new
  let s := s.modCell new (fun c => { c with
    boosts := a.boosts, outQ := a.outQ.map (fun p => p.rehome new), stopped := false })
  let s := s.modCell old (fun c => { Cell.idle with
    istore := c.istore, frame := c.frame, latePol := c.latePol, lateDrops := c.lateDrops, nextUid := c.nextUid })
  let cnt := (s.cloud (old / 16)).left.filter (fun e => e.1 / 256 = old % 16)
  let s := s.modCloud (old / 16) (fun k => { k with left := k.left.filter (fun e => e.1 / 256 ≠ old % 16) })
  let s := cnt.foldl (fun s e => s.modCloud (new / 16) (fun k => { k with
    left := tset (fun _ => 0) k.left (new % 16 * 256 + e.1 % 256) e.2 })) s
  s.readdress (s.workId lid) old new

/-- Both clouds of the relocation leave DRAIN (R252 step 5). -/
def State.runBoth (s : State) : State :=
  let s := s.toRun (s.rep.old / 16)
  if s.rep.sub / 16 = s.rep.old / 16 then s else s.toRun (s.rep.sub / 16)

/-- MOVE_DONE (R274, R339): everything has moved, and the switch of R36 follows; the cell's self-test
begins, or the relocation is over. -/
def execMoveDone (old new : Nat) (s : State) : Out :=
  unitOk s (old < s.variant.pcells ∧ new < s.variant.pcells) <|
    if ¬ (s.moving old new ∧ s.allMoved old new) then s
    else
      let back := s.rep.back
      let s := (s.switchCell s.rep.lid old new).replyTo 0 []
      if back then s.runBoth.endRoll
      else { s with rep := { s.rep with phase := .test } }.runBoth

/-! ### The test (R339 step 4, R340, R342 step 4) -/

/-- The failing bits belong to a macro of the cell (R298). -/
def ofCell (pcell : Nat) (f : MacroFail) : Bool := decide (f.macroId / 4 = pcell)

/-- A cell is mapped out while running: it is failed, the failure is logged with kind 3 and origin 1, and REP_ROLL_FAIL is
reported; BIST_CELL too where logic self-test failed (R340, R345). -/
def State.rollFail (s : State) (logic : Bool) : State :=
  let a := s.rep.old
  let s := { s with rep := { s.rep with
    failed := if a ∈ s.rep.failed then s.rep.failed else s.rep.failed ++ [a] } }
  let s := s.logRepair 3 a 0 0 1 0
  let s := if logic
    then s.raise srcBistCell (cellMaster a) accToken (BitVec.ofNat 32 s.rep.lid) (BitVec.ofNat 32 a) else s
  (s.repReport srcRepRollFail s.rep.lid a).endRoll

/-- ROLL_TEST_DONE (R339 step 5, R340): the repairs are applied and logged; a cell that passed returns, and
one that failed stays on its substitute. -/
def execRollTestDone (passed : Bool) (macros : List MacroFail) (s : State) : Out :=
  .next <|
    if s.rep.phase ≠ .test then s
    else
      let mine := macros.filter (ofCell s.rep.old)
      let bad := ¬ passed ∨ mine.any s.exceeds
      let s := mine.foldl (fun s f => s.mendMacro f 1) s
      if bad then s.rollFail (!passed)
      else if s.rep.shadow then
        { s with rep := { s.rep with phase := .drain, back := true, waited := 0 } }
      else
        { s with rep := { s.rep with phase := .return_, back := true } }.drainBoth

/-! ### The shadow swap (R342) -/

/-- No strand of the cell runs or is suspended, and no request of it is outstanding. -/
def Cell.still (c : Cell) : Bool :=
  c.strands.isEmpty && c.tags.isEmpty && c.reqQ.isEmpty && c.houseQ.isEmpty

/-- QUIET_SPAN_START (R342 step 1): at the quiet span of the armed frame the swap begins, moves to the next
frame, or is abandoned after 16. -/
def execQuietSpanStart (s : State) : Out :=
  .next <|
    if ¬ (s.rep.phase = .drain ∧ s.rep.shadow) then s
    else if ¬ s.moveAllowed s.rep.lid s.rollTo then
      ((s.noteMove s.rep.lid s.rollTo).repReport srcRepRefused s.rep.lid s.rollTo).endRoll
    else if (s.cell s.rollFrom).still ∧ (s.cloud (s.rep.old / 16)).state = .run
        ∧ (s.cloud (s.rep.sub / 16)).state = .run then
      { s.noteMove s.rep.lid s.rollTo with rep := { s.rep with phase := .copy } }.drainBoth
    else if 15 ≤ s.rep.waited then ((s.noteMove s.rep.lid s.rollTo).rollSkip s.rep.lid).endRoll
    else { s.noteMove s.rep.lid s.rollTo with rep := { s.rep with waited := s.rep.waited + 1 } }

/-- A token or mirror record for the logical cell is on its way to it (R342 step 2); what its cloud's ingress agent holds
before the bridge has not to arrive. -/
def State.inFlightFor (s : State) (lid pcell : Nat) : Bool :=
  s.jet.flight.any fun p => s.isFor lid p && decide (p.dcloud.toNat = pcell / 16) && decide (p.towards ≠ some (pcell / 16))

/-- SHADOW_COPY_DONE (R342 steps 2 and 3): the tokens in flight have arrived, everything is copied, and the
route maps, CLD_CELL and the station's delivery addresses switch in this step. -/
def execShadowCopyDone (s : State) : Out :=
  .next <|
    let a := s.rollFrom
    let b := s.rollTo
    if ¬ (s.rep.phase = .copy ∧ s.rep.shadow ∧ s.bothDrained ∧ (s.cell a).still
        ∧ ¬ s.inFlightFor s.rep.lid a) then s
    else
      let c := s.cell a
      let s := s.setCell b { c with viewStore := [], viewSlots := [], viewWhen := 0 }
      let s := s.switchCell s.rep.lid a b
      let s := (s.carryPoison (1024 + a) (1024 + b) 8192).carryPoison (32 + a) (32 + b) 16384
      let s := s.writeBudgets.recordMargins
      let back := s.rep.back
      if back then s.runBoth.endRoll
      else { s with rep := { s.rep with phase := .test } }.runBoth

/-! ### What ends a relocation early (R343) -/

/-- The relocation stops where it is: its cloud drains end and the drain at the dispatcher is cleared. -/
def State.abandonRoll (s : State) : State :=
  if s.rep.phase = .idle then s else s.endRoll

/-- Physical cells are fenced while a relocation uses them (R343): before the switch the relocation is
abandoned; a fence of the cell under test counts as its failure. -/
def State.rollFenced (s : State) (hit : Nat → Bool) : State :=
  if s.rep.phase = .idle ∨ ¬ (hit s.rep.old ∨ hit s.rep.sub) then s
  else if s.rep.phase = .test ∧ hit s.rep.old then s.rollFail false
  else s.endRoll

end Sys2Proof.Machine
end

