-- ==== Sys2Proof/Machine/Sequencer.lean ====
section
/-! DEFINITION. The Scheduled regime (R195 to R225): frames and slots, samples, the slot engines with
their admissions and misses, the mirror records of pairs, frame boundaries and swaps. -/

namespace Sys2Proof.Machine

/-! ### Frames and slots (R195 to R197) -/

/-- The slot length of a partition in ns (R200). -/
def State.slotLen (s : State) (p : Nat) : Nat :=
  match s.regF (aSeqPcfg p) 9 8 with
  | 0 => 100
  | 1 => 200
  | _ => 500

/-- Slots of a frame. -/
def State.slots (s : State) (p : Nat) : Nat := s.regF (aSeqPcfg p) 31 16 + 1

/-- The line time at which a slot of a frame begins (R195). -/
def State.slotStart (s : State) (p : Nat) (frame : Int) (slot : Nat) : Int :=
  s.regF (aSeqPhase p) 31 0 + frame * s.frameLen p + slot * s.slotLen p

/-- The number of the frame at zenith's count (R196). -/
def State.frameNow (s : State) (p : Nat) : Int :=
  ((s.zen.count : Int) - s.regF (aSeqPhase p) 31 0) / s.frameLen p

/-- The iteration of a firing or a sample (R197). -/
def iterOf (frame : Int) (ioff : Nat) : BitVec 16 := BitVec.ofInt 16 (frame % 256 * 256 + ioff)

/-- A partition fires (R219, R221, R225): the sequencer is not stopped, and the partition runs or is
armed. -/
def State.firing (s : State) (p : Nat) : Bool :=
  s.running && match (s.part p).state with
  | .run | .armed => true
  | _ => false

/-! ### Samples (R214) -/

/-- Byte address of a partition's root-table bank (SEQ_RTBASE). -/
def State.rootBase (s : State) (p : Nat) (bankB : Bool) : Nat :=
  s.regF aSeqRtbase 11 0 * 1024 + (2 * p + b2n bankB) * 8192

/-- A root entry as 128 bits (R204). -/
def State.rootEntry (s : State) (p : Nat) (bankB : Bool) (i : Nat) : Nat :=
  leNat (mread s.mem.glob (s.rootBase p bankB + i * 16) 16)

/-- The root entries of a slot in the active bank, in table order. -/
def State.slotRoots (s : State) (p slot : Nat) : List Nat :=
  let q := s.part p
  ((upTo (if q.bankB then q.nrootB else q.nrootA)).map (s.rootEntry p q.bankB)).filter
    (fun e => bitsOf e 15 0 = slot)

/-- The sample token of a root entry (R214). -/
def State.sampleToken (s : State) (p : Nat) (frame : Int) (e : Nat) : Token :=
  { value := tget (fun _ => 0) s.fio.samples (bitsOf e 22 16)
    stamp := BitVec.ofInt 32 (s.slotStart p frame (bitsOf e 15 0) / 16)
    flow := BitVec.ofNat 12 (bitsOf e 43 32), iteration := iterOf frame (bitsOf e 51 44)
    addr := BitVec.ofNat 14 (bitsOf e 77 64), port := BitVec.ofNat 2 (bitsOf e 79 78)
    cell := BitVec.ofNat 8 (bitsOf e 87 80), cls := 1, pair := false, replay := false
    spilled := false, late := false, ordered := false, fmt := 3 }

/-- SEQ_SLOT_START (R214): the field I/O latches the sample word of every source that the slot's root
entries name, each once, and the sequencer sends a sample token for each entry, on S. -/
def execSeqSlotStart (part : Nat) (s : State) : Out :=
  let q := s.part part
  unitOk s (part < 8) <|
    if ¬ s.firing part ∨ s.slots part ≤ q.slot ∨ (s.zen.count : Int) < s.slotStart part q.frame q.slot
    then s
    else
      let es := s.slotRoots part q.slot
      let s := ((es.map (fun e => bitsOf e 22 16)).dedup).foldl (fun s src => s.latchSample src) s
      let s := es.foldl (fun s e =>
        let t := s.sampleToken part q.frame e
        s.sendToLid t.cell.toNat .s (.token t)) s
      s.modPart part (fun q => { q with slot := q.slot + 1 })

/-! ### Entries of a slot table (R203, R208, R211, R212) -/

/-- What a slot entry asks of one entry of its pair of store entries. -/
structure SlotNeed where
  /-- The index of the store entry, 2m or 2m + 1. -/
  index : Nat
  /-- The port that the operand must have; none when the entry does not use this store entry. -/
  port  : Option (BitVec 2)
  deriving DecidableEq, Repr

/-- The operands of a slot entry, by opnd (R211). -/
def needs (m opnd : Nat) : SlotNeed × SlotNeed :=
  match opnd with
  | 0 => (⟨2 * m, none⟩, ⟨2 * m + 1, none⟩)
  | 1 => (⟨2 * m, some 0⟩, ⟨2 * m + 1, none⟩)
  | 2 => (⟨2 * m, some 1⟩, ⟨2 * m + 1, some 2⟩)
  | _ => (⟨2 * m, some 1⟩, ⟨2 * m + 1, some 3⟩)

/-- The occupant of a store entry is the operand that an entry asks for (R211): the port and the key, or
for a latch the flow and addr. -/
def SlotNeed.met (n : SlotNeed) (flow : BitVec 12) (iteration : BitVec 16) (addr : BitVec 14)
    (o : Option Entry) : Bool :=
  match n.port, o with
  | some p, some e => e.tok.port = p && e.tok.flow = flow && e.tok.addr = addr
      && (e.latch || e.tok.iteration = iteration)
  | _, _ => false

/-- What becomes of an entry. -/
inductive SlotOutcome where
  | admitted | substituted | skipped | fault
  deriving DecidableEq, Repr

/-- The code of an outcome (R318). -/
def SlotOutcome.code : SlotOutcome → BitVec 2
  | .admitted => 0 | .substituted => 1 | .skipped => 2 | .fault => 3

/-- The outcome that a mirror record names (R318). -/
def SlotOutcome.ofCode (c : BitVec 2) : SlotOutcome :=
  if c = 0 then .admitted else if c = 1 then .substituted else if c = 2 then .skipped else .fault

/-- A slot entry as it is processed: its bits, the slot's start, and the frame number. -/
structure Slotting where
  bits  : Nat
  index : Nat
  start : Nat
  frame : Word
  deriving DecidableEq, Repr

/-- Flow, addr and iteration of an entry (R197, R203). -/
def Slotting.flow (e : Slotting) : BitVec 12 := BitVec.ofNat 12 (bitsOf e.bits 43 32)
def Slotting.addr (e : Slotting) : BitVec 14 := BitVec.ofNat 14 (bitsOf e.bits 29 16)
def Slotting.iteration (e : Slotting) : BitVec 16 := iterOf e.frame.toNat (bitsOf e.bits 51 44)
/-- The slot of an entry. -/
def Slotting.slot (e : Slotting) : Nat := bitsOf e.bits 15 0
/-- The operands of an entry. -/
def Slotting.needs (e : Slotting) : SlotNeed × SlotNeed :=
  Sys2Proof.Machine.needs (bitsOf e.bits 25 16) (bitsOf e.bits 31 30)

/-- An operand of an entry is in the store of a cell. -/
def Slotting.has (e : Slotting) (c : Cell) (n : SlotNeed) : Bool :=
  n.met e.flow e.iteration e.addr (tfind c.store n.index)

/-- A report about an entry (R225). -/
def State.slotFault (s : State) (source : Nat) (master : BitVec 10) (e : Slotting) : State :=
  s.raise source master accToken (keyAddr e.flow e.addr)
    (BitVec.ofNat 32 (e.slot % 65536 + e.iteration.toNat * 65536))

/-- The activation of an entry (R211, R212). A missing operand takes its port's last good value. The stamp is a present token's;
a latch does not count as one, so that a firing on a latch alone has the slot's start time (DESIGN CHOICE: log entry 156). -/
def Slotting.activation (e : Slotting) (c : Cell) (fseq : BitVec 20) (has0 has1 late : Bool) :
    Activation :=
  let (n0, n1) := e.needs
  let start := BitVec.ofNat 32 (e.start / 16)
  let base : Activation :=
    { w0 := 0, w1 := 0, stamp := start, flow := e.flow, iteration := e.iteration, addr := e.addr
      cls := 1, late, ordered := false, pair := false, replay := false, fseq, trap := false }
  let tok (n : SlotNeed) (has : Bool) : Option Token :=
    if has then (tfind c.store n.index).map (·.tok) else none
  let value (n : SlotNeed) (has : Bool) : Word :=
    match n.port, tok n has with
    | none, _ => 0
    | some _, some t => t.value
    | some _, none => tget (fun _ => 0) c.engine.good n.index
  let formed : Activation :=
    match tok n0 has0, tok n1 has1 with
    | some l, some r => if r.port = 3 then latchAct l r else pairAct l r
    | some l, none => monoAct l
    | none, some r => if r.port = 3 then base else monoAct r
    | none, none => base
  if n0.port.isNone then
    { base with w0 := BitVec.ofNat 32 e.start, w1 := e.frame }
  else
    { formed with
      w0 := value n0 has0, w1 := value n1 has1, addr := e.addr, late := late || formed.late, fseq }

/-- The last good values after operands were taken (R211). -/
def Slotting.keepGood (e : Slotting) (c : Cell) (has0 has1 : Bool) : Cell :=
  let (n0, n1) := e.needs
  let keep (n : SlotNeed) (has : Bool) (g : Table Word) : Table Word :=
    if has then match tfind c.store n.index with
      | some x => tset (fun _ => 0) g n.index x.tok.value
      | none => g
    else g
  { c with engine := { c.engine with good := keep n1 has1 (keep n0 has0 c.engine.good) } }

/-- A token that an entry took leaves the store; a latch stays (R211). -/
def State.takeOperand (s : State) (pcell : Nat) (n : SlotNeed) (has : Bool) : State :=
  if has ∧ n.port ≠ some 3 then s.dropEntry pcell n.index else s

/-- One store entry at a miss (R212): the operand in use leaves, as ORPHAN where nothing fires; a token
of another key or of an unused port is discarded with SCHED_TAG. In a checker an operand that the record
marks absent stays (R319). -/
def State.missOperand (s : State) (pcell : Nat) (e : Slotting) (n : SlotNeed) (has : Bool)
    (orphan : Bool) : State :=
  match tfind (s.cell pcell).store n.index with
  | none => s
  | some x =>
    if x.latch then s
    else if n.met e.flow e.iteration e.addr (some x) then
      if ¬ has then s
      else
        let s := s.dropEntry pcell n.index
        if orphan then s.tokenFault srcOrphan pcell x.tok else s
    else (s.dropEntry pcell n.index).schedTag pcell x.tok e.slot

/-- mcount is written back to the entry in its bank (R203). -/
def Slotting.putCount (e : Slotting) (c : Cell) (n : Nat) : Cell :=
  let bits := e.bits - bitsOf e.bits 55 54 * 2 ^ 54 + n % 4 * 2 ^ 54
  { c with frame := mwrite c.frame (bankWord c.engine.bankB * 4 + e.index * 8) (leBytes 8 bits) }

/-- An outcome is applied to an entry of a cell (R211, R212): the store, the last good values and
mcount change, and the activation enters the ready queue where one fires. -/
def State.applyEntry (s : State) (pcell : Nat) (e : Slotting) (o : SlotOutcome) (fseq : BitVec 20)
    (has0 has1 : Bool) (mcount : Nat) : State :=
  let c := s.cell pcell
  let (n0, n1) := e.needs
  let late := decide (o = .substituted)
  let act := e.activation c fseq has0 has1 late
  let s := s.modCell pcell (fun c => e.putCount c mcount)
  match o with
  | .admitted =>
    let s := s.modCell pcell (fun c => e.keepGood c has0 has1)
    (((s.takeOperand pcell n0 has0).takeOperand pcell n1 has1)).fire pcell act
  | .substituted =>
    ((s.missOperand pcell e n0 has0 false).missOperand pcell e n1 has1 false).fire pcell act
  | .skipped | .fault =>
    (s.missOperand pcell e n0 has0 true).missOperand pcell e n1 has1 true

/-- The outcome of an entry and its mcount afterwards, by whether its requirement is met and by its miss
policy (R211, R212). -/
def Slotting.outcome (e : Slotting) (met : Bool) : SlotOutcome × Nat :=
  let n := bitsOf e.bits 55 54
  if met then (.admitted, 0)
  else match bitsOf e.bits 53 52 with
    | 0 => if n < 3 then (.substituted, n + 1) else (.fault, 3)
    | 1 => (.skipped, min 3 (n + 1))
    | _ => (.fault, n)

/-- The next entry of a slot engine, where its table has one. An entry whose valid bit is 0 in the image ends the table
(DESIGN CHOICE: log entry 155). -/
def Cell.nextEntry (c : Cell) : Option Nat :=
  let bits := c.slotEntry c.engine.bankB c.engine.pos
  if c.engine.pos < 1024 ∧ bitsOf bits 63 63 = 1 then some bits else none

/-- The mirror record of an entry that the main has processed goes to the station (R318). -/
def State.sendMirror (s : State) (pcell : Nat) (e : Slotting) (o : SlotOutcome) (fseq : BitVec 20)
    (has0 has1 : Bool) (mcount : Nat) : State :=
  match s.stationOf pcell with
  | none => s
  | some st =>
    let m : Mirror :=
      { k := e.frame, tstart := BitVec.ofNat 36 e.start, fseq, entry := BitVec.ofNat 10 e.index
        outcome := o.code, present := BitVec.ofNat 2 (b2n has0 + 2 * b2n has1)
        mcount := BitVec.ofNat 2 mcount }
    let p : PairPacket :=
      { fseq, n := 0, checker := false, kind := .mirror, pid := BitVec.ofNat 8 (s.idOf pcell)
        flow := e.flow, iteration := e.iteration, dcloud := 0, dcell := 0, vc := .s, msg := none
        mirror := some m, word := 0 }
    s.modCell pcell (fun c => { c with
      outQ := c.outQ ++ [cellPacket pcell (cloudStation, BitVec.ofNat 4 st) .s (.paired p)] })

/-- A slot engine processes its next entry, in the partition's frame (R211, R212, R213, R316, R318). -/
def State.admitEntry (s : State) (pcell part : Nat) (e : Slotting) : State :=
  let c := s.cell pcell
  let (n0, n1) := e.needs
  let has0 := e.has c n0
  let has1 := e.has c n1
  let met := (n0.port.isNone || has0) && (n1.port.isNone || has1)
    && decide (e.flow ∉ c.engine.trapped)
  let (o, mcount) := e.outcome met
  let fseq := c.engine.fseq
  let s := if met then s
    else (s.slotFault srcSchedLate (cellMaster pcell) e).bump (aSeqMiss part)
  let s := if o = .substituted then s.bump (aSeqSubst part) else s
  let s := if o = .fault then s.slotFault srcSchedLimit masterSequencer e else s
  let s := s.applyEntry pcell e o fseq has0 has1 mcount
  let s := s.modCell pcell (fun c => { c with engine := { c.engine with
    pos := c.engine.pos + 1, fseq := fseq + 1 } })
  s.sendMirror pcell e o fseq has0 has1 mcount

/-- SLOT_ADMIT (R211): the slot engine of a cell takes the next entry of its table once the entry's slot
has begun. A checker takes its entries from mirror records alone (R319); an engine whose ready queue is
full waits (R75). The cloud's replica of zenith's count, which R198 lets lie within 1 ns of it, is taken as the count itself
(DESIGN CHOICE: log entry 153). -/
def execSlotAdmit (pcell : Nat) (s : State) : Out :=
  unitOk s (pcell < s.variant.pcells) <|
    match s.partOfCell pcell, (s.cell pcell).nextEntry with
    | some p, some bits =>
      let start := s.slotStart p (s.part p).frame (bitsOf bits 15 0)
      if ¬ (s.partition p).sched ∨ ¬ s.firing p ∨ s.checks pcell ∨ ¬ s.cellRuns pcell
          ∨ (s.cell pcell).readyFull ∨ (s.zen.count : Int) < start then s
      else s.admitEntry pcell p
        { bits, index := (s.cell pcell).engine.pos, start := start.toNat
          frame := BitVec.ofInt 32 (s.part p).frame }
    | _, _ => s

/-! ### Swaps (R220 to R222) -/

/-- The header words of a staged schedule. -/
def SeqPart.stagedWord (q : SeqPart) (i : Nat) : Word := (q.staged.getD []).getD i 0

/-- The physical cells that hold the logical cells of a partition. -/
def State.cellsOf (s : State) (p : Nat) : List Nat :=
  (upTo s.variant.lcells).filterMap fun lid =>
    if s.partOf lid = some p then s.placeOf lid else none

/-- The cells of a partition are changed. -/
def State.modCells (s : State) (p : Nat) (f : Cell → Cell) : State :=
  (s.cellsOf p).foldl (fun s pc => s.modCell pc f) s

/-- An op of SEQ_SWAP completes with a status (SEQ_SWAP.done, SEQ_SWAP.status). -/
def State.swapDone (s : State) (p status : Nat) : State :=
  (s.setRegF (aSeqSwap p) 10 8 status).setRegF (aSeqSwap p) 15 15 1

/-- Why an arm is refused, by the code of SEQ_SWAP.status, or 0 (R220, R221, R222). -/
def State.armStatus (s : State) (p : Nat) (handover : Bool) (target : BitVec 16) : Nat :=
  let q := s.part p
  let gen := BitVec.ofNat 16 (s.regF (aSeqPstat p) 31 16)
  let d := (target - BitVec.ofInt 16 (s.frameNow p)).toNat
  if q.armed.isSome then 5
  else if q.staged.isNone then 1
  else if ¬ before16 gen (BitVec.ofNat 16 (fld (q.stagedWord 0) 15 0)) then 2
  else if handover ∧ fld (q.stagedWord 0) 31 16 ≠ gen.toNat then 3
  else if handover ∧ ¬ budgetsOk (s.budgetsOf (s.allPaths ++ q.stagedPaths)) then 4
  else if ¬ (2 ≤ d ∧ d ≤ 32767) then 5
  else 0

/-- An arm of a swap (R220, R221): the target frame, found by modular compare, and the bank go to every
slot engine of the partition. -/
def State.armSwap (s : State) (p : Nat) (handover : Bool) (target : BitVec 16) : State :=
  let s := s.setRegF (aSeqSwap p) 31 16 target.toNat
  match s.armStatus p handover target with
  | 0 =>
    let k := s.frameNow p
    let t := k + (target - BitVec.ofInt 16 k).toNat
    let s := s.modPart p (fun q => { q with
      armed := some { handover, target := t, begun := false }
      state := if q.state = .run then .armed else q.state })
    let s := s.modCells p (fun c => { c with engine := { c.engine with
      swapAt := some (BitVec.ofInt 32 (if handover then t else t + 1)) } })
    s.swapDone p 0
  | status => s.swapDone p status

/-- A cancel of a swap (R221). -/
def State.cancelSwap (s : State) (p : Nat) : State :=
  match (s.part p).armed with
  | none => s.swapDone p 0
  | some w =>
    if w.begun ∨ w.target ≤ s.frameNow p then s.swapDone p 5
    else
      let s := s.modPart p (fun q => { q with
        armed := none, state := if q.state = .armed then .run else q.state })
      (s.modCells p (fun c => { c with engine := { c.engine with swapAt := none } })).swapDone p 6

/-- ARM_HANDOVER (R221). -/
def execArmHandover (part : Nat) (target : BitVec 16) (s : State) : Out :=
  unitOk s (part < 8) <| if s.hostWrites (aSeqSwap part) then s.armSwap part true target else s

/-- ARM_GAP (R221). -/
def execArmGap (part : Nat) (target : BitVec 16) (s : State) : Out :=
  unitOk s (part < 8) <| if s.hostWrites (aSeqSwap part) then s.armSwap part false target else s

/-- CANCEL (R221). -/
def execCancel (part : Nat) (s : State) : Out :=
  unitOk s (part < 8) <| if s.hostWrites (aSeqSwap part) then s.cancelSwap part else s

/-- The new banks come into force (R221): the slot engines that make their own decisions change theirs;
a checker changes with the first mirror record of the target frame. The header's slots, slot length,
phase and margin come into force with them. -/
def State.flipBanks (s : State) (p : Nat) : State :=
  let q := s.part p
  let w1 := q.stagedWord 1
  let s := s.modPart p (fun q => { q with bankB := !q.bankB })
  let s := s.setReg (aSeqPcfg p) (BitVec.ofNat 32
    (fld w1 15 0 * 65536 + fld w1 17 16 * 256 + b2n (!q.bankB)))
  let s := s.setReg (aSeqPhase p) (q.stagedWord 2)
  let s := s.setRegF (aSeqMargin p) 15 0 (fld (q.stagedWord 3) 15 0)
  (s.cellsOf p).foldl (fun s pc =>
    if s.checks pc then s
    else s.modCell pc (fun c => { c with engine := { c.engine with
      bankB := !c.engine.bankB, swapAt := none } })) s

/-- The waiting tokens of a cell, but latches, are cleared, each reported as ORPHAN (R221 step 3'). -/
def State.clearWaiting (s : State) (pcell : Nat) : State :=
  ((s.cell pcell).store.filter (fun e => !e.2.latch)).foldl
    (fun s e => (s.dropEntry pcell e.1).tokenFault srcOrphan pcell e.2.tok) s

/-- A swap completes (R221 steps 3 and 3'): the new schedule's budgets and generation are in force. -/
def State.endSwap (s : State) (p : Nat) : State :=
  let gen := fld ((s.part p).stagedWord 0) 15 0
  let s := s.modPart p (fun q => { q with
    armed := none, staged := none, paths := q.stagedPaths, stagedPaths := []
    state := if q.state = .armed ∨ q.state = .gap then .run else q.state })
  (s.setRegF (aSeqPstat p) 31 16 gen).writeBudgets.recordMargins

/-- What the start of a frame does to an armed swap (R221). -/
def State.stepSwap (s : State) (p : Nat) (k : Int) : State :=
  match (s.part p).armed with
  | none => s
  | some w =>
    if w.begun then
      if w.handover then s.endSwap p
      else ((s.cellsOf p).foldl (fun s pc => s.clearWaiting pc) s).flipBanks p |>.endSwap p
    else if k < w.target then s
    else
      let s := s.modPart p (fun q => { q with armed := some { w with begun := true } })
      if w.handover then (s.flipBanks p).writeBudgets
      else s.modPart p (fun q => { q with
        state := if q.state = .armed then .gap else q.state })

/-! ### Frame boundaries (R213, R219) -/

/-- Every slot of the partition's frame has begun, and every slot engine that decides has taken its
entries (R199). -/
def State.frameDone (s : State) (p : Nat) : Bool :=
  decide (s.slots p ≤ (s.part p).slot) && (s.cellsOf p).all (fun pc =>
    s.checks pc || !s.cellRuns pc || (s.cell pc).nextEntry.isNone)

/-- The frame that the partition enters next: the one after the running one, or while nothing fires the
frame of the count, or the frame in which a waiting partition fires again (R196, R219). -/
def State.nextFrame (s : State) (p : Nat) : Int :=
  let q := s.part p
  if s.firing p then q.frame + 1
  else
    let k := s.frameNow p
    let first := s.firstFrame p q.resumeAt
    let k := if q.state = .wait ∧ first ≤ k then first else k
    match q.armed with
    | some w => if w.begun then q.frame + 1 else if w.target ≤ k then w.target else k
    | none => k

/-- A cell at a frame boundary: its trapped flows are LIVE again, and its table starts over (R213). -/
def Cell.newFrame (c : Cell) (checker : Bool) : Cell :=
  let c := { c with engine := { c.engine with
    trapped := [], pos := if checker then c.engine.pos else 0 } }
  (upTo c.dir.length).foldl (fun c i =>
    match c.dir[i]? with
    | some e => if e.scheduled ∧ e.state = .trapped
        then c.modDir i (fun e => { e with state := .live }) else c
    | none => c) c

/-- A waiting partition fires from the first boundary that is late enough (R219). -/
def State.wakePart (s : State) (p : Nat) (start : Int) : State :=
  s.modPart p (fun q =>
    if q.state = .wait ∧ (q.resumeAt : Int) ≤ start then
      { q with state := match q.armed with
          | some w => if w.begun && !w.handover then .gap else .armed
          | none => .run }
    else q)

/-- A halt takes effect (R219, R487). -/
def State.haltNow (s : State) (p : Nat) : State :=
  if (s.part p).haltAsk then
    let s := s.modPart p (fun q => { q with
      haltAsk := false, state := if q.state = .faulted then .faulted else .halted })
    ({ s with mode := { s.mode with halted := s.mode.halted ||| (1 : BitVec 8) <<< p } }).settle
  else s

/-- A partition enters a frame. -/
def State.enterFrame (s : State) (p : Nat) (k : Int) : State :=
  let start := s.slotStart p k 0
  let s := (s.cellsOf p).foldl (fun s pc =>
    s.modCell pc (fun c => c.newFrame (s.checks pc))) s
  let s := s.stepSwap p k
  let s := (s.wakePart p start).haltNow p
  s.modPart p (fun q => { q with frame := s.firstFrame p start, slot := 0 })

/-- FRAME_BOUNDARY (R221): at the start of the next frame swaps, halts, resumption and the recovery of
trapped flows take effect. -/
def execFrameBoundary (part : Nat) (s : State) : Out :=
  let k := s.nextFrame part
  unitOk s (part < 8) <|
    if ¬ s.running ∨ (s.part part).state = .idle ∨ k = (s.part part).frame
        ∨ (s.zen.count : Int) < s.slotStart part k 0 ∨ (s.firing part ∧ ¬ s.frameDone part) then s
    else s.enterFrame part k

/-! ### Checkers (R319) -/

/-- The pair registers' state field of a pair (PAIR_PAIR.state). -/
def State.pairState (s : State) (station j : Nat) : Nat := s.regF (aPairPair station j) 14 12

/-- A pair that runs enters MISMATCH (R324). -/
def State.pairMismatch (s : State) (station j : Nat) : State :=
  if s.pairState station j = 1 then s.setRegF (aPairPair station j) 14 12 2 else s

/-- A report of a station about a pair (R345). -/
def State.pairReport (s : State) (source station pid : Nat) (fseq : BitVec 20) (n : BitVec 8) :
    State :=
  s.raise source masterDma accToken (BitVec.ofNat 32 (pid % 256 + station % 16 * 256))
    (BitVec.ofNat 32 (fseq.toNat + n.toNat * 2 ^ 20))

/-- A pair's fault: it is reported, and the pair enters MISMATCH (R319, R321). -/
def State.pairFault (s : State) (source station j pid : Nat) (fseq : BitVec 20) (n : BitVec 8) :
    State :=
  let s := if source = srcPairMismatch then s.bump (aPairCnt station 1)
    else if source = srcPairTimeout then s.bump (aPairCnt station 2) else s
  (s.pairReport source station pid fseq n).pairMismatch station j

/-- A checker's table position at a mirror record: a record of another frame starts the table over once the entries of
the table have had their records, and the bank changes with the target frame (R221, R319). -/
def Cell.mirrorAt (c : Cell) (m : Mirror) : Cell :=
  if c.engine.frame ≠ m.k ∧ c.engine.pos ≠ 0 ∧ c.nextEntry.isSome then c else
  let flip := match c.engine.swapAt with
    | some t => decide ((m.k - t).toNat < 2 ^ 31)
    | none => false
  let c := if flip then { c with engine := { c.engine with
    bankB := !c.engine.bankB, swapAt := none } } else c
  if c.engine.frame = m.k then c
  else { c with engine := { c.engine with frame := m.k, pos := 0 } }

/-- An operand that a record marks present is still to come (R319). -/
def Slotting.waitsFor (e : Slotting) (c : Cell) (m : Mirror) : Bool :=
  let (n0, n1) := e.needs
  (m.present.getLsbD 0 && !e.has c n0) || (m.present.getLsbD 1 && !e.has c n1)

/-- The entry that a mirror record names, where it is the next of the checker's table in table order (R319). -/
def Cell.mirrorEntry (c : Cell) (m : Mirror) : Option Slotting :=
  match c.nextEntry with
  | some bits =>
    if c.engine.frame = m.k ∧ c.engine.pos = m.entry.toNat then
      some { bits, index := c.engine.pos, start := m.tstart.toNat, frame := m.k }
    else none
  | none => none

/-- MIRROR_RECORD (R319): the checker's slot engine applies the main's decision for the next entry of its
table; it waits for an operand marked present. A record of another entry is reported as PAIR_SEQ. -/
def execMirrorRecord (pcell : Nat) (s : State) : Out :=
  unitOk s (pcell < s.variant.pcells) <|
    match (s.cell pcell).mirrorQ, (s.lidOf pcell).bind s.pairOf with
    | m :: rest, some (st, j, pid, _) =>
      let c := (s.cell pcell).mirrorAt m
      if ¬ s.cellRuns pcell then s
      else match c.mirrorEntry m with
        | none =>
          (s.setCell pcell { c with mirrorQ := rest }).pairFault srcPairSeq st j pid m.fseq 0
        | some e =>
          if e.waitsFor c m ∨ c.readyFull then s
          else
            let s := s.setCell pcell { c with mirrorQ := rest, engine := { c.engine with
              pos := c.engine.pos + 1, fseq := m.fseq + 1 } }
            s.applyEntry pcell e (.ofCode m.outcome) m.fseq (m.present.getLsbD 0)
              (m.present.getLsbD 1) m.mcount.toNat
    | _, _ => s

/-- CHECKER_OPERAND_TIMEOUT (R319): a wait for an operand marked present lasted longer than the pair
timeout; PAIR_TIMEOUT is reported. -/
def execCheckerOperandTimeout (pcell : Nat) (s : State) : Out :=
  unitOk s (pcell < s.variant.pcells) <|
    match (s.cell pcell).mirrorQ, (s.lidOf pcell).bind s.pairOf with
    | m :: _, some (st, j, pid, _) =>
      let c := (s.cell pcell).mirrorAt m
      match c.mirrorEntry m with
      | some e => if e.waitsFor c m then s.pairFault srcPairTimeout st j pid m.fseq 0 else s
      | none => s
    | _, _ => s

end Sys2Proof.Machine
end

