-- ==== Sys2Proof/Machine/Image.lean ====
section
/-! DEFINITION. The configuration image in its MRAM slot: header and sections (R480, R481), the contents
of CODE, DATA and SCHED sections (R200 to R206), what they write to cells, frames, root tables and
presets, and the slots themselves (R281). -/

namespace Sys2Proof.Machine

/-! ### Reading an image (R480) -/

/-- The MRAM base of a slot, B when set, and the slot size (R281). -/
def Variant.slot (v : Variant) (b : Bool) : Nat × Nat :=
  let size := match v with
    | .ltm7256 | .ltm7128 => 0x180000
    | .ltm7064 => 0x60000
  (if b then size else 0, size)

/-- An image: the memory that holds it and where it starts. -/
structure Img where
  mem  : Memory
  base : Nat
  deriving DecidableEq, Repr

/-- A byte, a halfword and a word of an image. -/
def Img.byte (g : Img) (o : Nat) : Nat := (mget g.mem (g.base + o)).toNat
def Img.half (g : Img) (o : Nat) : Nat := leNat (mread g.mem (g.base + o) 2)
def Img.word (g : Img) (o : Nat) : Word := mword g.mem (g.base + o)

/-- Words of an image from an offset. -/
def Img.words (g : Img) (o n : Nat) : List Word := (upTo n).map (fun i => g.word (o + i * 4))

/-- The image in a slot. -/
def State.slotImage (s : State) (b : Bool) : Img := { mem := s.mem.mram, base := (s.variant.slot b).1 }

/-- The length that the header gives. -/
def Img.len (g : Img) : Nat := (g.word 8).toNat

/-- The digest of every byte before the trailer (R469, R470). -/
def Img.digest (g : Img) : BitVec 256 := sha256 (mread g.mem g.base (g.len - 96))

/-- The trailer: the signer's key and the signature (R469). -/
def Img.signer (g : Img) : BitVec 256 × BitVec 512 :=
  let o := g.base + (g.len - 96)
  (BitVec.ofNat 256 (leNat (mread g.mem o 32).reverse),
   BitVec.ofNat 512 (leNat (mread g.mem (o + 32) 64).reverse))

/-- A section-table entry (R480). -/
structure Section where
  idx   : Nat
  type  : Nat
  param : Nat
  off   : Nat
  len   : Nat
  deriving DecidableEq, Repr

/-- The sections of an image. -/
def Img.sections (g : Img) : List Section :=
  (upTo (g.half 14)).map fun i =>
    let o := 32 + i * 16
    { idx := i, type := g.half o, param := g.half (o + 2), off := (g.word (o + 4)).toNat
      len := (g.word (o + 8)).toNat }

/-- The sections of a type. -/
def Img.ofType (g : Img) (t : Nat) : List Section := g.sections.filter (fun x => x.type = t)

/-- A cell map names a logical cell (R481). -/
def Img.inMap (g : Img) (off lid : Nat) : Bool := (g.byte (off + lid / 8)).testBit (lid % 8)

/-! ### CODE and DATA (R481) -/

/-- A cell with the parcels of a CODE section in its instruction store. -/
def Cell.putCode (c : Cell) (g : Img) (x : Section) : Cell :=
  let first := (g.word (x.off + 32)).toNat
  let n := (g.word (x.off + 36)).toNat
  let heads := x.off + 40 + 2 * n
  (upTo n).foldl (fun c i =>
    let head := (g.byte (heads + i / 8)).testBit (i % 8)
    let v := BitVec.ofNat 17 (g.half (x.off + 40 + 2 * i) + b2n head * 65536)
    { c with istore := tset (fun _ => 0) c.istore ((first + i) % 16384) v }) c

/-- A cell with the globals and the frame-store words of a DATA section; a limit bounds the words. -/
def Cell.putData (c : Cell) (g : Img) (x : Section) (limit : Nat) : Cell :=
  let c := (upTo 8).foldl (fun c i =>
    { c with globals := tset (fun _ => 0) c.globals i (g.word (x.off + 32 + i * 4)) }) c
  let n := min (g.word (x.off + 64)).toNat limit
  { c with frame := mwrite c.frame 0 (mread g.mem (g.base + x.off + 68) (n * 4)) }

/-- A cell loaded from the CODE and DATA sections that name its logical id. -/
def Cell.load (c : Cell) (g : Img) (lid limit : Nat) : Cell :=
  let c := (g.ofType 4).foldl (fun c x => if g.inMap x.off lid then c.putCode g x else c) c
  (g.ofType 5).foldl (fun c x => if g.inMap x.off lid then c.putData g x limit else c) c

/-! ### SCHED (R200 to R206) -/

/-- A cell table: its offset in the image, its logical cell and the number of its entries (R203). -/
structure CellTable where
  off   : Nat
  lid   : Nat
  count : Nat
  deriving DecidableEq, Repr

/-- The cell tables from an offset on, and where they end. -/
def Img.cellTables (g : Img) : Nat → Nat → List CellTable × Nat
  | 0, o => ([], o)
  | n + 1, o =>
    let w := g.word o
    let t : CellTable := { off := o, lid := fld w 7 0, count := fld w 18 8 }
    let (ts, e) := g.cellTables n (o + 8 + t.count * 8)
    (t :: ts, e)

/-- A SCHED section as its parts lie in the image, in order and without gaps. -/
structure Sched where
  off     : Nat
  hdr     : List Word
  flows   : Nat
  tables  : List CellTable
  roots   : Nat
  paths   : Nat
  presets : Nat
  fin     : Nat
  deriving DecidableEq, Repr

/-- The counts of a schedule's header. -/
def Sched.nroot (x : Sched) : Nat := fld (x.hdr.getD 4 0) 9 0
def Sched.ncells (x : Sched) : Nat := fld (x.hdr.getD 4 0) 24 16
def Sched.nflows (x : Sched) : Nat := fld (x.hdr.getD 5 0) 11 0
def Sched.npaths (x : Sched) : Nat := fld (x.hdr.getD 6 0) 15 0
def Sched.npreset (x : Sched) : Nat := fld (x.hdr.getD 7 0) 11 0

/-- The schedule of a section. -/
def Img.sched (g : Img) (x : Section) : Sched :=
  let hdr := g.words x.off 8
  let flows := x.off + 32
  let (tables, roots) := g.cellTables (fld (hdr.getD 4 0) 24 16) (flows + fld (hdr.getD 5 0) 11 0 * 16)
  let paths := roots + fld (hdr.getD 4 0) 9 0 * 16
  let presets := paths + fld (hdr.getD 6 0) 15 0 * 8
  { off := x.off, hdr, flows, tables, roots, paths, presets
    fin := presets + fld (hdr.getD 7 0) 11 0 * 16 }

/-- A flow record, a slot entry, a root entry, a path record and a preset, by number. -/
def Sched.record (x : Sched) (g : Img) (i : Nat) : List Word := g.words (x.flows + i * 16) 4
def CellTable.entry (t : CellTable) (g : Img) (i : Nat) : Nat :=
  leNat (mread g.mem (g.base + t.off + 8 + i * 8) 8)
def Sched.root (x : Sched) (g : Img) (i : Nat) : Nat :=
  leNat (mread g.mem (g.base + x.roots + i * 16) 16)
def Sched.path (x : Sched) (g : Img) (i : Nat) : BitVec 64 :=
  BitVec.ofNat 64 (leNat (mread g.mem (g.base + x.paths + i * 8) 8))
def Sched.preset (x : Sched) (g : Img) (i : Nat) : Nat :=
  leNat (mread g.mem (g.base + x.presets + i * 16) 16)

/-- All path records of a schedule. -/
def Sched.allPaths (x : Sched) (g : Img) : List (BitVec 64) := (upTo x.npaths).map (x.path g)

/-! ### What a schedule writes -/

/-- The header of a flow record's frame (R202). -/
def recordHeader (r : List Word) : Header :=
  let w (i : Nat) : Word := r.getD i 0
  { flow := BitVec.ofNat 12 (fld (w 0) 11 0), iteration := 0, cls := 1, atomic := false
    base := BitVec.ofNat 14 (fld (w 1) 29 16), nareas := BitVec.ofNat 3 (fld (w 3) 2 0)
    areaWords := BitVec.ofNat 14 (fld (w 2) 13 0), winWords := BitVec.ofNat 14 (fld (w 2) 29 16)
    handler := BitVec.ofNat 14 (fld (w 1) 13 0), hen := fld (w 0) 15 15 = 1 }

/-- A cell with the directory entry of a flow record, LIVE with no area busy, its header words in the
frame, and the record's late policy (R202). -/
def Cell.putRecord (c : Cell) (r : List Word) : Cell :=
  let h := recordHeader r
  let e : DirEntry := { hdr := h, busy := 0, state := .live, scheduled := true
                        trapPending := false, complete := false }
  let others := c.dir.filter (fun d => ¬ (d.scheduled ∧ d.hdr.flow = h.flow))
  let c := { c with
    dir := others ++ [e]
    latePol := tset (fun _ => 0) c.latePol h.flow.toNat (BitVec.ofNat 2 (fld (r.getD 0 0) 13 12)) }
  c.putWords h.base.toNat (e.words ++ List.replicate 4 0)

/-- The logical cells that take what an image gives a logical cell: the cell itself, and the checker of
its pair (R311). -/
def State.halves (s : State) (lid : Nat) : List Nat :=
  match s.pairOf lid with
  | some (_, _, main, checker) => if lid = main then [main, checker] else [lid]
  | none => [lid]

/-- The cell that holds a logical id is changed, where one holds it. -/
def State.modLid (s : State) (lid : Nat) (f : Cell → Cell) : State :=
  match s.placeOf lid with
  | some p => s.modCell p f
  | none => s

/-- A slot-table bank of a cell is written: the table's entries with mcount 0, and 0 after them (R202,
R203). -/
def Cell.putTable (c : Cell) (g : Img) (t : CellTable) (bankB : Bool) : Cell :=
  let w := bankWord bankB * 4
  let bs := (upTo t.count).flatMap (fun i =>
    let e := t.entry g i
    leBytes 8 (e - bitsOf e 55 54 * 2 ^ 54))
  { c with frame := mwrite (mclear c.frame w 8192) w bs }

/-- The slot tables of a schedule are written to a bank of the cells of its partition; a cell with no
table has an empty one. Of two tables for one logical cell the later stays (DESIGN CHOICE: log entry 155). -/
def State.putTables (s : State) (g : Img) (x : Sched) (p : Nat) (bankB : Bool) : State :=
  let s := s.modCells p (fun c => { c with frame := mclear c.frame (bankWord bankB * 4) 8192 })
  x.tables.foldl (fun s t =>
    (s.halves t.lid).foldl (fun s l => s.modLid l (fun c => c.putTable g t bankB)) s) s

/-- The root entries of a schedule are written to a bank of the root tables (SEQ_RTBASE). -/
def State.putRoots (s : State) (g : Img) (x : Sched) (p : Nat) (bankB : Bool) : State :=
  let a := s.rootBase p bankB
  let bs := mread g.mem (g.base + x.roots) (x.nroot * 16)
  { s with mem := { s.mem with glob := mwrite (mclear s.mem.glob a 8192) a bs } }

/-- A preset token is written into its matching slot (R206, R208). -/
def State.putPreset (s : State) (v : Nat) : State :=
  let t := Token.ofNat v
  let m := t.addr.toNat % 1024
  (s.halves t.cell.toNat).foldl (fun s l => s.modLid l (fun c => { c with
    store := tins c.store (2 * m + 1) { tok := t, latch := true, past := false } })) s

/-- Where the presets of a partition lie in the preset copy area (R224). -/
def State.presetBase (s : State) (p : Nat) : Nat :=
  s.regF aSeqPrbase 11 0 * 1024 + 16 * ((upTo p).map (fun q => (s.part q).presets)).sum

/-- The presets of a partition are written from the preset copy area (R224). -/
def State.restorePresets (s : State) (p : Nat) : State :=
  let a := s.presetBase p
  (upTo (s.part p).presets).foldl (fun s i =>
    s.putPreset (leNat (mread s.mem.glob (a + i * 16) 16))) s

/-- The directory entries of a partition's flow records are written as R202 states. -/
def State.putRecords (s : State) (rs : List (List Word)) : State :=
  rs.foldl (fun s r =>
    (s.halves (fld (r.getD 0 0) 23 16)).foldl (fun s l => s.modLid l (fun c => c.putRecord r)) s) s

/-! ### Refill (R360) -/

/-- The late-policy table of a Dynamic cell, as LOAD and the dispatcher have written it: every flow's policy (R55). -/
def State.policies (s : State) : Table (BitVec 2) :=
  (upTo 4096).foldl (fun t f => tset (fun _ => 0) t f (BitVec.ofNat 2 (s.flowPolicy (BitVec.ofNat 12 f)))) []

/-- A free spare cell is to take a logical id of a Dynamic partition, loaded from the active image: instruction
store, head bits, globals and reserved granules; where none is free, the id stays unplaced. Its cloud powers up, or drains
for the switch (R252, R258); the id stands there when the drain is complete. -/
def State.refillCell (s : State) (lid : Nat) : State :=
  match s.spareCells.head? with
  | none => s
  | some b =>
    let g := s.slotImage s.mode.slotB
    let c := ({ Cell.idle with latePol := s.policies, nextUid := (s.cell b).nextUid }).load g lid
      (s.reserved lid * 64)
    let s := s.setCell b c
    let s := { s with mem := { s.mem with poison := s.mem.poison.filter (fun w =>
      ¬ (w.1 = 1024 + b ∨ (w.1 = 32 + b ∧ w.2 < s.reserved lid * 64))) } }
    (({ s with rep := { s.rep with refills := s.rep.refills ++ [(lid, b)] } }).powerUp (b / 16)
      |>.wakeCloud (b / 16)).onRun (b / 16)

end Sys2Proof.Machine
end

