-- ==== Sys2Proof/Machine/Faults.lean ====
section
/-! DEFINITION. The fault collector (R346 to R377): pending bits, counts and records, the reactions, fences,
faulted partitions, the safe state, FAULT_N, clearing, restarts and the persistent fault log. -/

namespace Sys2Proof.Machine

/-! ### The sources' fixed fields (R352) -/

/-- A source's class: 0 C, 1 U, 2 F. -/
def srcClass (n : Nat) : Nat := bitsOf (srcReset n) 9 8

/-- A reaction code is permitted for a source. -/
def srcAllows (n r : Nat) : Bool := decide (r ≤ 4) && (srcReset n).testBit (3 + r)

/-- What a source's fence acts on: 0 none, 1 cell, 2 cloud, 3 station, 4 port, 5 cell or cloud. -/
def srcFence (n : Nat) : Nat := bitsOf (srcReset n) 12 10

/-! ### Pending bits (R350, R373) -/

/-- The pending bit of a source. -/
def State.pending? (s : State) (n : Nat) : Bool := (s.reg (aFltPend (n / 32))).getLsbD (n % 32)

/-- The state with a source's pending bit set. -/
def State.setPending (s : State) (n : Nat) : State :=
  s.setReg (aFltPend (n / 32)) (s.reg (aFltPend (n / 32)) ||| (1 : Word) <<< (n % 32))

/-- A source asserts: its level, a report of it that waits, or a broken wire (R373). -/
def State.asserting (s : State) (n : Nat) : Bool :=
  s.levelOn n || decide (n ∈ s.flt.wires) || s.flt.inQ.any (fun r => r.source = n)

/-- A pending bit of a class is set. -/
def State.pendClass (s : State) (c : Nat) : Bool :=
  (upTo 96).any (fun n => srcClass n = c && s.pending? n)

/-- FLT_STAT.fatal (R372): a pending bit is set whose source is of class F or reacts with SAFE. -/
def State.fatal (s : State) : Bool :=
  (upTo 96).any (fun n => s.pending? n && (srcClass n = 2 || s.regF (aFltSrc n) 2 0 = 4))

/-! ### FAULT_N (R364, R365) -/

/-- A fault term exists (R365). -/
def State.faultTerm (s : State) : Bool :=
  (s.regF aFltCtrl 0 0 = 1 && s.pendClass 0) || (s.regF aFltCtrl 1 1 = 1 && s.pendClass 1)
    || s.pendClass 2 || decide (s.flt.faulted.toNat &&& s.regF aFltCtrl 15 8 ≠ 0)

/-- The level that the field I/O drives on FAULT_N (R364). -/
def State.faultN (s : State) : Level :=
  match s.mode.mode with
  | .reset | .test | .link | .safe => none
  | .load => if s.fio.ready then some false else none
  | .halt => some false
  | .run | .degraded => some (!s.faultTerm)

/-- FAULT_N as FLT_STAT.fault_n codes it. -/
def levelCode : Level → Nat
  | none => 0
  | some false => 1
  | some true => 2

/-! ### The persistent fault log (R376, R377, R528) -/

/-- Where the fault log lies in MRAM, and how many entries it holds. -/
def Variant.faultLog : Variant → Nat × Nat
  | .ltm7256 => (0x310000, 6144)
  | .ltm7128 => (0x310000, 6144)
  | .ltm7064 => (0xC4000, 3584)

/-- FLT_REC_INFO with valid = 1. -/
def infoWord (source : Nat) (wire : Bool) (master : BitVec 10) (access : BitVec 3) (react cls : Nat) :
    Word :=
  BitVec.ofNat 32 (source % 128 + b2n wire * 2 ^ 7 + master.toNat * 2 ^ 8 + access.toNat * 2 ^ 18
    + react % 8 * 2 ^ 21 + cls % 4 * 2 ^ 24 + 2 ^ 31)

/-- The 32 bytes of a fault-log entry (R376). -/
def faultEntry (time : Nat) (info addr syn : Word) (mode : Nat) (first safe ringonly : Bool)
    (seq : BitVec 16) : List Byte :=
  let body := leBytes 8 time ++ leBytes 4 info.toNat ++ leBytes 4 addr.toNat ++ leBytes 4 syn.toNat
    ++ [BitVec.ofNat 8 (mode % 8 + b2n first * 8 + b2n safe * 16 + b2n ringonly * 32), 0]
    ++ leBytes 2 seq.toNat ++ List.replicate 6 0
  body ++ leBytes 2 (crc16 body).toNat

/-- An entry goes to the fault log and to the log ring; beyond 64 in a second it goes to the ring alone and
is counted (R377). The SAFE entry is always written. -/
def State.logFault (s : State) (info addr syn : Word) (mode : Nat) (first safe : Bool) : State :=
  let t := timeWord s.zen.count s.isLocal
  let (base, cap) := s.variant.faultLog
  let recent := s.flt.recent.filter (fun x => s.zen.count < x + 1000000000)
  if s.mramStopped then s.logField 1 (faultEntry t info addr syn mode first safe true s.flt.seq)
  else if safe ∨ recent.length < 64 then
    let bs := faultEntry t info addr syn mode first safe false s.flt.seq
    let s := s.mramWrite (base + s.flt.logPos % cap * 32) bs
    let s := { s with flt := { s.flt with
      seq := s.flt.seq + 1, logPos := (s.flt.logPos + 1) % cap
      recent := if safe then recent else recent ++ [s.zen.count] } }
    s.logField 1 bs
  else
    (s.addRegF aFltLog 31 16 1).logField 1 (faultEntry t info addr syn mode first safe true s.flt.seq)

/-- At start the collector continues after the entry with the highest modular seq whose crc is good. -/
def State.scanFaultLog (s : State) : State :=
  let (base, cap) := s.variant.faultLog
  let used := ((s.mem.mram.filter (fun c => base ≤ c.1 ∧ c.1 < base + cap * 32)).map
    (fun c => (c.1 - base) / 32)).eraseDups
  let good := used.filterMap (fun i =>
    let bs := mread s.mem.mram (base + i * 32) 32
    if leNat (bs.drop 30) = (crc16 (bs.take 30)).toNat
    then some (i, BitVec.ofNat 16 (leNat ((bs.drop 22).take 2))) else none)
  let best := good.foldl (fun (b : Option (Nat × BitVec 16)) e => match b with
    | none => some e
    | some f => if before16 f.2 e.2 then some e else some f) none
  match best with
  | none => s
  | some (i, q) => { s with flt := { s.flt with seq := q + 1, logPos := (i + 1) % cap } }

/-! ### What a reaction acts on (R354, R355) -/

/-- A unit that a fence acts on (R359). -/
inductive FenceUnit where
  | cell (pcell : Nat)
  | cloud (c : Nat)
  | station (i : Nat)
  | port (p : Nat)
  deriving DecidableEq, Repr

/-- The unit of the source's fence kind that a report names (R352): by its master, by the station or the
port in the address of a station's or a port's report, or by the macro id. -/
def State.fenceTarget (s : State) (source : Nat) (d : Details) : Option FenceUnit :=
  let m := d.master.toNat
  let dma := decide (d.master = masterDma)
  match srcFence source with
  | 1 => if m < s.variant.pcells then some (.cell m) else none
  | 2 => if m < s.variant.pcells then some (.cloud (m / 16)) else none
  | 3 => if dma ∧ fld d.addr 11 8 < s.variant.stations then some (.station (fld d.addr 11 8)) else none
  | 4 =>
    if dma ∧ 64 ≤ d.addr.toNat ∧ d.addr.toNat < 64 + s.variant.sports
    then some (.port (d.addr.toNat - 64)) else none
  | 5 =>
    if ¬ dma then none
    else match macroAt (fld d.addr 10 0) with
      | .cell p _ => some (.cell p)
      | .scratch c _ => some (.cloud c)
      | .glob _ => none
  | _ => none

/-- The unit is fenced already. -/
def State.isFenced (s : State) (u : FenceUnit) : Bool :=
  match u with
  | .cell p => decide (p ∈ s.rep.fenced)
  | .cloud c => decide ((s.cloud c).state = .fenced)
  | .station i => (s.station i).fenced
  | .port p => (s.port p).fenced

/-- The partition that a report concerns (R355): of the master cell, of the flow of a dispatcher's or
sequencer's report, or of the pair of a station's report. -/
def State.reportPart (s : State) (source : Nat) (d : Details) : Option Nat :=
  let m := d.master.toNat
  if m < s.variant.pcells then s.partOfCell m
  else if d.master = masterDispatcher ∨ d.master = masterSequencer then
    if source = srcSchedRealign then some (fld d.addr 2 0)
    else match s.schedPart (fld d.addr 11 0) with
      | some p => some p
      | none => s.flowPart (fld d.addr 11 0)
  else if d.master = masterDma ∧ srcPairMismatch ≤ source ∧ source ≤ srcPairBroken then
    s.partOf (fld d.addr 7 0)
  else none

/-- The activation that a report names: that of the requesting strand of ITER_STALL (R194). -/
def State.reportActivation (s : State) (source : Nat) (d : Details) :
    Option (Nat × BitVec 12 × BitVec 16) :=
  let m := d.master.toNat
  let flow := BitVec.ofNat 12 (fld d.addr 11 0)
  let iteration := BitVec.ofNat 16 (fld d.syn 31 16)
  if source = srcIterStall ∧ m < s.variant.pcells ∧ (s.cell m).live flow iteration
  then some (m, flow, iteration) else none

/-- The reaction that a report takes (R353 to R356), as its code. -/
def State.reactionOf (s : State) (source : Nat) (d : Details) (wire : Bool) : Nat :=
  let code := if source = srcFltSelf then 4 else s.regF (aFltSrc source) 2 0
  match s.mode.mode with
  | .safe | .reset => 0
  | .test | .link | .load => if code = 4 then 4 else 0
  | .run | .degraded | .halt =>
    match code with
    | 1 => if ¬ wire ∧ (s.reportActivation source d).isSome then 1 else 0
    | 2 => match s.fenceTarget source d with
      | none => 4
      | some u => if s.isFenced u then 0 else 2
    | 3 => match s.reportPart source d with
      | none => 4
      | some p => if s.flt.faulted.getLsbD p then 0 else 3
    | 4 => 4
    | _ => 0

/-! ### Aborts and faulted partitions (R354, R361) -/

/-- The start messages that wait in a cell's token input queue, and its prefetch message, are refused (R361). -/
def State.refuseStarts (s : State) (pcell : Nat) : State :=
  let q := (s.cell pcell).inQ
  let s := s.modCell pcell (fun c => { c with inQ := q.filter (fun x => match x with
    | .network _ (some _) _ => false
    | _ => true) })
  let s := q.foldl (fun s x => match x with
    | .network _ (some h) credit => (s.giveBack credit).refuseStart pcell h
    | _ => s) s
  s.refusePrefetch pcell

/-- Every strand of a cell stops, and every live activation is aborted with no trap token; a trap token on its way to its
handler is dropped, and no firing of a Scheduled cell waits to run (R361). -/
def State.abortCell (s : State) (pcell : Nat) : State :=
  if s.isSched pcell then
    let s := (s.cell pcell).strands.foldl (fun s t => s.stopStrand pcell t) s
    let flows := ((s.cell pcell).held.map HeldLock.flow).eraseDups
    let s := flows.foldl (fun s f => s.releaseLocks pcell f (.ofFlow f)) s
    s.modCell pcell (fun c => { c with readyQ := [] })
  else
    let s := s.modCell pcell (fun c => { c with
      trapQ := [], dir := c.dir.map (fun e => { e with trapPending := false })
      inQ := c.inQ.filter (fun x => match x with
        | .own _ => false
        | _ => true) })
    let es := (s.cell pcell).dir
    let s := (es.filter (fun e => decide (e.state = .live))).foldl (fun s e =>
      (s.abortActivation pcell e.hdr.flow e.hdr.iteration).getD s) s
    let s := (s.cell pcell).strands.foldl (fun s t => s.stopStrand pcell t) s
    (es.foldl (fun s e => s.frameCheck pcell e.hdr.flow e.hdr.iteration) s).refuseStarts pcell

/-- The level that a pin takes while its partition is FAULTED (R361, R399). -/
def State.faultLevel (s : State) (n : Nat) : State :=
  let s := s.modPin n (fun p => { p with relQ := [], dutyAt := none })
  match s.regF (aTioCfg n) 19 18 with
  | 1 => s.drivePin n (some false)
  | 2 => s.drivePin n (some true)
  | 3 => s.drivePin n none
  | _ => s.modPin n (fun p => { p with pulse := none })

/-- A partition is faulted (R361): its activations are aborted, its sequencer state is FAULTED or its
flows' pending activations are discarded, its releases are discarded, and its pins take their fault
levels. -/
def State.faultPartition (s : State) (p : Nat) : State :=
  let s := { s with flt := { s.flt with faulted := s.flt.faulted ||| (1 : BitVec 8) <<< p } }
  let s := (s.cellsOf p).foldl (fun s pc => s.abortCell pc) s
  let s := if (s.partition p).sched then s.modPart p (fun q => { q with state := .faulted, haltAsk := false })
    else
      let flows := (((s.dsp.onChip.map Prod.fst) ++ (s.dsp.inDram.map Prod.fst)).eraseDups).filter
        (fun f => s.flowPart f = some p)
      (flows.foldl (fun s f => s.discardPending f) s).returnAll
  let mine := fun (r : Release) => decide (r.part = some p)
  let s := { s with fio := { s.fio with
    pins := tmap (fun _ => Pin.idle) (fun _ q => { q with
      relQ := q.relQ.filter (fun r => !mine r) }) s.fio.pins
    ports := tmap (fun _ => SerialPort.idle) (fun _ q => { q with
      relQ := q.relQ.filter (fun r => !mine r) }) s.fio.ports } }
  let s := (upTo s.variant.pins).foldl (fun s n =>
    if s.regF (aTioCfg n) 22 20 = p ∧ (s.pinFunc n = 2 ∨ s.pinFunc n = 3) then s.faultLevel n else s) s
  s.settle

/-! ### Fences (R359, R360) -/

/-- A half of a pair is fenced, reset or mapped out: the pair enters BROKEN (R324, R343). -/
def State.breakPair (s : State) (lid : Nat) : State :=
  match s.pairOf lid with
  | none => s
  | some (st, j, main, _) =>
    if s.pairState st j = 3 then s
    else (s.setRegF (aPairPair st j) 14 12 3).pairReport srcPairBroken st main 0 0

/-- Owner-gone for a logical id goes to every lock directory (R288). -/
def State.ownerGone (s : State) (lid : Nat) : State :=
  ((upTo 152).filter s.bankExists).foldl (fun s b =>
    s.modBank b (fun k => { k with gone := k.gone ++ [BitVec.ofNat 8 lid] })) s

/-- A fenced cell stops, and a relocation that it takes part in ends: what it held is lost. -/
def State.stopFenced (s : State) (pcell : Nat) : State :=
  let s := (s.abortCell pcell).modCell pcell (fun c => { c with
    stopped := true, outQ := [], reqQ := [], houseQ := [], tags := [] })
  s.rollFenced (· = pcell)

/-- A logical cell loses its place: its pair is broken and its locks are freed; its Scheduled partition is FAULTED, and a
Dynamic one goes on, with a refill where FLT_CTRL.refill asks for one (R359, R360). -/
def State.loseLid (s : State) (l pcell : Nat) : State :=
  let s := ((s.breakPair l).unplace l).ownerGone l
  match s.partOf l with
  | none => s
  | some p =>
    if (s.partition p).sched then
      (if s.flt.faulted.getLsbD p then s else s.faultPartition p).onRun (pcell / 16)
    else
      let s := if s.regF aFltCtrl 3 3 = 1 then s.refillCell l else s
      (s.noCellAll).onRun (pcell / 16)

/-- A cell is fenced (R359): it stops at once, its activations are aborted, its logical id becomes unplaced,
every directory is told, its pair breaks, and a Scheduled cell faults its partition. An id that was to be refilled onto
it takes another cell (R360). A cloud that it leaves without a logical cell returns to OFF (R258), and a flow that has no
cell left is reported (R194). -/
def State.fenceCell (s : State) (pcell : Nat) : State :=
  if pcell ∈ s.rep.fenced then s
  else
    let lid := s.lidOf pcell
    let s := ({ s with
      rep := { s.rep with fenced := s.rep.fenced ++ [pcell] }
      flt := { s.flt with cells := sat 255 (s.flt.cells + 1) } }).stopFenced pcell
    let lost := (s.rep.refills.filter (fun r => r.2 = pcell)).map Prod.fst
    let s := { s with rep := { s.rep with refills := s.rep.refills.filter (fun r => r.2 ≠ pcell) } }
    match lid with
    | none => if s.regF aFltCtrl 3 3 = 1 then lost.foldl (fun s l => s.refillCell l) s else s
    | some l => s.loseLid l pcell

/-- A station is fenced (R359): it forwards nothing, its pairs enter BROKEN, and their partitions are
faulted. -/
def State.fenceStation (s : State) (i : Nat) : State :=
  let s := s.modStation i (fun x => { x with fenced := true })
  (s.pairs?.filter (fun q => q.1 = i)).foldl (fun s q =>
    let s := s.breakPair q.2.2.1
    match s.partOf q.2.2.1 with
    | some p => if s.flt.faulted.getLsbD p then s else s.faultPartition p
    | none => s) s

/-- A unit is fenced. -/
def State.fence (s : State) (u : FenceUnit) : State :=
  (match u with
    | .cell p => s.fenceCell p
    | .cloud c => (((upTo 16).map (c * 16 + ·)).filter (fun p => (s.lidOf p).isSome)).foldl
      (fun s p => s.fenceCell p) ((s.fenceCloud c).rollFenced (fun p => p / 16 = c))
    | .station i => s.fenceStation i
    | .port p => (s.dropPort p).modPort p (fun q => { q with fenced := true })).settle

/-! ### The safe state (R369 to R371) -/

/-- The module enters SAFE (R370): every field output is high-impedance, releases and transmissions are
discarded, cells stop issuing, a relocation stops (R343) and so does a refill (R357), and the SAFE entry is logged. -/
def State.enterSafe (s : State) (cause : Nat) (info addr syn : Word) : State :=
  let s := s.releaseOutputs
  let s := s.mapCells (fun _ c => { c with stopped := true })
  let s := { s with rep := { s.rep with refills := [] } }
  let s := (s.abandonRoll).transit .safe cause
  (s.bump (aModeCnt 5)).logFault info addr syn 7 false true

/-! ### Taking a report (R349 to R357) -/

/-- The registers of a class's record (R351). -/
def State.putRecord (s : State) (c : Nat) (info addr syn : Word) : State :=
  let t := timeWord s.zen.count s.isLocal
  let s := s.setReg (aFltRecTlo c) (BitVec.ofNat 32 t)
  let s := s.setReg (aFltRecThi c) (BitVec.ofNat 32 (t / 2 ^ 32))
  let s := s.setReg (aFltRecInfo c) info
  (s.setReg (aFltRecAddr c) addr).setReg (aFltRecSyn c) syn

/-- The effect of a reaction beyond LOG (R354). -/
def State.react (s : State) (code source : Nat) (d : Details) (info : Word) : State :=
  match code with
  | 1 => match s.reportActivation source d with
    | some (pc, flow, iteration) => (s.abortActivation pc flow iteration).getD s
    | none => s
  | 2 => match s.fenceTarget source d with
    | some u => s.fence u
    | none => s
  | 3 => match s.reportPart source d with
    | some p => s.faultPartition p
    | none => s
  | 4 => s.enterSafe 10 info d.addr d.syn
  | _ => s

/-- The collector takes a report (R350, R351, R354): pending bit, count, record, log entry and reaction. A
report without details has master none (R348); a broken wire raises class C to U (R349). -/
def State.collect (s : State) (source : Nat) (details : Option Details) (wire : Bool) : State :=
  let d : Details := details.getD { master := masterNone, access := accNone, addr := 0, syn := 0 }
  let cls := if wire ∧ srcClass source = 0 then 1 else srcClass source
  let code := s.reactionOf source d wire
  let info := infoWord source wire d.master d.access code cls
  let s := (s.setPending source).addRegF (aFltSrc source) 31 16 1
  let first := s.regF (aFltRecInfo cls) 31 31 = 0
  let s := if first then s.putRecord cls info d.addr d.syn else s.bump (aFltRecMore cls)
  let s := if (first ∨ code ≠ 0 ∨ wire) ∧ s.mode.mode ≠ .test
    then s.logFault info d.addr d.syn s.mode.mode.code first false else s
  s.react code source d info

/-- The word, by its poison number, at which a memory error of a report lies: a frame-store word of the reporting cell, a
scratchpad word of the physical cloud that holds the logical one, or a word of global memory (R263, R308). -/
def State.wordAt (s : State) (d : Details) : Option (Nat × Nat) :=
  let a := d.addr.toNat
  if a < 0x10000 then
    if d.master.toNat < s.variant.pcells then some (32 + d.master.toNat, a / 4) else none
  else if 0x1000000 ≤ a ∧ a < 0x1800000 then
    match tget (fun _ => 0) s.rep.cloudOf ((a - 0x1000000) / 0x80000) with
    | 0 => none
    | c + 1 => some (c, a % 0x80000 / 4)
  else if 0x2000000 ≤ a ∧ a < 0x2300000 then some (18, (a - 0x2000000) / 4)
  else none

/-- The details with which a unit raises a report: of DSP_OVF_FULL the manual fixes all but the flow and the source code,
with no iteration (R194). -/
def raisedDetails (source : Nat) (d : Details) : Details :=
  if source = srcDspOvfFull then
    { master := masterDispatcher, access := accToken, addr := BitVec.ofNat 32 (fld d.addr 11 0)
      syn := BitVec.ofNat 32 (fld d.syn 2 0) }
  else d

/-- What a unit that raises a report does beside it, where the condition is an event inside the silicon (R346): a frame-store
word becomes poisoned (R272), a bridge loses the flits at the head of its FIFO (R247), or the dispatcher refuses the event
of a spill source whose append failed (R188). The report names which (DESIGN CHOICE: log entry 136). -/
def State.raisedEffect (s : State) (source : Nat) (d : Details) : State :=
  if source = srcMemUe then
    match s.wordAt d with
    | some w => (s.bump (aMemCnt 1)).setPoison w.1 w.2
    | none => s.bump (aMemCnt 1)
  else if source = srcMemCe then s.bump (aMemCnt 0)
  else if source = srcDramCe then s.bump (aMemCnt 10)
  else if source = srcDramUe then s.bump (aMemCnt 11)
  else if source = srcJetBridge ∧ d.master.toNat < s.variant.pcells then
    match takeFirst (fun p : Packet => match p.place with
        | .bridge c _ => decide (c = d.master.toNat / 16)
        | _ => false) s.jet.flight with
    | some (_, rest) => { s with jet := { s.jet with flight := rest } }
    | none => s
  else if source = srcDspOvfFull then
    let src := fld d.syn 2 0
    match s.events src with
    | e :: rest =>
      if e.flow.toNat = fld d.addr 11 0 ∧ s.spillsFor src e.flow.toNat ∧ s.pendFull e.flow.toNat then
        { (s.dspCount 6).trace .refuse e.flow.toNat { src } with dsp := { s.dsp with
          events := tset (fun _ => []) s.dsp.events src rest, holding := terase s.dsp.holding src } }
      else s
    | [] => s
  else s

/-- A report joins those that wait, in its cycle by ascending source (R350, R357). -/
def State.queueReport (s : State) (source : Nat) (details : Option Details) (wire : Bool) : State :=
  { s with flt := { s.flt with inQ := putReport { source, time := s.zen.count, details, wire } s.flt.inQ } }

/-- The collector takes the report that comes first (R350). -/
def State.collectNext (s : State) : State :=
  match s.flt.inQ with
  | [] => s
  | q :: rest => { s with flt := { s.flt with inQ := rest } }.collect q.source q.details q.wire

/-- The safe line shows no valid state, which leads to SAFE (R349, R375). -/
def State.safeLineBroken (s : State) : State :=
  let s := { s with flt := { s.flt with safeLine := true } }
  if s.mode.mode = .safe ∨ s.mode.mode = .reset then s
  else s.enterSafe 10 (infoWord srcFltSelf true masterNone accNone 4 2) 0 0

/-- FAULT_REPORT (R350): the collector takes the report that comes first among those that wait and one that a unit raises now,
or finds that its own copies disagree (R375). In RESET it is held reset (R356). -/
def execFaultReport (r : ReportSel) (s : State) : Out :=
  .next <|
    if s.mode.mode = .reset then s
    else match r with
      | .waiting => s.collectNext
      | .raised source d =>
        if source < 96 then
          ((s.raisedEffect source d).queueReport source (some (raisedDetails source d)) false).collectNext else s
      | .collectorSelf =>
        if srcFltSelf ∈ s.flt.level then s
        else { s with flt := { s.flt with level := s.flt.level ++ [srcFltSelf] } }.collect srcFltSelf
          (some { master := masterNone, access := accNone, addr := 0, syn := 0 }) false

/-- BROKEN_WIRE (R349, R375): a source's pair shows no valid state, and the source counts as asserting; the
safe line itself leads to SAFE. -/
def execBrokenWire (w : WireSel) (s : State) : Out :=
  .next <| match w with
    | .source n =>
      if s.mode.mode = .reset ∨ 96 ≤ n ∨ n ∈ s.flt.wires then s
      else (({ s with flt := { s.flt with wires := s.flt.wires ++ [n] } }).queueReport n none true).collectNext
    | .readback _ => s
    | .safeLine => s.safeLineBroken

/-- The sources whose condition lies outside the machine's own state, so that its end is an event. -/
def endsOutside (n : Nat) : Bool :=
  decide (n ≤ 8 ∨ n = srcTioReadback ∨ n = srcSpBus ∨ n = srcFaultnRb)

/-- The lanes of the barrier are in lock again, or the host's heartbeat is back, with both dies out of
reset (R425, R477). -/
def State.barrierHeals (s : State) (n : Nat) : State :=
  if ¬ (s.mode.fieldRst ∧ s.mode.hostRst) then s
  else if n = srcBarLink then
    ({ s with bar := { s.bar with up := true, lanes := false } }).endLevel n
  else
    let s := ({ s with bar := { s.bar with lost := false } }).endLevel n
    if s.regF (aLnkStat 0) 3 0 = 9 then s.endLevel srcLnkDown else s

/-- SOURCE_HEALTHY (R347, R349, R413, R425, R527): a source's pair reads healthy again; the PLLs of the clouds that run are
in lock once PLL_CLOUD is. -/
def execSourceHealthy (w : WireSel) (s : State) : Out :=
  .next <| match w with
    | .safeLine => { s with flt := { s.flt with safeLine := false } }
    | .readback pin => s.readbackAgrees pin
    | .source n =>
      let s := { s with flt := { s.flt with wires := s.flt.wires.filter (· ≠ n) } }
      if n = srcBarLink ∨ n = srcHostLost then s.barrierHeals n
      else if ¬ endsOutside n then s
      else
        let s := s.endLevel n
        if n = srcTioReadback then
          { s with fio := { s.fio with
            pins := tmap (fun _ => Pin.idle) (fun _ p =>
              if p.rb then { p with rb := false, ext := none } else p) s.fio.pins } }
        else if n = srcPllCloud then
          s.mapClouds (fun _ k => { k with
            pllLock := k.pllLock || (!k.relock && decide (k.state = .run ∨ k.state = .drain ∨ k.state = .test)) })
        else if n = srcFaultnRb then { s with fio := { s.fio with faultExt := none } }
        else s

/-! ### The module's own sensors (R352, R527) -/

/-- A level source of the module's sensors asserts or ends. -/
def State.sense (s : State) (source : Nat) (on : Bool) (master : BitVec 10) (addr syn : Word) : State :=
  if on then s.assertLevel source master accNone addr syn else s.endLevel source

/-- TEMPERATURE_THRESHOLD (R352): the hottest sensor's reading, in signed °C. -/
def execTemperatureThreshold (t : BitVec 8) (s : State) : Out :=
  .next <|
      let s := { s with flt := { s.flt with temp := t } }
      let syn := t.signExtend 32
      let s := s.sense srcTempWarn (decide ((s.regF aFltTemp 15 8 : Int) < t.toInt)) masterNone 0 syn
      s.sense srcTempCrit (decide ((s.regF aFltTemp 23 16 : Int) < t.toInt)) masterNone 0 syn

/-- PLL_UNLOCK (R352): the core PLL, or a cloud's PLL outside a relock, is out of lock. -/
def execPllUnlock (cloud : Option Nat) (s : State) : Out :=
  match cloud with
  | none => .next (s.assertLevel srcPllCore masterNone accNone 0 0)
  | some c =>
    unitOk s (c < s.variant.clouds) <|
      if s.mode.mode = .reset ∨ ¬ (s.cloud c).pllLock ∨ (s.cloud c).relock then s
      else (s.modCloud c (fun k => { k with pllLock := false })).assertLevel srcPllCloud
        (BitVec.ofNat 10 (c * 16)) accNone (BitVec.ofNat 32 c) 0

/-- REFERENCE_LOSS (R352): the field reference is missing or off frequency. -/
def execReferenceLoss (s : State) : Out :=
  .next (s.assertLevel srcRefClk masterNone accNone 0 0)

/-- FAULT_N_READBACK (R368): FAULT_N reads back, for 1 µs, a level other than the one driven. -/
def execFaultNReadback (s : State) : Out :=
  .next <| match s.faultN with
    | none => s
    | some b =>
      { s with fio := { s.fio with faultExt := some (!b) } }.assertLevel srcFaultnRb masterDma accNone 0
        (BitVec.ofNat 32 (levelCode (some b)))

/-! ### Clearing (R353, R373, R374) -/

/-- A write of FLT_PEND (R373): a 1 clears its bit unless the source asserts. -/
def State.writeFltPend (s : State) (i : Nat) (v : Word) : State :=
  (upTo 32).foldl (fun s j =>
    if v.getLsbD j ∧ ¬ s.asserting (i * 32 + j)
    then s.setReg (aFltPend i) (s.reg (aFltPend i) &&& ~~~((1 : Word) <<< j)) else s) s

/-- FLT_PEND_WRITE (R373). -/
def execFltPendWrite (i : Nat) (v : Word) (s : State) : Out :=
  unitOk s (i < 3) (if s.hostWrites (aFltPend i) then s.writeFltPend i v else s)

/-- A write of FLT_REC_INFO (R374): a 1 to valid clears the record and its MORE, unless a pending bit of
the class is set. -/
def State.writeFltRec (s : State) (c : Nat) (v : Word) : State :=
  if v.getLsbD 31 ∧ ¬ s.pendClass c then
    let s := (s.setReg (aFltRecTlo c) 0).setReg (aFltRecThi c) 0
    let s := (s.setReg (aFltRecInfo c) 0).setReg (aFltRecAddr c) 0
    (s.setReg (aFltRecSyn c) 0).setReg (aFltRecMore c) 0
  else s

/-- FLT_REC_INFO_WRITE (R374). -/
def execFltRecInfoWrite (c : Nat) (v : Word) (s : State) : Out :=
  unitOk s (c < 3) (s.ownWrite (aFltRecInfo c) v (s.writeFltRec c v))

/-- A write of FLT_SRC (R353): react takes a permitted code, outside RUN, DEGRADED, HALT and SAFE. -/
def State.writeFltSrc (s : State) (n : Nat) (v : Word) : State :=
  if s.running ∨ s.mode.mode = .safe ∨ ¬ srcAllows n (fld v 2 0) then s
  else s.setRegF (aFltSrc n) 2 0 (fld v 2 0)

/-- FLT_SRC_WRITE (R353). -/
def execFltSrcWrite (n : Nat) (v : Word) (s : State) : Out :=
  unitOk s (n < 96) <|
    if s.running ∨ s.mode.mode = .safe then s else s.ownWrite (aFltSrc n) v (s.writeFltSrc n v)

/-! ### FLT_CMD (R362, R363) -/

/-- The status of a FLT_CMD command; done reads 1 again. -/
def State.fltStatus (s : State) (x : Nat) : State := s.setRegF aFltCmd 14 12 x

/-- CLEAR_COUNTS: every FLT_SRC.count becomes 0. -/
def State.clearCounts (s : State) : State :=
  ((upTo 96).foldl (fun s n => s.setRegF (aFltSrc n) 31 16 0) s).fltStatus 0

/-- FLT_CLEAR_COUNTS (R352). -/
def execFltClearCounts (s : State) : Out := .next (if s.hostWrites aFltCmd then s.clearCounts else s)

/-- Why a restart is refused (R362): 0 when it is not. -/
def State.restartStatus (s : State) (p : Nat) : Nat :=
  let lids := (upTo s.variant.lcells).filter (fun l => (s.partition p).cells.getLsbD l)
  if ¬ s.flt.faulted.getLsbD p then 1
  else if s.pairs?.any (fun q => s.partOf q.2.2.1 = some p && decide (s.pairState q.1 q.2.1 ≠ 1)) then 2
  else if lids.any (fun l => (s.placeOf l).isNone) then 3
  else if s.fatal then 4
  else 0

/-- The credits of the entries of a cell's queues that a purge empties (R238). -/
def Cell.queueCredits (c : Cell) : List (Option Credit) :=
  c.inQ.map (fun x => match x with
    | .network _ _ q | .returned _ q | .grant _ _ q => q
    | .own _ => none)
    ++ c.preQ.map Prod.snd

/-- A cell of a partition that restarts holds no token, no firing and no message to its spill engine but a purge; its spill
counters are 0 (R363, R68). -/
def Cell.wiped (c : Cell) : Cell :=
  { c with
    store := [], spillCnt := [], sweep := none, inQ := [], schedQ := [], readyQ := [], preQ := [], trapQ := []
    prefetch := none
    houseQ := c.houseQ.filter (fun h => h.what ≠ .engine), tags := c.tags.filter (fun o => o.what ≠ .engine) }

/-- A packet of a cloud's spill engine carries a token of a cell that a test names, or a message of such a cell (R274). -/
def Packet.ofEngine (p : Packet) (cells lids : Nat → Bool) : Bool :=
  match p.cargo with
  | .plain (.request r) => r.unit = 2 && r.op ≠ 0x65 && cells (r.rcloud.toNat * 16 + r.rcell.toNat)
  | .plain (.token t) => t.spilled && lids t.cell.toNat
  | .plain (.preMatched t _ _ _ _ _) => lids t.cell.toNat
  | _ => false

/-- The tokens of a partition's cells are purged at every level, in every matching slot and on their way between them (R363
step 1); nothing is reported. A token of another partition moves up into each level-2 entry that frees (R72). -/
def State.wipeTokens (s : State) (p : Nat) : State :=
  let cells := s.cellsOf p
  let mine (q : Nat) : Bool := decide (q ∈ cells)
  let lid (l : Nat) : Bool := decide (l < s.variant.lcells) && (s.partition p).cells.getLsbD l
  let gone (e : Nat × Entry) : Bool := lid e.2.tok.cell.toNat
  let moving (q : Packet) : Bool := q.ofEngine mine lid
  let credits := cells.flatMap (fun q => (s.cell q).queueCredits)
    ++ (s.jet.flight.filter moving).map Packet.credit
    ++ s.clouds.flatMap (fun k => (k.2.engineQ.filter (fun r => r.op ≠ 0x65
      && mine (r.rcloud.toNat * 16 + r.rcell.toNat))).map Request.credit)
  let freed := s.clouds.flatMap (fun k => (k.2.l2.filter gone).map (fun e => (k.1, e.1)))
  let s := s.modCells p Cell.wiped
  let s := s.mapClouds (fun c k => { k with
    l2 := k.l2.filter (fun e => !gone e), l3 := k.l3.filter (fun e => !gone e)
    left := k.left.filter (fun e => !mine (c * 16 + e.1 / 256))
    engineQ := k.engineQ.filter (fun r => r.op = 0x65 || !mine (r.rcloud.toNat * 16 + r.rcell.toNat))
    engineOut := k.engineOut.filter (fun q => !moving q) })
  let s := { s with jet := { s.jet with flight := s.jet.flight.filter (fun q => !moving q) } }
  let s := credits.foldl (fun s q => s.giveBack q) s
  freed.foldl (fun s x => s.moveUp x.1 x.2) s

/-- A restart of a FAULTED partition (R363): tokens purged, flags cleared, a Scheduled partition's directory
entries and presets written again and its state WAIT. -/
def State.restartPart (s : State) (p : Nat) : State :=
  let s := s.wipeTokens p
  let s := (upTo 4096).foldl (fun s f =>
    if s.flowPart f = some p ∨ s.schedPart f = some p then s.setFlowW f 2 0 else s) s
  let s := if (s.partition p).sched then
      let s := (s.putRecords (s.part p).records).restorePresets p
      let s := s.modCells p (fun c => { c with engine := { c.engine with good := [], trapped := [] } })
      s.modPart p (fun q => { q with
        state := if s.mode.halted.getLsbD p then .halted else .wait
        resumeAt := s.zen.count + 50000, haltAsk := false })
    else s
  ({ s with flt := { s.flt with faulted := s.flt.faulted &&& ~~~((1 : BitVec 8) <<< p) } }).settle

/-- The command RESTART (R362). -/
def State.restart (s : State) (p : Nat) : State :=
  let s := s.setRegF aFltCmd 10 8 p
  match s.restartStatus p with
  | 0 => (s.restartPart p).fltStatus 0
  | x => s.fltStatus x

/-- RESTART (R362, R363). -/
def execRestart (p : BitVec 3) (s : State) : Out := .next (if s.hostWrites aFltCmd then s.restart p.toNat else s)

end Sys2Proof.Machine
end

