-- ==== Sys2Proof/Machine/JitDecode.lean ====
section
/-! DEFINITION. The Jithar decoder (R84 to R89, R98 to R102, R110 to R112, R117): from an instruction
word to an operation with its fields, or nothing for an undefined encoding. -/

namespace Sys2Proof.Machine

/-- The Jithar operations: one for each row of the table, and FENCE, which the table has no row for. -/
inductive Opc where
  | add | sub | addi | adds | subs | and | or | xor | andi | ori | xori | not | shl | shr | sar
  | shli | shri | sari | rol | ror | slt | sltu | slti | min | max | minu | maxu | abs | abss
  | neg | clz | mov | sextb | sexth | zextb | zexth | movi | movhi | movS | moviS | addS | subS
  | addiS | subiS | beqzS | bnezS | sendS | mul | mulu | macc | maccs | div | divu | beq | bne
  | blt | bge | bltu | bgeu | beqz | bnez | bltz | bgez | bgtz | blez | j | jr | call | callr
  | ret | nop | endStrand | endr | brk | fencei | trap | rep | repu | ldw | ldh | ldhu | ldb
  | ldbu | ldd | stw | sth | stb | std | swp | lck | tlck | unl | sti | stiH | stiW | stiWh
  | send | sendc | sendcn | sendx | sendt | evs | iter | fence
  deriving DecidableEq, Repr

/-- A decoded instruction. A store's data register and the condition of SENDC stand in rs2, the value
of a send in rs1. -/
structure Ins where
  op   : Opc
  rd   : Nat := 0
  rs1  : Nat := 0
  rs2  : Nat := 0
  /-- The immediate or offset, extended as R101 and R102 state. -/
  imm  : Word := 0
  port : BitVec 2 := 0
  /-- The order option of SEND. -/
  ord  : Bool := false
  /-- The window shift of CALL and CALLR. -/
  sh   : Nat := 0
  len  : Nat := 2
  deriving DecidableEq, Repr

/-! ### Which fields an operation uses -/

/-- The operation reads the register in rs1. -/
def Opc.readsA (o : Opc) : Bool :=
  o ∉ [.movi, .movhi, .moviS, .j, .call, .ret, .nop, .endStrand, .endr, .brk, .fencei, .trap, .rep,
    .repu, .iter, .fence]

/-- The operation reads the register in rs2. -/
def Opc.readsB (o : Opc) : Bool :=
  o ∈ [.add, .sub, .adds, .subs, .and, .or, .xor, .shl, .shr, .sar, .rol, .ror, .slt, .sltu, .min,
    .max, .minu, .maxu, .addS, .subS, .mul, .mulu, .macc, .maccs, .div, .divu, .beq, .bne, .blt,
    .bge, .bltu, .bgeu, .stw, .sth, .stb, .std, .swp, .sti, .stiH, .stiW, .stiWh, .sendc, .sendcn,
    .sendx, .sendt]

/-- The operation writes the register in rd. -/
def Opc.writesD (o : Opc) : Bool :=
  o ∈ [.add, .sub, .addi, .adds, .subs, .and, .or, .xor, .andi, .ori, .xori, .not, .shl, .shr, .sar,
    .shli, .shri, .sari, .rol, .ror, .slt, .sltu, .slti, .min, .max, .minu, .maxu, .abs, .abss, .neg,
    .clz, .mov, .sextb, .sexth, .zextb, .zexth, .movi, .movhi, .movS, .moviS, .addS, .subS, .addiS,
    .subiS, .ldw, .ldh, .ldhu, .ldb, .ldbu, .ldd, .swp, .lck, .tlck, .iter]

/-- A load. -/
def Opc.isLoad (o : Opc) : Bool := o ∈ [.ldw, .ldh, .ldhu, .ldb, .ldbu, .ldd]

/-- A store. -/
def Opc.isStore (o : Opc) : Bool := o ∈ [.stw, .sth, .stb, .std]

/-- A multiply (R105). -/
def Opc.isMul (o : Opc) : Bool := o ∈ [.mul, .mulu, .macc, .maccs]

/-- An operation that a strand fired as a single node may not be (R87). -/
def Opc.transfers (o : Opc) : Bool :=
  o ∈ [.beq, .bne, .blt, .bge, .bltu, .bgeu, .beqz, .bnez, .bltz, .bgez, .bgtz, .blez, .beqzS,
    .bnezS, .j, .jr, .call, .callr, .ret, .rep, .repu]

/-! ### Fields -/

/-- A sign-extended field of n bits. -/
def sext (n : Nat) (v : Nat) : Word := (BitVec.ofNat n v).signExtend 32

/-- A register number that exists (R89). -/
def regOk (r : Nat) : Bool := decide (r < 48)

/-- A register number that may be a destination: TG is read-only (R93). -/
def dstOk (r : Nat) : Bool := decide (r < 48) && decide (r ≠ 46)

/-- A register that LDD, STD and SENDX may name (R117). -/
def pairOk (r : Nat) : Bool := decide (r < 40) && decide (r % 2 = 0)

/-- An instruction, where a condition on its encoding holds. -/
def insIf (ok : Bool) (i : Ins) : Option Ins := if ok then some i else none

/-- The 16-bit forms (R101). -/
def decode16 (w : Word) : Option Ins :=
  let a := fld w 11 8
  let b := fld w 7 4
  let c := fld w 3 0
  match fld w 15 12 with
  | 0 =>
    let z := decide (b = 0 ∧ c = 0)
    match a with
    | 1 => insIf z { op := .nop, len := 1 }
    | 2 => insIf z { op := .endStrand, len := 1 }
    | 3 => insIf z { op := .endr, len := 1 }
    | 4 => insIf z { op := .brk, len := 1 }
    | _ => none
  | 1 => insIf (c = 0) { op := .movS, rd := a, rs1 := b, len := 1 }
  | 2 => insIf (b = 0) { op := .moviS, rd := a, imm := BitVec.ofNat 32 c, len := 1 }
  | 3 => some { op := .addS, rd := a, rs1 := b, rs2 := c, len := 1 }
  | 4 => some { op := .subS, rd := a, rs1 := b, rs2 := c, len := 1 }
  | 5 => some { op := .addiS, rd := a, rs1 := b, imm := BitVec.ofNat 32 c, len := 1 }
  | 6 => some { op := .subiS, rd := a, rs1 := b, imm := BitVec.ofNat 32 c, len := 1 }
  | 7 => some { op := .beqzS, rs1 := a, imm := sext 8 (fld w 7 0), len := 1 }
  | 8 => some { op := .bnezS, rs1 := a, imm := sext 8 (fld w 7 0), len := 1 }
  | 9 => some { op := .sendS, rs1 := a, port := BitVec.ofNat 2 (fld w 7 6)
                imm := sext 6 (fld w 5 0), len := 1 }
  | _ => none

/-- An element of a list of operations by number. -/
def opAt (os : List Opc) (n : Nat) : Option Opc := os[n]?

/-- The R-format arithmetic of majors 0x00 to 0x02 (R102). -/
def decodeArith (w : Word) : Option Ins :=
  let rs1 := fld w 31 26
  let rs2 := fld w 25 20
  let fn := fld w 19 16
  let rd := fld w 7 2
  let ok := decide (fld w 1 0 = 0) && regOk rs1
  match fld w 13 8 with
  | 0x00 =>
    (opAt [.add, .sub, .and, .or, .xor, .shl, .shr, .sar, .adds, .subs, .slt, .sltu, .min, .max,
      .minu, .maxu] fn).bind fun o => insIf (ok && regOk rs2 && dstOk rd) { op := o, rd, rs1, rs2 }
  | 0x01 =>
    (opAt [.abs, .abss, .neg, .not, .clz, .mov, .sextb, .sexth, .zextb, .zexth, .rol, .ror] fn).bind
      fun o => insIf (ok && (if fn < 10 then decide (rs2 = 0) else regOk rs2) && dstOk rd)
        { op := o, rd, rs1, rs2 }
  | _ =>
    (opAt [.mul, .mulu, .macc, .maccs, .div, .divu] fn).bind fun o =>
      insIf (ok && regOk rs2 && decide (rd = 0)) { op := o, rs1, rs2 }

/-- The immediate arithmetic of majors 0x04 to 0x06 (R102). -/
def decodeImm (w : Word) : Option Ins :=
  let rs1 := fld w 31 26
  let imm10 := fld w 25 16
  let rd := fld w 7 2
  let sub := fld w 1 0
  let ok := regOk rs1 && dstOk rd
  let sx := sext 10 imm10
  let zx := BitVec.ofNat 32 imm10
  match fld w 13 8, sub with
  | 0x04, 0 => insIf ok { op := .addi, rd, rs1, imm := sx }
  | 0x04, 1 => insIf ok { op := .andi, rd, rs1, imm := zx }
  | 0x04, 2 => insIf ok { op := .ori, rd, rs1, imm := zx }
  | 0x04, _ => insIf ok { op := .xori, rd, rs1, imm := zx }
  | 0x05, 0 => insIf (ok && decide (imm10 < 64)) { op := .shli, rd, rs1, imm := zx }
  | 0x05, 1 => insIf (ok && decide (imm10 < 64)) { op := .shri, rd, rs1, imm := zx }
  | 0x05, 2 => insIf (ok && decide (imm10 < 64)) { op := .sari, rd, rs1, imm := zx }
  | 0x05, _ => insIf ok { op := .slti, rd, rs1, imm := sx }
  | 0x06, 0 => insIf (dstOk rd) { op := .movi, rd, imm := sext 16 (fld w 31 16) }
  | 0x06, 1 => insIf (dstOk rd) { op := .movhi, rd, imm := BitVec.ofNat 32 (fld w 31 16) }
  | _, _ => none

/-- Branches, jumps and calls, majors 0x08 to 0x0C (R102). -/
def decodeFlow (w : Word) : Option Ins :=
  let rs1 := fld w 31 26
  let f := fld w 7 2
  let cond := fld w 1 0
  let off10 := sext 10 (fld w 25 16)
  let off16 := sext 16 (fld w 31 16)
  let sh := fld w 25 20
  match fld w 13 8 with
  | 0x08 => (opAt [.beq, .bne, .blt, .bge] cond).bind fun o =>
      insIf (regOk rs1 && regOk f) { op := o, rs1, rs2 := f, imm := off10 }
  | 0x09 => (opAt [.bltu, .bgeu] cond).bind fun o =>
      insIf (regOk rs1 && regOk f) { op := o, rs1, rs2 := f, imm := off10 }
  | 0x0A => (opAt [.beqz, .bnez, .bltz, .bgez] cond).bind fun o =>
      insIf (regOk f) { op := o, rs1 := f, imm := off16 }
  | 0x0B =>
    match cond with
    | 0 => insIf (regOk f) { op := .bgtz, rs1 := f, imm := off16 }
    | 1 => insIf (regOk f) { op := .blez, rs1 := f, imm := off16 }
    | 2 => insIf (f = 0) { op := .j, imm := off16 }
    | _ => insIf (decide (8 ≤ f ∧ f ≤ 31)) { op := .call, imm := off16, sh := f }
  | _ =>
    let z := decide (f = 0 ∧ cond = 0)
    let z1 := z && decide (rs1 = 0)
    let z2 := z1 && decide (sh = 0)
    match fld w 19 16 with
    | 0 => insIf z2 { op := .nop }
    | 1 => insIf z2 { op := .endStrand }
    | 2 => insIf z2 { op := .endr }
    | 3 => insIf z2 { op := .ret }
    | 4 => insIf (z && regOk rs1 && decide (sh = 0)) { op := .jr, rs1 }
    | 5 => insIf (z && regOk rs1 && decide (8 ≤ sh ∧ sh ≤ 31)) { op := .callr, rs1, sh }
    | 6 => insIf z2 { op := .fence }
    | 7 => insIf z2 { op := .fencei }
    | 8 => insIf z2 { op := .brk }
    | _ => none

/-- TRAP and the repeats, major 0x0D (R102, R110); the immediate keeps n, and the step bits
in [9:7]. -/
def decodeRepeat (w : Word) : Option Ins :=
  let rs1 := fld w 31 26
  let imm := BitVec.ofNat 32 (fld w 25 16)
  let rd0 := decide (fld w 7 2 = 0)
  let n0 := decide (fld w 22 22 = 0)
  match fld w 1 0 with
  | 0 => insIf (rd0 && decide (rs1 = 0)) { op := .trap, imm }
  | 1 => insIf (rd0 && decide (rs1 = 0) && n0) { op := .rep, imm, sh := 1 }
  | 2 => insIf (rd0 && regOk rs1 && n0 && decide (fld w 21 16 = 0)) { op := .rep, rs1, imm, sh := 2 }
  | _ => insIf (rd0 && decide (rs1 = 0) && n0) { op := .repu, imm, sh := 1 }

/-- Loads, stores, atomic operations and STI, majors 0x10 to 0x14 (R102, R117). -/
def decodeMem (w : Word) : Option Ins :=
  let rs1 := fld w 31 26
  let rs2 := fld w 25 20
  let r := fld w 7 2
  let sub := fld w 1 0
  let imm := sext 10 (fld w 25 16)
  match fld w 13 8 with
  | 0x10 => (opAt [.ldw, .ldh, .ldhu, .ldb] sub).bind fun o =>
      insIf (regOk rs1 && dstOk r) { op := o, rd := r, rs1, imm }
  | 0x11 =>
    match sub with
    | 0 => insIf (regOk rs1 && dstOk r) { op := .ldbu, rd := r, rs1, imm }
    | 1 => insIf (regOk rs1 && pairOk r) { op := .ldd, rd := r, rs1, imm }
    | _ => none
  | 0x12 =>
    match sub with
    | 0 => insIf (regOk rs1 && regOk r) { op := .stw, rs1, rs2 := r, imm }
    | 1 => insIf (regOk rs1 && regOk r) { op := .sth, rs1, rs2 := r, imm }
    | 2 => insIf (regOk rs1 && regOk r) { op := .stb, rs1, rs2 := r, imm }
    | _ => insIf (regOk rs1 && pairOk r) { op := .std, rs1, rs2 := r, imm }
  | 0x13 =>
    let ok := decide (sub = 0) && regOk rs1
    match fld w 19 16 with
    | 0 => insIf (ok && regOk rs2 && dstOk r) { op := .swp, rd := r, rs1, rs2 }
    | 1 => insIf (ok && decide (rs2 = 0) && dstOk r) { op := .lck, rd := r, rs1 }
    | 2 => insIf (ok && decide (rs2 = 0) && dstOk r) { op := .tlck, rd := r, rs1 }
    | 3 => insIf (ok && decide (rs2 = 0 ∧ r = 0)) { op := .unl, rs1 }
    | _ => none
  | _ =>
    (opAt [.sti, .stiH, .stiW, .stiWh] (fld w 19 16)).bind fun o =>
      insIf (decide (sub = 0 ∧ r = 0) && regOk rs1 && regOk rs2) { op := o, rs1, rs2 }

/-- Tokens and flows, majors 0x18 to 0x1C (R102). -/
def decodeSend (w : Word) : Option Ins :=
  let hi := fld w 31 26
  let rs2 := fld w 25 20
  let r := fld w 7 2
  let lo := fld w 1 0
  let off := sext 10 (fld w 25 16)
  match fld w 13 8 with
  | 0x18 => insIf (regOk r && decide (lo < 2))
      { op := .send, rs1 := r, imm := BitVec.ofNat 32 (fld w 31 18)
        port := BitVec.ofNat 2 (fld w 17 16), ord := lo = 1 }
  | 0x19 => insIf (regOk hi && regOk r)
      { op := .sendc, rs1 := r, rs2 := hi, imm := off, port := BitVec.ofNat 2 lo }
  | 0x1A => insIf (regOk hi && regOk r)
      { op := .sendcn, rs1 := r, rs2 := hi, imm := off, port := BitVec.ofNat 2 lo }
  | 0x1B =>
    let z := decide (lo = 0 ∧ r = 0) && regOk hi
    match fld w 19 16 with
    | 0 => insIf (z && regOk rs2) { op := .sendt, rs1 := hi, rs2 }
    | 1 => insIf (z && pairOk rs2) { op := .sendx, rs1 := hi, rs2 }
    | _ => none
  | _ =>
    match lo with
    | 0 => insIf (regOk hi && decide (r = 0 ∧ fld w 25 21 = 0))
        { op := .evs, rs1 := hi, imm := BitVec.ofNat 32 (fld w 20 16) }
    | 1 => insIf (decide (hi = 0 ∧ fld w 25 16 = 0) && dstOk r) { op := .iter, rd := r }
    | _ => none

/-- The instruction that a word encodes; its first parcel stands in bits [15:0] (R84, R85). -/
def decodeIns (w : Word) : Option Ins :=
  if wordLen w = 1 then decode16 w
  else
    match fld w 13 8 with
    | 0x00 | 0x01 | 0x02 => decodeArith w
    | 0x04 | 0x05 | 0x06 => decodeImm w
    | 0x08 | 0x09 | 0x0A | 0x0B | 0x0C => decodeFlow w
    | 0x0D => decodeRepeat w
    | 0x10 | 0x11 | 0x12 | 0x13 | 0x14 => decodeMem w
    | 0x18 | 0x19 | 0x1A | 0x1B | 0x1C => decodeSend w
    | _ => none

/-! ### Repeat bodies (R112) -/

/-- An operation that a repeat may have as its body. -/
def Opc.bodyOk (o : Opc) : Bool :=
  (o.writesD && o ∉ [.swp, .lck, .tlck, .iter]) || o.isStore || o.isMul

/-- A step bit may be set for a register field: the body uses it, and it names a window register. -/
def stepOk (bit used : Bool) (r : Nat) : Bool := !bit || (used && decide (r < 32))

/-- The body of a repeat is permitted with its step bits sa, sb and sd. -/
def bodyPermitted (b : Ins) (sa sb sd : Bool) : Bool :=
  b.op.bodyOk &&
    (if b.op.isLoad then !sb && stepOk sd true b.rd
     else if b.op.isStore then stepOk sb true b.rs2 && !sd
     else stepOk sa b.op.readsA b.rs1 && stepOk sb b.op.readsB b.rs2
       && stepOk sd b.op.writesD b.rd)

/-- The instruction that a strand issues next; none where it raises UDF (R87, R100, R112). -/
def Cell.decodeAt (c : Cell) (t : Strand) : Option Ins :=
  match decodeIns (c.fetchWord t) with
  | none => none
  | some i =>
    if t.single ∧ i.op.transfers then none
    else if i.op = .rep ∨ i.op = .repu then
      match decodeIns (c.fetchWord { t with pc := t.pc + 2 }) with
      | none => none
      | some b =>
        insIf (bodyPermitted b (i.imm.getLsbD 7) (i.imm.getLsbD 8) (i.imm.getLsbD 9)) i
    else some i

end Sys2Proof.Machine
end

