-- ==== Sys2Proof/Machine/Operands.lean ====
section
/-! DEFINITION. The operands of a Jithar instruction: reading and writing registers (R89 to R95,
R325), the stepped fields of a repeat (R111), and the issue of the instruction that a strand in a slot
has at its program counter (R138). -/

namespace Sys2Proof.Machine

/-! ### Registers -/

/-- The frame-store word of window register r (R95). -/
def Strand.windowWord (t : Strand) (r : Nat) : Nat := (t.b.toNat + r) % 16384

/-- The poison key of a frame store (R272). -/
def framePoison (pcell : Nat) : Nat := 32 + pcell

/-- The core cycles of one cycle of a cell: 2 in a cloud at 500 MHz (R31). -/
def State.cellCycle (s : State) (pcell : Nat) : Nat := if (s.cloud (pcell / 16)).slowAct then 2 else 1

/-- Every strand that issues now sees a write of a global: it issued 3 cycles before. A cell issues at most once a cycle,
so the third issue after the write comes no earlier (R94, R138). -/
def GlobalWrite.seenByAll (w : GlobalWrite) (now span : Nat) : Bool :=
  decide (3 ≤ w.age) || decide (w.cycle + 3 * span ≤ now)

/-- A strand that issues now sees a write of a global: its own, or one that every strand sees (R94). -/
def GlobalWrite.seenBy (w : GlobalWrite) (uid now span : Nat) : Bool :=
  decide (w.uid = uid) || w.seenByAll now span

/-- The value of a global that a strand sees, under the latest write that it sees (R94). -/
def globalUnder (uid now span : Nat) : List GlobalWrite → Word → Word
  | [], v => v
  | w :: rest, v => if w.seenBy uid now span then v else globalUnder uid now span rest w.old

/-- A global as a strand that issues now reads it (R94). -/
def State.readGlobal (s : State) (pcell : Nat) (t : Strand) (g : Nat) : Word :=
  globalUnder t.uid s.zen.cycle (s.cellCycle pcell) ((s.cell pcell).lately.filter (fun w => w.reg = g))
    (tget (fun _ => 0) (s.cell pcell).globals g)

/-- An instruction that issues is about to write a register: of a global, other strands see the old value a while (R94). -/
def State.noteGlobal (s : State) (pcell : Nat) (t : Strand) (r : Nat) : State :=
  if 32 ≤ r ∧ r < 40 then
    s.modCell pcell (fun c => { c with lately :=
      { reg := r - 32, old := tget (fun _ => 0) c.globals (r - 32), uid := t.uid, cycle := s.zen.cycle, age := 0 }
        :: c.lately })
  else s

/-- x[r] as a strand in a slot reads it (R89, R90). -/
def State.readReg (s : State) (pcell slot : Nat) (t : Strand) (r : Nat) : Word :=
  let c := s.cell pcell
  if r < 32 then c.word (t.windowWord r)
  else if r < 40 then s.readGlobal pcell t (r - 32)
  else match r with
    | 40 => t.lk
    | 41 => t.pl
    | 42 => t.ph
    | 43 => t.qt
    | 44 => t.md
    | 45 => t.rc
    | 46 => t.tg
    | 47 => s.ssOf pcell t slot
    | _ => 0

/-- A special of a strand written (R90, R93). -/
def Strand.writeSpecial (t : Strand) (r : Nat) (v : Word) : Strand :=
  match r with
  | 40 => { t with lk := v }
  | 41 => { t with pl := v }
  | 42 => { t with ph := v }
  | 43 => { t with qt := v }
  | 44 => { t with md := v }
  | 45 => { t with rc := v }
  | 47 => { t with user := BitVec.ofNat 8 (fld v 31 24) }
  | _ => t

/-- x[r] := v (R89 to R94). A window word that is written whole is no longer poisoned (R272). -/
def State.writeReg (s : State) (pcell : Nat) (t : Strand) (r : Nat) (v : Word) : State × Strand :=
  if r < 32 then
    let w := t.windowWord r
    ((s.modCell pcell (fun c => c.putWord w v)).clearPoison (framePoison pcell) w, t)
  else if r < 40 then
    (s.modCell pcell (fun c => { c with globals := tset (fun _ => 0) c.globals (r - 32) v }), t)
  else (s, t.writeSpecial r v)

/-! ### Stepped fields (R111) -/

/-- A stepped register field; none where it leaves 0 to 31. -/
def stepReg (bit : Bool) (r k : Nat) : Option Nat :=
  if ¬ bit then some r else if r + k < 32 then some (r + k) else none

/-- The size of an access in bytes. -/
def Opc.size (o : Opc) : Nat :=
  match o with
  | .ldd | .std => 8
  | .ldw | .stw | .swp => 4
  | .ldh | .ldhu | .sth => 2
  | .ldb | .ldbu | .stb => 1
  | _ => 4

/-- The instruction with every stepped field advanced by the repetition index; none where a stepped
register number leaves the window (R111). -/
def Strand.stepped (t : Strand) (i : Ins) : Option Ins :=
  if ¬ t.rep then some i
  else
    let k := t.k.toNat
    let sa := t.steps.getLsbD 0
    let sb := t.steps.getLsbD 1
    let sd := t.steps.getLsbD 2
    let mem := i.op.isLoad || i.op.isStore
    let kr := if i.op = .ldd ∨ i.op = .std then 2 * k else k
    match stepReg (sa && !mem) i.rs1 k, stepReg sb i.rs2 kr, stepReg sd i.rd kr with
    | some a, some b, some d =>
      some { i with
        rs1 := a, rs2 := b, rd := d
        imm := if mem ∧ sa then i.imm + BitVec.ofNat 32 (k * i.op.size) else i.imm }
    | _, _, _ => none

/-- The register number that has left the window (R111), the offending operand of the LIMIT (R145): of rs1, rs2 and rd the
first where several leave at once (DESIGN CHOICE: log entry 150). -/
def Strand.badStep (t : Strand) (i : Ins) : Nat :=
  let k := t.k.toNat
  let kr := if i.op = .ldd ∨ i.op = .std then 2 * k else k
  if t.steps.getLsbD 0 ∧ ¬ (i.op.isLoad ∨ i.op.isStore) ∧ 32 ≤ i.rs1 + k then i.rs1 + k
  else if t.steps.getLsbD 1 ∧ 32 ≤ i.rs2 + kr then i.rs2 + kr
  else i.rd + kr

/-! ### Issue (R138) -/

/-- What an instruction has at hand when it executes: the state before it, its strand, its fields, and
the values of its sources. -/
structure Ctx where
  s     : State
  pcell : Nat
  slot  : Nat
  t     : Strand
  ins   : Ins
  /-- x[rs1] and x[rs2]. -/
  a     : Word
  b     : Word

/-- The instruction traps (R135): a pending multiply is written, nothing else of it happens. -/
def Ctx.trap (x : Ctx) (cause : TrapCause) (info : Word) (write : Bool := false) (code : Nat := 0) :
    State :=
  x.s.trapStrand x.pcell x.slot x.t.flushMul cause code info write

/-- The instruction is complete and execution goes on in sequence. -/
def Ctx.next (x : Ctx) : State :=
  x.s.completeInstr x.pcell x.slot (x.t.flushMul.advance x.ins.len none) false

/-- The instruction is complete and control goes to an address (R109). -/
def Ctx.jump (x : Ctx) (a : BitVec 14) : State :=
  x.s.completeInstr x.pcell x.slot (x.t.flushMul.advance x.ins.len (some a)) false

/-- The instruction writes x[rd] and is complete; a pending multiply's update replaces a write of PL
or PH (R106). -/
def Ctx.write (x : Ctx) (v : Word) : State :=
  let (s, t) := (x.s.noteGlobal x.pcell x.t x.ins.rd).writeReg x.pcell x.t x.ins.rd v
  s.completeInstr x.pcell x.slot (t.flushMul.advance x.ins.len none) false

/-- The window words that an instruction reads (R95). -/
def windowReads (i : Ins) : List Nat :=
  let pair := i.op = .std ∨ i.op = .sendx
  ((if i.op.readsA then [i.rs1] else []) ++ (if i.op.readsB then [i.rs2] else [])
    ++ (if i.op.readsB ∧ pair then [i.rs2 + 1] else [])
    ++ (if i.op = .movhi then [i.rd] else [])).filter (· < 32)

/-- The byte address of the first poisoned window word that an instruction reads (R272). -/
def State.poisonHit (s : State) (pcell : Nat) (t : Strand) (i : Ins) : Option Word :=
  ((windowReads i).find? (fun r => s.poisoned (framePoison pcell) (t.windowWord r))).map
    (fun r => BitVec.ofNat 32 (4 * t.windowWord r))

/-- The poison key of an instruction store, whose words are two parcels (R272, R298). -/
def codePoison (pcell : Nat) : Nat := 1024 + pcell

/-- The byte address of the first poisoned word of the instruction store that an instruction is fetched from (R272). -/
def State.fetchPoison (s : State) (pcell : Nat) (t : Strand) (len : Nat) : Option Word :=
  let a := t.pc.toNat
  ([a / 2, (a + len - 1) % 16384 / 2].find? (fun w => s.poisoned (codePoison pcell) w)).map
    (fun w => BitVec.ofNat 32 (4 * w))

/-- The strand in a slot may issue (R138): the cell runs, the strand waits for no answer, and a
debugger's stop does not hold it. A strand at a BRK waits while the debug list is full (R487), and one held by its
output tries again. -/
def State.eligible (s : State) (pcell : Nat) (t : Strand) : Bool :=
  s.cellRuns pcell && (t.wait = .nothing || t.wait = .brk || t.wait = .output)
    && !(s.cell pcell).heldByStop t

/-- The strand in a slot is eligible and waits for nothing at all, a FENCE included (R138). -/
def State.ready (s : State) (pcell : Nat) (t : Strand) : Bool :=
  s.eligible pcell t && decide ((s.cell pcell).waitNow t = .nothing) && !(isFence ((s.cell pcell).fetchWord t) && !t.rep)

/-- How many slots have issued since a slot last did; a slot that has not issued comes after all (R139). -/
def Cell.issueAge (c : Cell) (slot : Nat) : Nat :=
  (indexOf? (fun e : Nat × Nat => e.1 = slot) c.issued).getD 8

/-- An instruction of the slot can still be in D, X or W (R138): fewer than three issues of the cell follow its last,
and fewer than 4 cycles have passed. The manual's cycles beyond that are not modelled (log entry 14). -/
def State.inPipe (s : State) (pcell slot : Nat) : Bool :=
  (s.cell pcell).issued.take 3 |>.any (fun e => e.1 = slot && decide (s.zen.cycle < e.2 + 4 * s.cellCycle pcell))

/-- A slot issues before another (R139): lower effective class, then smaller sort key, then less recent issue. Of two that
have not issued yet neither comes before, and the lower slot goes first (DESIGN CHOICE: log entry 149). -/
def State.issuesBefore (s : State) (pcell : Nat) (x y : Nat × Strand) : Bool :=
  let c := s.cell pcell
  let kx := sortKey s.now x.2.stamp
  let ky := sortKey s.now y.2.stamp
  decide (c.eclass x.2 < c.eclass y.2)
    || (decide (c.eclass x.2 = c.eclass y.2) && (decide (kx < ky)
      || (decide (kx = ky) && decide (c.issueAge y.1 < c.issueAge x.1))))

/-- The first of several slots by an order. -/
def firstBy (before : Nat × Strand → Nat × Strand → Bool) : List (Nat × Strand) → Option (Nat × Strand)
  | [] => none
  | x :: xs =>
    match firstBy before xs with
    | none => some x
    | some y => if before y x then some y else some x

/-- The slot from which the cell issues next (R138, R139): the best of those with nothing in the pipeline, and where there
is none, the one that leaves the pipeline first. -/
def State.nextIssue (s : State) (pcell : Nat) : Option (Nat × Strand) :=
  let c := s.cell pcell
  let all := c.slots.filter (fun e => s.ready pcell e.2)
  match firstBy (s.issuesBefore pcell) (all.filter (fun e => !s.inPipe pcell e.1)) with
  | some e => some e
  | none => firstBy (fun x y => decide (c.issueAge y.1 < c.issueAge x.1)) all

/-- The slot has its turn: it is the one that issues next, or it tries again what it waits for. -/
def State.mayIssue (s : State) (pcell slot : Nat) (t : Strand) : Bool :=
  s.eligible pcell t && (decide ((s.cell pcell).waitNow t ≠ .nothing) || decide ((s.nextIssue pcell).map Prod.fst = some slot))

/-- The slot has issued (R139), unless the instruction waits for the output of its cell, and so has not (R244). -/
def State.hasIssued (pcell slot : Nat) (s : State) : State :=
  if ((s.cell pcell).strand slot).any (fun t => t.wait = .output) then s
  else s.modCell pcell (fun c =>
    { c with
      issued := (slot, s.zen.cycle) :: c.issued.filter (fun e => e.1 ≠ slot)
      lately := (c.lately.map (fun w => { w with age := w.age + 1 })).filter
        (fun w => !w.seenByAll s.zen.cycle (s.cellCycle pcell)) })

/-- An instruction issues: the strand in the slot has this operation at its program counter. Its
sources are read, a stepped register that leaves the window raises LIMIT, a poisoned window word or a
global write in a paired cell raises ACCESS (R111, R272, R325), and else its own effect follows. A fetch from a poisoned
word of the instruction store raises ACCESS too, with that word's byte address (DESIGN CHOICE: log entry 151). The ACCESS of a
global write has no effective address: H6 holds 0, and the access type is read (DESIGN CHOICE: log entry 128). -/
def State.issue (s : State) (pcell slot : Nat) (op : Opc) (effect : Ctx → State) : Out :=
  unitOk s (pcell < s.variant.pcells ∧ slot < 8) <|
    match (s.cell pcell).strand slot with
    | none => s
    | some t =>
      match (s.cell pcell).decodeAt t with
      | none => s
      | some i =>
        if i.op ≠ op ∨ ¬ s.mayIssue pcell slot t then s
        else
          let t := { t with wait := .nothing }
          let x (i : Ins) : Ctx :=
            { s, pcell, slot, t, ins := i, a := s.readReg pcell slot t i.rs1
              b := s.readReg pcell slot t i.rs2 }
          State.hasIssued pcell slot <| match s.fetchPoison pcell t i.len, t.stepped i with
          | some w, _ => (x i).trap .access w
          | none, none => (x i).trap .limit (BitVec.ofNat 32 (t.badStep i))
          | none, some i =>
            match s.poisonHit pcell t i with
            | some w => (x i).trap .access w
            | none =>
              if i.op.writesD ∧ 32 ≤ i.rd ∧ i.rd < 40 ∧ s.isPaired pcell then (x i).trap .access 0
              else effect (x i)

/-- UNDEFINED_ENCODING (R100, R135): the strand in the slot has an undefined encoding at its program
counter; UDF, with the instruction word in H6. Fetched from a poisoned word it raises ACCESS, as in `State.issue`. -/
def execUndefinedEncoding (pcell slot : Nat) (s : State) : Out :=
  unitOk s (pcell < s.variant.pcells ∧ slot < 8) <|
    match (s.cell pcell).strand slot with
    | none => s
    | some t =>
      let w := (s.cell pcell).fetchWord t
      if ((s.cell pcell).decodeAt t).isSome ∨ ¬ s.mayIssue pcell slot t then s
      else State.hasIssued pcell slot <| match s.fetchPoison pcell t (wordLen w) with
        | some a => s.trapStrand pcell slot t.flushMul .access 0 a false
        | none => s.trapStrand pcell slot t.flushMul .udf 0
          (if wordLen w = 1 then BitVec.ofNat 32 (fld w 15 0) else w) false

/-! ### Values that answers write -/

/-- A strand that has waited completes its instruction, in its slot or in its record (R156): an instruction that sent an
output, or a divide. A step ends with it as it does in a slot (R330, R488). -/
def State.wakeStrand (s : State) (pcell : Nat) (t : Strand) (sent : Bool) : State :=
  let t := { t with wait := .nothing }.advance 2 none
  match (s.cell pcell).slotOf t.uid with
  | some slot => s.completeInstr pcell slot t sent
  | none =>
    if t.single then s.endStrand pcell t
    else if t.stepping ∧ (¬ s.isPaired pcell ∨ sent) then
      (s.modCell pcell (fun c => { c with resume := c.resume.filter (fun u => u.uid ≠ t.uid) })).debugHold pcell
        (fld ((s.cell pcell).word (t.rb.toNat + 9)) 10 8) t
    else s.modCell pcell (fun c =>
      ({ c with resume := c.resume.map (fun u : Strand => if u.uid = t.uid then t else u) }).saveStrand t
        (fld (c.word (t.rb.toNat + 9)) 10 8) 2)

/-- A strand by its number, with the state that its record holds when it is suspended. -/
def Cell.findStrand (c : Cell) (uid : Nat) : Option Strand :=
  match c.slots.find? (fun e => e.2.uid = uid) with
  | some e => some e.2
  | none => (c.resume.find? (fun t => t.uid = uid)).map c.restoreStrand

/-- DIVIDE_COMPLETE (R108): the divide of the strand in a slot writes QT and MD. -/
def execDivideComplete (pcell slot : Nat) (s : State) : Out :=
  unitOk s (pcell < s.variant.pcells ∧ slot < 8) <|
    match (s.cell pcell).strand slot with
    | some t =>
      match t.wait with
      | .divide q r _ =>
        if s.cellRuns pcell then s.wakeStrand pcell { t with qt := q, md := r } false else s
      | _ => s
    | none => s

end Sys2Proof.Machine
end

