-- ==== Sys2Proof/Machine/JitMem.lean ====
section
/-! DEFINITION. The Jithar instructions that reach memory, locks, the instruction store and the
network (R114 to R132), and what their answers and grants do (R185, R190, R276, R277, R285, R317). -/

namespace Sys2Proof.Machine

/-! ### Frame-store accesses (R115, R116) -/

/-- A frame-store word lies inside a strand's current window (R116). -/
def Cell.inWindow (c : Cell) (w : Nat) : Bool :=
  c.strands.any (fun t => decide (t.b.toNat ≤ w ∧ w < t.b.toNat + 32))

/-- The destination of an instruction that waits: 63 where a multiply's update replaces its write
(R152). -/
def Ctx.dest (x : Ctx) : Nat :=
  if x.t.mulPend.isSome ∧ (x.ins.rd = 41 ∨ x.ins.rd = 42) then 63 else x.ins.rd

/-- The effective address of a load or store (R114). -/
def Ctx.ea (x : Ctx) : Word := x.a + x.ins.imm

/-- Why a frame-store access of some bytes is refused, with what H6 then holds: a window word, a
slot-table bank of a Scheduled cell, or a poisoned word (R116, R202, R272). A store that covers its
words whole is not refused for poison. -/
def Ctx.frameRefusal (x : Ctx) (size : Nat) : Option Word :=
  let ea := if x.ins.op = .swp then x.a else x.ea
  let w := ea.toNat / 4
  let ws := if size = 8 then [w, w + 1] else [w]
  if ws.any (fun w => (x.s.cell x.pcell).inWindow w) then some ea
  else if x.s.isSched x.pcell ∧ 12288 ≤ w then some ea
  else if x.ins.op.isStore ∧ 4 ≤ size then none
  else (ws.find? (fun w => x.s.poisoned (framePoison x.pcell) w)).map
    (fun w => BitVec.ofNat 32 (4 * w))

/-- A loaded value: the bytes, sign- or zero-extended (R114). -/
def loaded (size : Nat) (signed : Bool) (v : Nat) : Word :=
  match size with
  | 1 => if signed then sext 8 v else BitVec.ofNat 32 (v % 256)
  | 2 => if signed then sext 16 v else BitVec.ofNat 32 (v % 65536)
  | _ => BitVec.ofNat 32 v

/-- x[rd], and its pair for a doubleword, take a loaded value. -/
def State.putLoaded (s : State) (pcell : Nat) (t : Strand) (rd size : Nat) (signed : Bool)
    (v : Nat) : State × Strand :=
  let (s, t) := s.writeReg pcell t rd (loaded size signed v)
  if size = 8 then s.writeReg pcell t (rd + 1) (BitVec.ofNat 32 (v / 2 ^ 32)) else (s, t)

/-! ### Requests (R118, R239) -/

/-- The place that an access beyond the frame store reaches, with every right it needs (R263, R265). -/
def Ctx.reach (x : Ctx) (ea : Word) (need : Need) (size : Nat) : Option Located :=
  match x.s.partOfCell x.pcell with
  | none => none
  | some p =>
    match x.s.locate (x.s.idOf x.pcell) p ea with
    | some l => if x.s.permits p l need size then some l else none
    | none => none

/-- A paired strand has two outputs that the station has not acknowledged (R317). -/
def Ctx.unackedFull (x : Ctx) : Bool := x.s.isPaired x.pcell && decide (2 ≤ x.t.unacked.length)

/-- A paired strand has made its 256 outputs (R316). -/
def Ctx.outputsSpent (x : Ctx) : Bool := x.s.isPaired x.pcell && decide (256 ≤ x.t.outputs)

/-- The instruction does not issue: its strand waits for its cell's output, as for a remote answer (R239, R244, R317). -/
def Ctx.block (x : Ctx) : State :=
  x.s.modCell x.pcell (fun c => c.putStrand x.slot { x.t with wait := .output })

/-- A request to the unit that serves a place. It is not sent while no tag is free or a paired strand
has two outputs open, and the strand waits for its answer unless it is a store (R118, R239, R317). The LIMIT of a paired
strand's 257th output has no offending operand: H6 holds 0 (R145, R316; DESIGN CHOICE: log entry 131). -/
def Ctx.request (x : Ctx) (l : Located) (op : Byte) (data : BitVec 64) (waits : List WaitRec)
    (what : Pending) : State :=
  let c := x.s.cell x.pcell
  let ea := if x.ins.op.isLoad ∨ x.ins.op.isStore then x.ea else x.a
  match c.freeTag with
  | none => x.block
  | some tag =>
    if x.unackedFull then x.block
    else if x.outputsSpent then x.trap .limit 0
    else
      let (dest, unit, addr) := l.region.server
      let r : Request :=
        { op, addr, data, body := [], rcloud := BitVec.ofNat 5 (x.pcell / 16)
          rcell := BitVec.ofNat 4 (x.pcell % 16), unit, tag := BitVec.ofNat 6 tag, credit := none }
      let (p, t) := x.s.strandPacket x.pcell x.t.flushMul dest .q (.request r)
      let s := x.s.modCell x.pcell (fun c => { c with
        tags := c.tags ++
          [{ tag, head := BitVec.ofNat 16 p.routed.head16, uid := t.uid, what, ea, time := x.s.zen.count }]
        reqQ := c.reqQ ++ [p], waits := c.waits ++ waits })
      match what with
      | .store => s.completeInstr x.pcell x.slot (t.advance 2 none) true
      | _ => s.modCell x.pcell (fun c => c.putStrand x.slot { t with wait := .remote tag })

/-- A load of some bytes (R114, R115, R118). -/
def Ctx.load (x : Ctx) (size : Nat) (signed : Bool) : State :=
  let ea := x.ea
  if ea.toNat % size ≠ 0 then x.trap .align ea
  else if ea.toNat < 0x10000 then
    match x.frameRefusal size with
    | some h6 => x.trap .access h6
    | none =>
      let v := leNat (mread (x.s.cell x.pcell).frame ea.toNat size)
      let s := x.s.noteGlobal x.pcell x.t x.ins.rd
      let s := if size = 8 then s.noteGlobal x.pcell x.t (x.ins.rd + 1) else s
      let (s, t) := s.putLoaded x.pcell x.t x.ins.rd size signed v
      s.completeInstr x.pcell x.slot (t.flushMul.advance 2 none) false
  else if x.t.repu then x.trap .access ea
  else match x.reach ea .read size with
    | none => x.trap .access ea
    | some l => x.request l (loadOp l size) 0 [] (.load x.dest size signed)

/-- The data of a store: the data register, and its pair for a doubleword (R114). -/
def Ctx.storeData (x : Ctx) (size : Nat) : Nat :=
  if size = 8 then
    x.b.toNat + (x.s.readReg x.pcell x.slot x.t (x.ins.rs2 + 1)).toNat * 2 ^ 32
  else x.b.toNat % 2 ^ (8 * size)

/-- A store of some bytes (R114, R115, R118). -/
def Ctx.store (x : Ctx) (size : Nat) : State :=
  let ea := x.ea
  let v := x.storeData size
  if ea.toNat % size ≠ 0 then x.trap .align ea true
  else if ea.toNat < 0x10000 then
    match x.frameRefusal size with
    | some h6 => x.trap .access h6 true
    | none =>
      let s := x.s.modCell x.pcell (fun c => { c with frame := mwrite c.frame ea.toNat (leBytes size v) })
      let w := ea.toNat / 4
      let s := if 4 ≤ size then s.clearPoison (framePoison x.pcell) w else s
      let s := if size = 8 then s.clearPoison (framePoison x.pcell) (w + 1) else s
      { x with s := s }.next
  else if x.t.repu then x.trap .access ea true
  else match x.reach ea .write size with
    | none => x.trap .access ea true
    | some l => x.request l (storeOp l size) (BitVec.ofNat 64 v) [] .store

/-- The lowest-numbered wait record that is free (R285). -/
def Cell.freeWait (c : Cell) : Option Nat :=
  (upTo 16).find? (fun i => c.waits.all (fun w => w.waitId ≠ i))

/-- LCK or TLCK (R120): BUSY without a request where the held-lock table, or for LCK the wait records,
are in use (R286). A Scheduled cell's LCK raises ACCESS (R213). R162 gives the ALIGN and ACCESS traps of LCK, TLCK and
UNL read or write as their type: it is read here, and write for the ACCESS of a FENCE (DESIGN CHOICE: log entry 132). -/
def Ctx.lockOp (x : Ctx) (wait : Bool) : State :=
  let c := x.s.cell x.pcell
  let cls := c.eclass x.t
  if x.a.toNat % 4 ≠ 0 then x.trap .align x.a
  else if wait ∧ x.s.isSched x.pcell then x.trap .access x.a
  else match x.reach x.a .lock 4 with
    | none => x.trap .access x.a
    | some l =>
      if 32 ≤ c.held.length then x.write 2
      else if wait then
        match c.freeWait with
        | none => x.write 2
        | some w =>
          x.request l 0x50 (lockWord (x.s.idOf x.pcell) x.t.flow cls w)
            [{ waitId := w, uid := x.t.uid, flow := x.t.flow, addr := x.a, bank := l.region.bankNo }]
            (.lck x.dest w x.t.flow)
      else x.request l 0x51 (lockWord (x.s.idOf x.pcell) x.t.flow cls 0) [] (.tlck x.dest x.t.flow)

/-! ### The instruction store (R131, R132) -/

/-- A strand's open windows take a parcel as another strand writes it (R133, R142). -/
def Strand.refetch (t : Strand) (a : Nat) (v : BitVec 17) : Strand :=
  { t with stiWins := t.stiWins.map (fun w =>
      { w with parcels := replaceAt w.parcels ((BitVec.ofNat 14 a - w.start).toNat) v }) }

/-- A parcel of the instruction store is written; every strand but its writer executes it as written (R133, R142). -/
def Cell.putParcel (c : Cell) (writer a : Nat) (v : BitVec 17) : Cell :=
  let other (t : Strand) : Strand := if t.uid = writer then t else t.refetch a v
  { c with
    istore := tset (fun _ => 0) c.istore a v, slots := c.slots.map (fun e => (e.1, other e.2))
    resume := c.resume.map other, debugList := c.debugList.map other }

/-- The byte address of a poisoned word that an STI would write only in part, which is refused; a whole word is written over
its poison (R272). -/
def Ctx.codeRefusal (x : Ctx) (wide : Bool) : Option Word :=
  let a := x.a.toNat
  let ws := if wide ∧ a % 2 = 0 then [] else if wide then [a / 2, a / 2 + 1] else [a / 2]
  (ws.find? (fun w => x.s.poisoned (codePoison x.pcell) w)).map (fun w => BitVec.ofNat 32 (4 * w))

/-- An STI of one or two parcels, with the head bit of the first (R131). Its own strand executes the
instructions of the nine parcels after it as they stood (R132); every other strand executes them as written, a FENCE
at which it stands included. -/
def Ctx.writeParcels (x : Ctx) (wide head : Bool) : State :=
  let right : Bool := match x.s.partOfCell x.pcell with
    | some p => decide (x.s.regF (aMemPright p) 12 12 = 1)
    | none => false
  let a := x.a.toNat
  if 0x3FFF < a then x.trap .limit x.a
  else if wide ∧ a = 0x3FFF then x.trap .limit x.a
  else if ¬ right then x.trap .access x.a true
  else match x.codeRefusal wide with
  | some w => x.trap .access w true
  | none =>
    let c := x.s.cell x.pcell
    let win : StiWindow :=
      { start := x.t.pc + 2
        parcels := (upTo 9).map (fun i => c.parcel (x.t.pc.toNat + 2 + i)) }
    let s := x.s.modCell x.pcell (fun c =>
      let c := c.putParcel x.t.uid a (BitVec.ofNat 17 (fld x.b 15 0 + b2n head * 65536))
      if wide then c.putParcel x.t.uid (a + 1) (BitVec.ofNat 17 (fld x.b 31 16)) else c)
    let s := if wide ∧ a % 2 = 0 then s.clearPoison (codePoison x.pcell) (a / 2) else s
    { x with s := s, t := { x.t with stiWins := x.t.stiWins ++ [win] } }.next.passAll x.pcell

/-! ### Tokens (R124, R244, R460) -/

/-- A token leaves only while the output queue has a free entry, and in a paired cell while fewer than
two outputs are open (R244, R317). -/
def Ctx.outBlocked (x : Ctx) : Bool :=
  decide (16 ≤ (x.s.cell x.pcell).outQ.length) || x.unackedFull

/-- A message leaves a strand through the output queue, and the instruction is complete. -/
def Ctx.sendTo (x : Ctx) (dest : BitVec 5 × BitVec 4) (vc : Vc) (m : Msg) : State :=
  if x.outBlocked then x.block
  else if x.outputsSpent then x.trap .limit 0
  else
    let (p, t) := x.s.strandPacket x.pcell x.t dest vc m
    let s := x.s.modCell x.pcell (fun c => { c with outQ := c.outQ ++ [p] })
    s.completeInstr x.pcell x.slot (t.flushMul.advance x.ins.len none) true

/-- The token of a send with the activation's own tag (R124). -/
def Ctx.ownToken (x : Ctx) (addr : BitVec 14) (ordered : Bool) : Token :=
  { value := x.a, stamp := x.t.stamp, flow := x.t.flow, iteration := x.t.si, addr
    port := x.ins.port, cell := BitVec.ofNat 8 (x.s.idOf x.pcell), cls := x.t.cls.setWidth 3
    pair := x.s.isPaired x.pcell, replay := false, spilled := false, late := false, ordered, fmt := 3 }

/-- The flow's tokens leave by the barrier port (R460). -/
def State.extracts (s : State) (flow : BitVec 12) : Bool :=
  tget (fun _ => false) s.mode.extract flow.toNat

/-- The destination of a token for a logical cell as its route header leaves the cell: the cell field
is 0 for another cloud, and in a paired cell for every cloud (R232, R314). The fault sink takes one for an id that
belongs to no partition or that no cell holds (R25); the first keeps the place that the route map gives, and for the second
the map gives none (log entry 47). -/
def State.cellDest (s : State) (pcell lid : Nat) : BitVec 5 × BitVec 4 :=
  match (s.tokenRoute lid).orElse (fun _ => (s.placeOf lid).map cellRoute) with
  | none => (cloudRoot, 15)
  | some d =>
    if d.1.toNat < 18 ∧ (d.1.toNat ≠ pcell / 16 ∨ s.isPaired pcell) then (d.1, 0) else d

/-- A token leaves: to the barrier port for an extract flow, else to its cell, on channel S inside a
Scheduled partition and on T otherwise (R215, R460). -/
def Ctx.sendToken (x : Ctx) (t : Token) : State :=
  let sched := x.s.isSched x.pcell
  if x.s.extracts t.flow then
    x.sendTo (cloudRoot, unitBarrier) (if sched then .s else .t) (.token t)
  else
    let same := (x.s.partOf t.cell.toNat).isSome && x.s.partOf t.cell.toNat = x.s.partOfCell x.pcell
    x.sendTo (x.s.cellDest x.pcell t.cell.toNat) (if sched && same then .s else .t) (.token t)

/-- A send with the activation's own tag (R124). -/
def Ctx.sendOwn (x : Ctx) (addr : BitVec 14) (ordered : Bool) : State :=
  x.sendToken (x.ownToken addr ordered)

/-! ### Loads, stores and locks -/

/-- LDW (R114, R118). -/
def execLdw (pcell slot : Nat) (s : State) : Out :=
  s.issue pcell slot .ldw fun x => x.load 4 false

/-- LDH (R114, R118). -/
def execLdh (pcell slot : Nat) (s : State) : Out :=
  s.issue pcell slot .ldh fun x => x.load 2 true

/-- LDHU (R114, R118). -/
def execLdhu (pcell slot : Nat) (s : State) : Out :=
  s.issue pcell slot .ldhu fun x => x.load 2 false

/-- LDB (R114, R118). -/
def execLdb (pcell slot : Nat) (s : State) : Out :=
  s.issue pcell slot .ldb fun x => x.load 1 true

/-- LDBU (R114, R118). -/
def execLdbu (pcell slot : Nat) (s : State) : Out :=
  s.issue pcell slot .ldbu fun x => x.load 1 false

/-- LDD (R114, R118). -/
def execLdd (pcell slot : Nat) (s : State) : Out :=
  s.issue pcell slot .ldd fun x => x.load 8 false

/-- STW (R114, R118). -/
def execStw (pcell slot : Nat) (s : State) : Out :=
  s.issue pcell slot .stw fun x => x.store 4

/-- STH (R114, R118). -/
def execSth (pcell slot : Nat) (s : State) : Out :=
  s.issue pcell slot .sth fun x => x.store 2

/-- STB (R114, R118). -/
def execStb (pcell slot : Nat) (s : State) : Out :=
  s.issue pcell slot .stb fun x => x.store 1

/-- STD (R114, R118). -/
def execStd (pcell slot : Nat) (s : State) : Out :=
  s.issue pcell slot .std fun x => x.store 8

/-- SWP (R119): in the frame store at once, in a scratchpad or global memory by a request. -/
def execSwp (pcell slot : Nat) (s : State) : Out :=
  s.issue pcell slot .swp fun x =>
    let ea := x.a
    if ea.toNat % 4 ≠ 0 then x.trap .align ea true
    else if ea.toNat < 0x10000 then
      match x.frameRefusal 4 with
      | some h6 => x.trap .access h6 true
      | none =>
        let v := (x.s.cell pcell).word (ea.toNat / 4)
        let s := x.s.modCell pcell (fun c => c.putWord (ea.toNat / 4) x.b)
        { x with s := s }.write v
    else match x.reach ea .swp 4 with
      | none => x.trap .access ea true
      | some l => x.request l 0x40 (x.b.setWidth 64) [] (.swp x.dest)

/-- LCK (R120, R284, R286). -/
def execLck (pcell slot : Nat) (s : State) : Out :=
  s.issue pcell slot .lck fun x => x.lockOp true

/-- TLCK (R120, R284, R286). -/
def execTlck (pcell slot : Nat) (s : State) : Out :=
  s.issue pcell slot .tlck fun x => x.lockOp false

/-- UNL (R120, R284). -/
def execUnl (pcell slot : Nat) (s : State) : Out :=
  s.issue pcell slot .unl fun x =>
    if x.a.toNat % 4 ≠ 0 then x.trap .align x.a
    else match x.reach x.a .lock 4 with
      | none => x.trap .access x.a
      | some l =>
        x.request l 0x52 (lockWord (x.s.idOf pcell) x.t.flow ((x.s.cell pcell).eclass x.t) 0) []
          (.unl x.t.flow)

/-! ### The instruction store (R131, R132) -/

/-- STI (R131). -/
def execSti (pcell slot : Nat) (s : State) : Out :=
  s.issue pcell slot .sti fun x => x.writeParcels false false

/-- STI.H (R131). -/
def execStiH (pcell slot : Nat) (s : State) : Out :=
  s.issue pcell slot .stiH fun x => x.writeParcels false true

/-- STI.W (R131). -/
def execStiW (pcell slot : Nat) (s : State) : Out :=
  s.issue pcell slot .stiW fun x => x.writeParcels true false

/-- STI.WH (R131). -/
def execStiWh (pcell slot : Nat) (s : State) : Out :=
  s.issue pcell slot .stiWh fun x => x.writeParcels true true

/-! ### Tokens and flows (R124 to R130) -/

/-- SEND (R124). -/
def execSend (pcell slot : Nat) (s : State) : Out :=
  s.issue pcell slot .send fun x => x.sendOwn (BitVec.ofNat 14 (fld x.ins.imm 13 0)) x.ins.ord

/-- SEND.S (R124). -/
def execSendS (pcell slot : Nat) (s : State) : Out :=
  s.issue pcell slot .sendS fun x => x.sendOwn (x.t.pc + x.ins.imm.setWidth 14) false

/-- SENDC (R125): the token leaves when x[rc] is not 0; else nothing is sent, and nothing is waited for. -/
def execSendc (pcell slot : Nat) (s : State) : Out :=
  s.issue pcell slot .sendc fun x =>
    if x.b ≠ 0 then x.sendOwn (x.t.pc + x.ins.imm.setWidth 14) false else x.next

/-- SENDCN (R125): the token leaves when x[rc] is 0. -/
def execSendcn (pcell slot : Nat) (s : State) : Out :=
  s.issue pcell slot .sendcn fun x =>
    if x.b = 0 then x.sendOwn (x.t.pc + x.ins.imm.setWidth 14) false else x.next

/-- SENDX (R126): the tag comes from a register pair; LIMIT for a reserved bit. -/
def execSendx (pcell slot : Nat) (s : State) : Out :=
  s.issue pcell slot .sendx fun x =>
    let hi := x.s.readReg pcell slot x.t (x.ins.rs2 + 1)
    if fld x.b 31 28 ≠ 0 then x.trap .limit x.b
    else if fld hi 31 27 ≠ 0 then x.trap .limit hi
    else x.sendToken
      { x.ownToken 0 false with
        flow := BitVec.ofNat 12 (fld x.b 11 0), iteration := BitVec.ofNat 16 (fld x.b 27 12)
        addr := BitVec.ofNat 14 (fld hi 13 0), port := BitVec.ofNat 2 (fld hi 15 14)
        cell := BitVec.ofNat 8 (fld hi 23 16), cls := BitVec.ofNat 3 (fld hi 25 24)
        ordered := fld hi 26 26 = 1 }

/-- SENDT (R127): a release token for the field I/O, its release time nearest to the cell's now, or
in a paired cell to the firing's stamp (R325). -/
def execSendt (pcell slot : Nat) (s : State) : Out :=
  s.issue pcell slot .sendt fun x =>
    if x.a &&& 0xF0C0#32 ≠ 0 then x.trap .limit x.a
    else
      let nowns := (if x.s.isPaired pcell then x.t.stamp.toNat else x.s.now.toNat) * 16
      let d := (x.b - BitVec.ofNat 32 nowns).toInt
      let rel := (((nowns : Int) + d) % 2 ^ 36).toNat
      x.sendTo (cloudRoot, unitFieldIO) (if x.s.isSched pcell then .s else .t)
        (.token { x.ownToken x.t.pc false with
          value := BitVec.ofNat 32 (fld x.a 5 0 + bitsOf rel 3 2 * 64 + fld x.a 11 8 * 256
            + fld x.a 31 16 * 65536)
          stamp := BitVec.ofNat 32 (rel / 16), port := 0, cell := 0 })

/-- EVS (R130): an event for a flow, whose value is TG of the emitting activation (R164). -/
def execEvs (pcell slot : Nat) (s : State) : Out :=
  s.issue pcell slot .evs fun x =>
    if 4095 < x.a.toNat then x.trap .limit x.a
    else x.sendTo (cloudRoot, unitDispatcher) .t
      (.event (x.a.setWidth 12) (x.ins.imm.setWidth 5) x.t.tg)

/-- ITER (R129): the next iteration is asked for, and the strand waits; LIMIT in an atomic flow and in
a Scheduled cell (R213). A strand whose activation has stopped stops at this wait (R154, R159). -/
def execIter (pcell slot : Nat) (s : State) : Out :=
  s.issue pcell slot .iter fun x =>
    if x.t.atomic ∨ x.s.isSched pcell then x.trap .limit 0
    else if x.t.dying then (x.s.dropStrand pcell x.t.flushMul).frameCheck pcell x.t.flow x.t.iteration
    else match x.s.lidOf pcell with
      | none => x.s
      | some lid =>
        let s := x.s.modCell pcell (fun c => { c.putStrand slot
          { x.t.flushMul with wait := .iter x.dest c.nextUid } with nextUid := c.nextUid + 1 })
        { s with dsp := { s.dsp with
            iters := s.dsp.iters ++ [{ lid, flow := x.t.flow, iteration := x.t.iteration }] } }

/-! ### Answers (R118, R276, R277) -/

/-- The held-lock table without an entry (R287). -/
def Cell.unhold (c : Cell) (flow : BitVec 12) (ea : Word) : Cell :=
  { c with held := c.held.filter (fun h => ¬ (h.flow = flow ∧ h.addr = ea)) }

/-- The held-lock table with an entry (R286). -/
def Cell.hold (c : Cell) (flow : BitVec 12) (ea : Word) : Cell :=
  { c with held := c.held ++ [{ flow, addr := ea }] }

/-- The cell without a wait record. -/
def Cell.dropWait (c : Cell) (w : Nat) : Cell :=
  { c with waits := c.waits.filter (fun r => r.waitId ≠ w) }

/-- A strand traps on the answer to its request (R276). -/
def State.answerTrap (s : State) (pcell : Nat) (t : Strand) (ea : Word) (write : Bool) : State :=
  match (s.cell pcell).slotOf t.uid with
  | some slot => s.trapStrand pcell slot t .access 0 ea write
  | none => s

/-- A waiting strand's register takes a value and its instruction is complete. -/
def State.answerWrite (s : State) (pcell : Nat) (t : Strand) (rd : Nat) (v : Word) : State :=
  let (s, t) := s.writeReg pcell t rd v
  s.wakeStrand pcell t true

/-- A lock that came to a strand that is gone passes on with an UNL (R292). -/
def State.passLock (s : State) (pcell : Nat) (flow : BitVec 12) (ea : Word) : State :=
  s.house pcell (.unl flow) ea 0x52 (lockWord (s.idOf pcell) flow 0 0) (.ofFlow flow)

/-- The answer to a lock operation (R120, R284 to R286). A strand whose activation has stopped stops at the wait for the
grant, which is a pre-emption point, and its wait is cancelled (R154, R159, R292). -/
def State.lockAnswer (s : State) (pcell : Nat) (t? : Option Strand) (rd : Nat) (w : Option Nat)
    (flow : BitVec 12) (ea : Word) (status : Nat) : State :=
  let free (s : State) : State := match w with
    | some w => s.modCell pcell (fun c => c.dropWait w)
    | none => s
  let cls := match t? with
    | some t => (s.cell pcell).eclass t
    | none => 0
  match t? with
  | none =>
    if status = 5 then
      match w with
      | some w => s.house pcell (.cancel w) ea 0x54 (lockWord (s.idOf pcell) flow cls w) (.ofFlow flow)
      | none => s
    else if status < 2 then (free s).passLock pcell flow ea
    else free s
  | some t =>
    if 0x10 ≤ status then (free s).answerTrap pcell t ea false
    else if status = 5 then
      match w, (s.cell pcell).slotOf t.uid with
      | some w, some slot =>
        if t.dying then (s.dropStrand pcell { t with wait := .lock w rd ea }).frameCheck pcell t.flow t.iteration
        else s.modCell pcell (fun c => c.putStrand slot { t with wait := .lock w rd ea })
      | _, _ => s
    else
      let s := free s
      let s := if status < 2 then s.modCell pcell (fun c => c.hold flow ea) else s
      s.answerWrite pcell t rd (BitVec.ofNat 32 status)

/-- What the answer to an outstanding request does (R118, R276, R277, R287, R292). -/
def State.takeAnswer (s : State) (pcell : Nat) (o : Outstanding) (r : Response) : State :=
  let status := r.status.toNat
  let bad := decide (0x10 ≤ status)
  let t? := (s.cell pcell).findStrand o.uid
  match o.what with
  | .load rd size signed =>
    match t? with
    | none => s
    | some t =>
      if bad then s.answerTrap pcell t o.ea false
      else
        let (s, t) := s.putLoaded pcell t rd size signed r.data.toNat
        s.wakeStrand pcell t true
  | .swp rd =>
    match t? with
    | none => s
    | some t =>
      if bad then s.answerTrap pcell t o.ea true
      else s.answerWrite pcell t rd (r.data.setWidth 32)
  | .lck rd w flow => s.lockAnswer pcell t? rd (some w) flow o.ea status
  | .tlck rd flow => s.lockAnswer pcell t? rd none flow o.ea status
  | .unl flow =>
    let s := s.modCell pcell (fun c => c.unhold flow o.ea)
    match t? with
    | none => s
    | some t => if bad then s.answerTrap pcell t o.ea false else s.wakeStrand pcell t true
  | .store =>
    let s := if bad then
        let s := (s.raise srcMemPostErr (cellMaster pcell) accWrite o.ea 0).bump (aMemCnt 4)
        let mark (t : Strand) : Strand :=
          if t.uid = o.uid then { t with postErr := t.postErr.orElse (fun _ => some o.ea) } else t
        s.modCell pcell (fun c => { c with
          slots := c.slots.map (fun e => (e.1, mark e.2)), resume := c.resume.map mark
          debugList := c.debugList.map mark })
      else s
    match (s.cell pcell).slotOf o.uid with
    | some slot => s.pass pcell slot
    | none => s
  | .release flow => s.modCell pcell (fun c => c.unhold flow o.ea)
  | .cancel w => s.modCell pcell (fun c => c.dropWait w)
  | .reprioritise => s
  | .engine => s
  | .purge p =>
    match s.lidOf pcell with
    | some lid => s.report (.purgeDone lid p)
    | none => s

/-- RESPONSE_ARRIVAL (R276): the oldest answer that has reached the cell completes its request, and its tag is free for a
strand that waits for one (R239). -/
def execResponseArrival (pcell : Nat) (s : State) : Out :=
  unitOk s (pcell < s.variant.pcells) <|
    match (s.cell pcell).respQ with
    | r :: rest =>
      if r.tag = 63 ∨ ¬ s.cellRuns pcell then s
      else
        let s := s.modCell pcell (fun c => { c with respQ := rest })
        match (s.cell pcell).tags.find? (fun o => o.tag = r.tag.toNat) with
        | none => s
        | some o =>
          (s.modCell pcell (fun c => { c with
            tags := c.tags.filter (fun o => o.tag ≠ r.tag.toNat) }.freeOutputs)).takeAnswer pcell o r
    | [] => s

/-- LOCK_GRANT (R285): a grant wakes the strand that sleeps in LCK; where the strand is gone, the lock
passes on (R292). -/
def execLockGrant (pcell : Nat) (s : State) : Out :=
  unitOk s (pcell < s.variant.pcells) <|
    match (s.cell pcell).respQ with
    | r :: rest =>
      if r.tag ≠ 63 ∨ ¬ s.cellRuns pcell then s
      else
        let s := s.modCell pcell (fun c => { c with respQ := rest })
        let w := bitsOf r.data.toNat 25 22
        match (s.cell pcell).waits.find? (fun x => x.waitId = w) with
        | none => s
        | some rec_ =>
          match (s.cell pcell).findStrand rec_.uid with
          | none => s.passLock pcell rec_.flow rec_.addr
          | some t =>
            match t.wait with
            | .lock _ rd ea =>
              let s := s.modCell pcell (fun c => (c.dropWait w).hold rec_.flow ea)
              s.answerWrite pcell t rd (r.status.setWidth 32)
            | _ => s
    | [] => s

/-! ### ITER grants, boosts and acknowledgements (R185, R190, R317) -/

/-- The strand that has waited longest in ITER for an activation. -/
def longestIter : List Strand → Option Strand
  | [] => none
  | t :: rest =>
    match t.wait, longestIter rest with
    | .iter _ n, some u =>
      match u.wait with
      | .iter _ m => if m < n then some u else some t
      | _ => some t
    | .iter _ _, none => some t
    | _, u => u

/-- ITER_GRANT_MESSAGE (R185): the grant at the head of the token input queue opens its frame and
completes the waiting ITER; where no strand waits for it, the new activation is complete at once. -/
def execIterGrantMessage (pcell : Nat) (s : State) : Out :=
  unitOk s (pcell < s.variant.pcells) <|
    match (s.cell pcell).inQ with
    | .grant h req credit :: rest =>
      if ¬ s.cellRuns pcell then s
      else
        let s := s.modCell pcell (fun c => { c with inQ := rest }.openFrame h)
        let s := s.giveBack credit
        let c := s.cell pcell
        match longestIter (c.strands.filter (fun t => t.flow = h.flow && t.iteration = req)) with
        | some t =>
          match t.wait, c.findStrand t.uid with
          | .iter rd _, some t =>
            s.answerWrite pcell { t with si := h.iteration } rd (h.iteration.setWidth 32)
          | _, _ => s
        | none =>
          let s := s.modCell pcell (fun c => match c.findDir h.flow h.iteration with
            | some i => c.modDir i (fun e => { e with state := .done, complete := true })
            | none => c)
          let s := match s.lidOf pcell with
            | some lid => s.report (.completion lid h.flow h.iteration)
            | none => s
          s.frameCheck pcell h.flow h.iteration
    | _ => s

/-- BOOST_APPLY (R190, R291): the oldest boost message changes the flow's effective class, and every
strand of the flow that waits in LCK is reprioritised at its bank. -/
def execBoostApply (pcell : Nat) (s : State) : Out :=
  unitOk s (pcell < s.variant.pcells) <|
    match (s.cell pcell).boostQ with
    | (flow, cls) :: rest =>
      if ¬ s.cellRuns pcell then s
      else
        let s := s.modCell pcell (fun c => { c with
          boostQ := rest
          boosts := match cls with
            | some b => tins c.boosts flow.toNat b
            | none => terase c.boosts flow.toNat })
        ((s.cell pcell).strands.filter (fun t => t.flow = flow)).foldl (fun s t =>
          match t.wait with
          | .lock w _ ea => s.house pcell .reprioritise ea 0x55
              (lockWord (s.idOf pcell) flow ((s.cell pcell).eclass t) w) (t.seqAt 0)
          | _ => s) s
    | [] => s

/-- PAIR_ACK (R317): the oldest acknowledgement of the station frees an output place of its strand. -/
def execPairAck (pcell : Nat) (s : State) : Out :=
  unitOk s (pcell < s.variant.pcells) <|
    match (s.cell pcell).ackQ with
    | (fseq, n) :: rest =>
      let ack (t : Strand) : Strand :=
        if t.fseq = fseq then { t with unacked := t.unacked.erase n } else t
      s.modCell pcell (fun c => { c with
        ackQ := rest, slots := c.slots.map (fun e : Nat × Strand => (e.1, ack e.2)), resume := c.resume.map ack
        debugList := c.debugList.map ack }.freeOutputs)
    | [] => s

end Sys2Proof.Machine
end

