-- ==== Sys2Proof/Machine/Pairs.lean ====
section
/-! DEFINITION. Pair stations (R312 to R331): inputs delivered to both halves, outputs compared and
forwarded once, answers to both halves, trap notices, debug stops and recorded debugger actions. -/

namespace Sys2Proof.Machine

/-! ### What a station does to a pair -/

/-- The pair of a station with a pair id: its index and its checker's logical id. -/
def State.pairAt (s : State) (st pid : Nat) : Option (Nat × Nat) :=
  (s.pairs?.find? (fun q => q.1 = st && q.2.2.1 = pid)).map (fun q => (q.2.1, q.2.2.2))

/-- The logical id of a half of a pair. -/
def halfLid (checker : Bool) (pid checkerLid : Nat) : Nat := if checker then checkerLid else pid

/-- A station acts: the module is not in SAFE (R370). -/
def State.stationsAct (s : State) : Bool := decide (s.mode.mode ≠ .safe ∧ s.mode.mode ≠ .load)

/-- A message to one half of a pair, by the physical place of that half (R232, R313); for a half that no cell holds it goes to
the fault sink (R25, R359), with an undefined destination (DESIGN CHOICE: log entry 47). -/
def State.toHalf (s : State) (lid : Nat) (vc : Vc) (c : Cargo) : State :=
  match s.placeOf lid with
  | some pc => s.rootSend (rootPacket (cellRoute pc) vc c)
  | none => s.sink (rootPacket (cloudRoot, 15) vc c).routed 3

/-- The station acknowledges an output on the return sideband (R317). -/
def State.ackOutput (s : State) (q : PairPacket) (checkerLid : Nat) : State :=
  match s.placeOf (halfLid q.checker q.pid.toNat checkerLid) with
  | some pc => s.modCell pc (fun c => { c with ackQ := c.ackQ ++ [(q.fseq, q.n)] })
  | none => s

/-- The oldest packet at a station of a kind that a test names. -/
def State.stationTake (s : State) (st : Nat) (p : Packet → Bool) : Option (Packet × State) :=
  (takeFirst p (s.station st).inQ).map fun r =>
    (r.1, s.modStation st (fun x => { x with inQ := r.2 }))

/-- A packet is a pair packet of a kind that a test names. -/
def Packet.isPair (p : Packet) (k : PairKind → Bool) : Bool :=
  match p.cargo with
  | .paired q => k q.kind
  | _ => false

/-- A packet carries a token for a pair. -/
def Packet.isPlainToken (p : Packet) : Bool :=
  match p.cargo with
  | .plain (.token _) => true
  | _ => false

/-! ### Inputs (R312, R313) -/

/-- PAIR_TOKEN (R313): the oldest token at the station is delivered to both halves, bit for bit equal, with
pair = 1, in one cycle. A token for a checker's own id is discarded and reported (R312). -/
def execPairToken (station : Nat) (s : State) : Out :=
  unitOk s (station < s.variant.stations) <|
    if ¬ s.stationsAct then s
    else match s.stationTake station Packet.isPlainToken with
      | none => s
      | some (p, s1) =>
        match p.token? with
        | none => s
        | some t =>
          let lid := t.cell.toNat
          match s.pairOf lid with
          | none => s1.sink p 3
          | some (st, _, main, checker) =>
            if (s.station station).fenced then s1
            else if lid = checker then s1.pairReport srcPairAddr st main 0 0
            else
              let c := Cargo.plain (.token { t with pair := true })
              (s1.toHalf main p.vc c).toHalf checker p.vc c

/-! ### Comparison (R321, R328) -/

/-- A message as the comparison sees it: a request without its requester's address and tag (R321). -/
def Msg.compared (m : Msg) : Msg :=
  match m with
  | .request r => .request { r with rcloud := 0, rcell := 0, unit := 0, tag := 0, credit := none }
  | .token _ | .start _ _ | .prefetch _ _ | .preMatched _ _ _ _ _ _ | .grant _ _ | .event _ _ _ | .response _ => m

/-- A pair packet as the comparison sees it: the whole head but the half, and the tail (R321). -/
def PairPacket.compared (q : PairPacket) : PairPacket :=
  { q with checker := false, msg := q.msg.map Msg.compared }

/-- What a comparator judges of two packets: equal, or the opposite of what holds where it is at fault (R328). -/
def comparator (a b : PairPacket) (fault : Bool) : Bool := decide (a.compared = b.compared) != fault

/-- The window of one half at a station. -/
def Station.window (x : Station) (checker : Bool) : List WindowEntry :=
  if checker then x.checkers else x.mains

/-- A station with the window of one half replaced. -/
def Station.setWindow (x : Station) (checker : Bool) (w : List WindowEntry) : Station :=
  if checker then { x with checkers := w } else { x with mains := w }

/-- A window entry holds a packet of a pair with a sequence number. -/
def WindowEntry.is (e : WindowEntry) (q : PairPacket) : Bool :=
  decide (e.packet.pid = q.pid ∧ e.packet.fseq = q.fseq ∧ e.packet.n = q.n)

/-- A packet enters the window with its arrival time; the peak is the most entries that one half of a
pair has held (R320, R321). -/
def Station.enter (x : Station) (q : PairPacket) (time : Nat) : Station :=
  let w := x.window q.checker ++ [{ packet := q, time }]
  let held := (w.filter (fun e => e.packet.pid = q.pid)).length
  { x.setWindow q.checker w with peak := sat 63 (Nat.max x.peak held) }

/-- The station tag that is free, of 64 (R322). -/
def Station.freeTag (x : Station) : Option Nat :=
  (upTo 64).find? (fun i => x.tags.all (fun t => t.tag ≠ i))

/-- The requests of the two halves, where the packets carry a request. -/
def requestsOf (a b : PairPacket) : Option (Request × Request) :=
  match a.msg, b.msg with
  | some (.request x), some (.request y) => some (x, y)
  | _, _ => none

/-- A message in the place that its header names: a token for a cell takes the place of the route map
(R232, R322). -/
def State.forwardDest (s : State) (q : PairPacket) : BitVec 5 × BitVec 4 :=
  match q.msg with
  | some (.token t) =>
    if q.dcloud.toNat < 18 then (s.tokenRoute t.cell.toNat).getD (q.dcloud, q.dcell)
    else (q.dcloud, q.dcell)
  | _ => (q.dcloud, q.dcell)

/-- One copy of two equal outputs is forwarded (R322): a request under a station tag with the station as
its requester. None while no station tag is free. -/
def State.forwardPair (s : State) (st : Nat) (a b : PairPacket) (sender : Nat) : Option State :=
  let main := if a.checker then b else a
  let checker := if a.checker then a else b
  let send (m : Msg) : State :=
    s.rootSend { rootPacket (s.forwardDest main) main.vc (.plain m) with sender }
  match requestsOf main checker with
  | some (x, y) =>
    match (s.station st).freeTag with
    | none => none
    | some tag =>
      let r := { x with
        rcloud := cloudStation, rcell := BitVec.ofNat 4 st, tag := BitVec.ofNat 6 tag, credit := none }
      let cellOf (r : Request) : Nat := r.rcloud.toNat * 16 + r.rcell.toNat
      let p := (rootPacket (s.forwardDest main) main.vc (.plain (.request r))).routed
      some ((send (.request r)).modStation st (fun k => { k with
        tags := k.tags ++ [{ tag, time := s.zen.count, head := BitVec.ofNat 16 p.head16, main := x, checker := y
                             mainCell := cellOf x, checkCell := cellOf y }] }))
  | none => main.msg.map send

/-- Outputs of an activation are dropped after its trap (R327). -/
def Station.drops? (x : Station) (q : PairPacket) (now : Nat) : Bool :=
  x.drops.any (fun d => d.pid = q.pid && d.flow = q.flow && d.iteration = q.iteration
    && decide (now < d.until_))

/-- A message packet at its station (R321). None while it waits for a station tag. -/
def State.comparePair (s : State) (st j checkerLid : Nat) (q : PairPacket) (cmpFault : CmpFault) :
    Option State :=
  let pid := q.pid.toNat
  let x := s.station st
  let other := x.window (!q.checker)
  if (x.window q.checker).any (fun e => e.is q) then
    some ((s.pairFault srcPairSeq st j pid q.fseq q.n).ackOutput q checkerLid)
  else match takeFirst (fun e : WindowEntry => e.is q) other with
    | none => some (s.modStation st (fun x => x.enter q s.zen.count))
    | some (e, rest) =>
      let freed := ((s.modStation st (fun x => x.setWindow (!q.checker) rest)).ackOutput e.packet
        checkerLid).ackOutput q checkerLid
      let a := comparator e.packet q (cmpFault = .a)
      let agree := decide (a = comparator e.packet q (cmpFault = .b))
      let freed := if agree then freed else freed.pairReport srcPairCmp st pid q.fseq q.n
      if ¬ a then some (freed.pairFault srcPairMismatch st j pid q.fseq q.n)
      else (if agree then freed.forwardPair st e.packet q ((s.placeOf pid).getD 0x3FF) else some freed).map
        (fun s => s.bump (aPairCnt st 0))

/-- A packet from a pair that is not in RUN is discarded: an output is acknowledged and counted (R324). -/
def State.discardPair (s : State) (st checkerLid : Nat) (q : PairPacket) : State :=
  match q.kind with
  | .message => (s.ackOutput q checkerLid).bump (aPairCnt st 4)
  | .mirror | .trapNotice | .debugStop => s

/-- PAIR_PACKET (R321): the oldest message packet or mirror record at the station is compared with its
partner, and one copy is forwarded. Where a fault makes the comparators A and B disagree, that is reported and neither copy
is forwarded; the other results are A's (R328). A mirror record passes to the checker (R318). -/
def execPairPacket (station : Nat) (cmpFault : CmpFault) (s : State) : Out :=
  unitOk s (station < s.variant.stations) <|
    if ¬ s.stationsAct then s
    else match s.stationTake station (fun p => p.isPair (fun k => k = .message || k = .mirror)) with
      | some (p, s1) =>
        match p.cargo with
        | .paired q =>
          match s.pairAt station q.pid.toNat with
          | none => s1
          | some (j, checkerLid) =>
            if s.pairState station j ≠ 1 then s1.discardPair station checkerLid q
            else if q.kind = .mirror then s1.toHalf checkerLid .s (.paired q)
            else if (s.station station).drops? q s.zen.count then
              (s1.ackOutput q checkerLid).bump (aPairCnt station 3)
            else (s1.comparePair station j checkerLid q cmpFault).getD s
        | _ => s
      | none => s

/-! ### Timeouts (R321, R327) -/

/-- A pair's partition is halted, so that its entries do not age (R321). -/
def State.pairHalted (s : State) (pid : Nat) : Bool :=
  match s.partOf pid with
  | some p => s.mode.halted.getLsbD p
  | none => false

/-- PAIR_WINDOW_TIMEOUT (R321): an entry older than the pair timeout is discarded and acknowledged, the
timeout is reported, and the pair enters MISMATCH. Places beyond the window of the half name the trap
notices that have no partner (R327). -/
def execPairWindowTimeout (station : Nat) (checker : Bool) (index : Nat) (s : State) : Out :=
  unitOk s (station < s.variant.stations) <|
    let x := s.station station
    let w := x.window checker
    let hit : Option (WindowEntry × Station) :=
      if index < w.length then
        (w[index]?).map (fun e => (e, x.setWindow checker (w.eraseIdx index)))
      else (x.notices[index - w.length]?).map (fun e =>
        (e, { x with notices := x.notices.eraseIdx (index - w.length) }))
    match hit with
    | none => s
    | some (e, x1) =>
      let q := e.packet
      match s.pairAt station q.pid.toNat with
      | none => s
      | some (j, checkerLid) =>
        if s.pairHalted q.pid.toNat then s
        else
          let s := s.modStation station (fun _ => x1)
          let s := s.pairFault srcPairTimeout station j q.pid.toNat q.fseq q.n
          if q.kind = .message then s.ackOutput q checkerLid else s

/-! ### Answers (R322) -/

/-- STATION_RESPONSE (R322): the oldest answer to a forwarded request goes to each half, with that half's
own requester address and tag. -/
def execStationResponse (station : Nat) (s : State) : Out :=
  unitOk s (station < s.variant.stations) <|
    match (s.station station).answers with
    | [] => s
    | r :: rest =>
      let s1 := s.modStation station (fun x => { x with answers := rest })
      match (s.station station).tags.find? (fun t => t.tag = r.tag.toNat) with
      | none => s1
      | some t =>
        let s1 := s1.modStation station (fun x => { x with
          tags := x.tags.filter (fun u => u.tag ≠ t.tag) })
        let send (s : State) (q : Request) : State :=
          s.rootSend (rootPacket (q.rcloud, q.rcell) .p (.plain (.response { r with
            rcloud := q.rcloud, rcell := q.rcell, tag := q.tag })))
        send (send s1 t.main) t.checker

/-! ### Traps (R327) -/

/-- The pair timeout of a station in ns (PAIR_CFG.tmo). -/
def State.pairTmo (s : State) (st : Nat) : Nat := s.regF (aPairCfg st) 9 0 * 1000

/-- An entry belongs to an activation of a pair. -/
def WindowEntry.ofActivation (e : WindowEntry) (q : PairPacket) : Bool :=
  decide (e.packet.pid = q.pid ∧ e.packet.flow = q.flow ∧ e.packet.iteration = q.iteration)

/-- Equal notices of both halves: every unmatched entry of the activation is discarded, acknowledged and
counted, and its further outputs are dropped for the pair timeout (R327). -/
def State.trapAgreed (s : State) (st checkerLid : Nat) (q : PairPacket) : State :=
  let x := s.station st
  let gone := (x.mains ++ x.checkers).filter (fun e => e.ofActivation q)
  let keep := fun (w : List WindowEntry) => w.filter (fun e => !e.ofActivation q)
  let s := s.modStation st (fun x => { x with
    mains := keep x.mains, checkers := keep x.checkers
    drops := x.drops ++ [{ flow := q.flow, iteration := q.iteration, pid := q.pid
                           until_ := s.zen.count + s.pairTmo st }] })
  gone.foldl (fun s e => (s.ackOutput e.packet checkerLid).bump (aPairCnt st 3)) s

/-- TRAP_NOTICE (R327): the oldest trap notice at the station meets the other half's notice of the same
activation, or waits for it. Notices whose trap words differ are a mismatch. -/
def execTrapNotice (station : Nat) (s : State) : Out :=
  unitOk s (station < s.variant.stations) <|
    if ¬ s.stationsAct then s
    else match s.stationTake station (fun p => p.isPair (· = .trapNotice)) with
      | some (p, s1) =>
        match p.cargo with
        | .paired q =>
          match s.pairAt station q.pid.toNat with
          | none => s1
          | some (j, checkerLid) =>
            if s.pairState station j ≠ 1 then s1
            else match takeFirst (fun e : WindowEntry =>
                e.ofActivation q && e.packet.checker != q.checker) (s.station station).notices with
              | none => s1.modStation station (fun x => { x with
                  notices := x.notices ++ [{ packet := q, time := s.zen.count }] })
              | some (e, rest) =>
                let s1 := s1.modStation station (fun x => { x with notices := rest })
                if e.packet.word = q.word then s1.trapAgreed station checkerLid q
                else s1.pairFault srcPairMismatch station j q.pid.toNat q.fseq q.n
        | _ => s
      | none => s

/-! ### Debug of a pair (R330, R331) -/

/-- DEBUG_STOP (R330): the oldest debug stop of a main bounds the checker's progress in the same firing. -/
def execDebugStop (station : Nat) (s : State) : Out :=
  unitOk s (station < s.variant.stations) <|
    match s.stationTake station (fun p => p.isPair (· = .debugStop)) with
    | some (p, s1) =>
      match p.cargo with
      | .paired q =>
        match s.pairAt station q.pid.toNat with
        | none => s1
        | some (j, checkerLid) =>
          if q.checker ∨ s.pairState station j ≠ 1 then s1
          else match s.placeOf checkerLid with
            | none => s1
            | some pc => (s1.modCell pc (fun c => { c with
                stops := c.stops.filter (fun e => e.1 ≠ q.fseq) ++ [(q.fseq, q.word.toNat)] })).passAll pc
      | _ => s
    | none => s

/-- The word of a strand record that holds a special, by the special's register number (R90, R146). -/
def specialWord (n : Nat) : Option Nat :=
  match n with
  | 40 | 41 | 42 | 43 | 44 | 45 => some (n - 37)
  | 47 => some 9
  | _ => none

/-- The strand of a record (R144) that stands stopped in a cell's debug list. -/
def Cell.stopped? (c : Cell) (rb : BitVec 14) : Option Strand := c.debugList.find? (fun t => t.rb = rb)

/-- A suspended strand that the main's debug stop holds, by its record (R330, R331). -/
def Cell.heldAside (c : Cell) (rb : BitVec 14) : Option Strand :=
  c.resume.find? (fun t => t.rb = rb && c.heldByStop t)

/-- The strand of a record that a checker holds in its slot at the main's debug stop (R330, R331). -/
def Cell.heldSlot (c : Cell) (rb : BitVec 14) : Option (Nat × Strand) :=
  c.slots.find? (fun e => e.2.rb = rb && c.heldByStop e.2)

/-- A debugger's change of a cell: a frame-store word, a special of a stopped strand or a parcel of the
instruction store (R274). -/
def State.debugWrite (s : State) (pcell what target : Nat) (rb : BitVec 14) (value : Word)
    (head : Bool) : State :=
  match what with
  | 0 =>
    let w := target % 16384
    (s.modCell pcell (fun c => { c with frame := mputWord c.frame (4 * w) value })).clearPoison
      (32 + pcell) w
  | 1 => match specialWord target, (s.cell pcell).stopped? rb, (s.cell pcell).heldSlot rb with
    | some i, some t, _ => s.modCell pcell (fun c => { c with
        frame := mputWord c.frame (4 * (rb.toNat + i)) value
        debugList := c.debugList.map (fun u => if u.uid = t.uid then u.writeSpecial target value else u) })
    | some _, none, some (i, t) => s.modCell pcell (fun c => c.putStrand i (t.writeSpecial target value))
    | some i, none, none =>
      if ((s.cell pcell).heldAside rb).isSome then
        s.modCell pcell (fun c => { c with frame := mputWord c.frame (4 * (rb.toNat + i)) value })
      else s
    | _, _, _ => s
  | 2 => (s.modCell pcell (fun c => c.putParcel c.nextUid (target % 16384)
      (BitVec.ofNat 17 (fld value 15 0 + b2n head * 65536)))).passAll pcell
  | _ => s

/-- A debug-stopped strand goes on (R488): it passes the BRK that it stands at as a NOP, and waits in the resume list. A
checker's strand that the main's stop holds, in its slot or suspended, passes its BRK there (R331). -/
def Cell.release (c : Cell) (rb : BitVec 14) (step : Bool) : Cell :=
  match c.stopped? rb with
  | some t => { c with
      debugList := c.debugList.filter (fun u => u.uid ≠ t.uid)
      resume := c.resume ++ [{ t with passBrk := isBrk (c.fetchWord t), stepping := step, wait := .nothing }] }
  | none => match c.heldSlot rb with
    | some (i, t) => c.putStrand i { t with passBrk := isBrk (c.fetchWord t) }
    | none => match c.heldAside rb with
      | some t => { c with resume := c.resume.map (fun u : Strand =>
          if u.uid = t.uid then { u with passBrk := isBrk (c.fetchWord u) } else u) }
      | none => c

/-- A checker's strand of a firing stands stopped at an instruction count: in the debug list, or held by the
main's debug stop (R330, R331). -/
def Cell.standsAt (c : Cell) (r : Replay) : Bool :=
  c.debugList.any (fun t => t.rb = r.rb && t.fseq = r.fseq && t.executed = r.atCount)
    || c.strands.any (fun t => t.fseq = r.fseq && t.executed = r.atCount && c.heldByStop t)

/-- REPLAY_RECORD (R331): the oldest replay record of a checker is applied once its strand stands stopped
where the main stood when the debugger acted. -/
def execReplayRecord (pcell : Nat) (s : State) : Out :=
  unitOk s (pcell < s.variant.pcells) <|
    match (s.cell pcell).replayQ with
    | [] => s
    | r :: rest =>
      if r.rb ≠ 0 ∧ ¬ (s.cell pcell).standsAt r then s
      else
        let s := s.modCell pcell (fun c => { c with replayQ := rest })
        match r.what.toNat with
        | 3 => s.modCell pcell (fun c => c.release r.rb false)
        | 4 => (s.modCell pcell (fun c =>
            { c.release r.rb false with stops := c.stops.filter (fun e => e.1 ≠ r.fseq) })).passAll pcell
        | w => s.debugWrite pcell w r.target.toNat r.rb r.value r.head

/-- The station records a debugger's action on a main and sends it to the checker as a token with replay = 1 (R40, R331),
whose other fields the spec leaves open (DESIGN CHOICE: log entry 135), with the strand that it concerns: the one of the record, or for a word or a parcel the one stopped last, where one is. Of a
physical cell that is no main, nothing is recorded. -/
def State.recordReplay (s : State) (pcell what target : Nat) (rb : BitVec 14) (value : Word)
    (head : Bool) : State :=
  match (s.lidOf pcell).bind s.pairOf with
  | none => s
  | some (st, _, main, checker) =>
    if s.lidOf pcell ≠ some main then s
    else
      let t? := if what = 0 ∨ what = 2 then (s.cell pcell).debugList.getLast? else (s.cell pcell).stopped? rb
      let r : Replay :=
        { what := BitVec.ofNat 3 what, rb := (t?.map Strand.rb).getD 0
          target := BitVec.ofNat 16 target, value, head
          atCount := (t?.map Strand.executed).getD 0, fseq := (t?.map Strand.fseq).getD 0 }
      let token : Token :=
        { value, stamp := 0, flow := (t?.map Strand.flow).getD 0, iteration := (t?.map Strand.iteration).getD 0, addr := 0
          port := 0, cell := BitVec.ofNat 8 main, cls := 0, pair := true, replay := true, spilled := false, late := false
          ordered := false, fmt := 3 }
      (s.toHalf checker .t (.replay token r)).bump (aPairCnt st 5)

end Sys2Proof.Machine
end

