-- ==== Sys2Proof/Machine/Debug.lean ====
section
/-! DEFINITION. The debug messages of R274 between the barrier port, cells and spill engines: blocks of a
cell's stores, view records (R79 to R82, R163), a debugger's writes, steps and resumes. -/

namespace Sys2Proof.Machine

/-! ### Reaching a cell -/

/-- A message of R274 to a cell: it takes effect where the cell's cloud runs; the root egress holds it while the cloud drains
(R252); it wakes a parked cloud; elsewhere the network answers with an error (R254, R257, R275). -/
def State.cellMessage (s : State) (pcell : Nat) (t : State → State) : Out :=
  unitOk s (pcell < s.variant.pcells) <|
    if s.mode.mode = .reset then s
    else match (s.cloud (pcell / 16)).state with
      | .run => t s
      | .drain => s
      | .parked | .waking => s.wakeCloud (pcell / 16)
      | .off | .test | .fenced => s.replyTo 0xFF []

/-! ### Blocks (R274) -/

/-- The bytes of a cell's store. -/
def storeBytes (istore : Bool) : Nat := if istore then 0x8000 else 0x10000

/-- Parcels of the instruction store as bytes, lowest address first. -/
def Cell.parcelBytes (c : Cell) (a : Nat) : Nat → List Byte
  | 0 => []
  | n + 1 => leBytes 2 (tget (fun _ => 0) c.istore a).toNat ++ c.parcelBytes (a + 1) n

/-- The head bits of parcels, the first in bit 0. -/
def Cell.headBits (c : Cell) (a : Nat) : Nat → Nat
  | 0 => 0
  | n + 1 => b2n ((tget (fun _ => 0) c.istore a).getLsbD 16) + 2 * c.headBits (a + 1) n

/-- The cell with parcels written from bytes and head bits, the first parcel's in bit 0. -/
def Cell.putParcels (c : Cell) (a heads : Nat) : List Byte → Cell
  | lo :: hi :: rest =>
    let v := BitVec.ofNat 17 (lo.toNat + hi.toNat * 256 + heads % 2 * 65536)
    (c.putParcel c.nextUid a v).putParcels (a + 1) (heads / 2) rest
  | _ => c

/-- Words of a memory are no longer poisoned: they were written whole (R272). -/
def State.cleanWords (s : State) (memory a n : Nat) : State :=
  (upTo (n / 4)).foldl (fun s i => s.clearPoison memory (a / 4 + i)) s

/-- Bytes are written into a cell's frame or instruction store; a parcel's head bit is given. -/
def State.writeStore (s : State) (pcell : Nat) (istore : Bool) (off heads : Nat) (bs : List Byte) : State :=
  if istore then
    ((s.modCell pcell (fun c => c.putParcels (off / 2) heads bs)).cleanWords (1024 + pcell) off bs.length).passAll pcell
  else (s.modCell pcell (fun c => { c with frame := mwrite c.frame off bs })).cleanWords (32 + pcell) off bs.length

/-- Bytes of a cell's frame or instruction store. -/
def State.readStore (s : State) (pcell : Nat) (istore : Bool) (off n : Nat) : List Byte :=
  if istore then (s.cell pcell).parcelBytes (off / 2) (n / 2) else mread (s.cell pcell).frame off n

/-- A poisoned word lies in a range of a frame or instruction store. -/
def State.storePoisoned (s : State) (pcell : Nat) (istore : Bool) (off n : Nat) : Bool :=
  (upTo (n / 4)).any (fun i => s.poisoned ((if istore then 1024 else 32) + pcell) (off / 4 + i))

/-- COPY_BLOCK (R274): 64 bytes are written into a cell's frame or instruction store; parts of an address
outside the store are answered with ACCESS (R275). -/
def execCopyBlock (pcell : Nat) (istore : Bool) (off : Nat) (heads : Word) (bytes : List Byte)
    (s : State) : Out :=
  s.cellMessage pcell fun s =>
    if bytes.length ≠ 64 then s
    else if off % 64 ≠ 0 ∨ storeBytes istore < off + 64 then s.replyTo 0x10 []
    else (s.writeStore pcell istore off heads.toNat bytes).replyTo 0 []

/-- READ_BLOCK (R274): 64 bytes of a cell's store, after the head bits for the instruction store. A
poisoned word is answered with ECC_UE (R272). -/
def execReadBlock (pcell : Nat) (istore : Bool) (off : Nat) (s : State) : Out :=
  s.cellMessage pcell fun s =>
    if off % 64 ≠ 0 ∨ storeBytes istore < off + 64 then s.replyTo 0x10 []
    else if s.storePoisoned pcell istore off 64 then (s.bump (aMemCnt 2)).replyTo 0x11 []
    else
      let heads := if istore then (s.cell pcell).headBits (off / 2) 32 else 0
      s.replyTo 0 (leBytes 4 heads ++ s.readStore pcell istore off 64)

/-! ### View records (R79 to R82) -/

/-- The 32 bytes of a view record (R79); transit marks a token that was taken while it moved between levels. -/
def viewRecord (e : Option Entry) (transit : Bool) (level pos index pcell time : Nat) : List Byte :=
  let tok := (e.map (fun x => x.tok.toNat)).getD 0
  let bits := match e with
    | some x => 1 + b2n x.latch * 2 + b2n x.past * 4 + b2n transit * 8 + level * 16
    | none => 0
  leBytes 16 tok ++ leBytes 4 (bits + pos % 64 * 256 + index % 4096 * 65536)
    ++ leBytes 4 (pcell % 512) ++ leBytes 8 time

/-- The ways of a set as view records. -/
def setRecords (ways : List (Option Entry)) (set pcell time first : Nat) : List Byte :=
  (upTo ways.length).flatMap fun i =>
    viewRecord ((ways[i]?).join) false 1 (first + i) set pcell time

/-- The 8 ways of a set (R80). -/
def Cell.ways (c : Cell) (set : Nat) : List (Option Entry) :=
  (upTo 8).map (fun w => tfind c.store (set * 8 + w))

/-- A set view of a cell (R80): 8 records with one time. -/
def State.setView (s : State) (pcell set : Nat) : List Byte :=
  setRecords ((s.cell pcell).ways set) set pcell s.zen.count 0

/-- VIEW_SET (R274): two view records of a set. Way pair 0 takes all 8 ways into the view buffer, and pairs
1 to 3 read it. A checker's view is refused (R82). -/
def execViewSet (pcell set pair : Nat) (s : State) : Out :=
  s.cellMessage pcell fun s =>
    if s.checks pcell then s.replyTo 0x10 []
    else
      let s := if pair = 0 then s.modCell pcell (fun c => { c with
          viewStore := c.ways set, viewWhen := s.zen.count }) else s
      let c := s.cell pcell
      s.replyTo 0 (setRecords ((c.viewStore.drop (2 * pair)).take 2) set pcell c.viewWhen (2 * pair))

/-- The entries of a cell's store that a key matches: one waiting token and one latch, in the key's sets, or in a
Scheduled cell in the pair of entries of the node's matching slot (R60, R80, R208). -/
def Cell.keyEntries (c : Cell) (sched : Bool) (flow : BitVec 12) (iteration : BitVec 16) (addr : BitVec 14) :
    List (Nat × Entry) :=
  if sched then
    let m := addr.toNat % 1024
    [2 * m, 2 * m + 1].filterMap fun i => (tfind c.store i).bind fun e =>
      if e.hit e.latch flow iteration addr then some (i, e) else none
  else
    (c.probe (setOf flow iteration addr) false flow iteration addr).toList
      ++ (c.findLatch flow addr).toList

/-- The entries at levels 2 and 3 of a cloud that a key of a cell matches (R66). -/
def State.keySpilled (s : State) (cloud : Nat) (cell : BitVec 4) (flow : BitVec 12)
    (iteration : BitVec 16) (addr : BitVec 14) : List (SpillPos × Entry) :=
  let v := setOf flow iteration addr * 16 + cell.toNat
  (s.placesOf cloud v).filterMap fun q =>
    ((s.cloud cloud).entryAt q).bind fun e =>
      if e.hit false flow iteration addr ∧ e.tok.cell.toNat % 16 = cell.toNat then some (q, e) else none

/-- The physical cell of a cloud whose tokens a spilled entry is, by its cell field; the cloud's first cell while none of them
holds the logical id, as during a relocation (DESIGN CHOICE: log entry 152). -/
def State.spillHome (s : State) (cloud : Nat) (e : Entry) : Nat :=
  (s.homeIn cloud e.tok.cell).getD (cloud * 16)

/-- A spilled entry as a view record (R79). -/
def State.spillRecord (s : State) (cloud : Nat) (q : SpillPos) (e : Entry) : List Byte :=
  let per := if q.level3 then 63 else 7
  viewRecord (some e) false (if q.level3 then 3 else 2) (q.index % per) (q.index / per) (s.spillHome cloud e)
    s.zen.count

/-- A moving token as a view record at its new level (R80): it has no entry there yet, and shows pos 0. -/
def State.movingRecord (s : State) (cloud : Nat) (m : Bool × Entry) : List Byte :=
  let t := m.2.tok
  viewRecord (some m.2) true (if m.1 then 2 else 1) 0
    (if m.1 then t.spillIndex % s.l2Sets cloud else setOf t.flow t.iteration t.addr) (s.spillHome cloud m.2) s.zen.count

/-- The physical cells at which a key view finds the entries of a cell (R80): the cell, and while its logical id moves the
cell to which a part of the entries has moved already (R339). -/
def State.viewCells (s : State) (pcell : Nat) : List Nat :=
  if pcell = s.rollFrom ∧ (s.rep.phase = .switch ∨ s.rep.phase = .return_) then [pcell, s.rollTo] else [pcell]

/-- A key view of a physical cell (R80): the records of its store, of its tokens between levels, and of those at levels 2
and 3. -/
def State.keyView (s : State) (pcell : Nat) (flow : BitVec 12) (iteration : BitVec 16)
    (addr : BitVec 14) : List (List Byte) :=
  let cells := s.viewCells pcell
  let own := cells.flatMap fun p =>
    ((s.cell p).keyEntries (s.isSched pcell) flow iteration addr).map fun e =>
      viewRecord (some e.2) false 1 (e.1 % 8) (e.1 / 8) p s.zen.count
  let cell := BitVec.ofNat 8 (s.idOf pcell)
  let spilled := (cells.map (· / 16)).eraseDups.flatMap fun c =>
    ((s.inMotion c).filter (fun m => m.2.spillHit cell flow iteration addr)).map (s.movingRecord c)
      ++ ((s.keySpilled c (cell.setWidth 4) flow iteration addr).filter
        (fun r => r.2.tok.cell = cell)).map fun r => s.spillRecord c r.1 r.2
  own ++ spilled

/-- VIEW_KEY (R274): the records of a key, at any level. A checker's view is refused (R82). -/
def execViewKey (pcell : Nat) (flow : BitVec 12) (iteration : BitVec 16) (addr : BitVec 14) (s : State) :
    Out :=
  s.cellMessage pcell fun s =>
    if s.checks pcell then s.replyTo 0x10 []
    else s.replyTo 0 (s.keyView pcell flow iteration addr).flatten

/-- VIEW_SPILL (R274): the entries at levels 2 and 3 that a key matches, and the tokens on their way there, as view
records. -/
def execViewSpill (cloud : Nat) (cell : BitVec 4) (flow : BitVec 12) (iteration : BitVec 16)
    (addr : BitVec 14) (s : State) : Out :=
  unitOk s (cloud < s.variant.clouds) <|
    if ¬ s.engineOn cloud then s
    else s.replyTo 0 ((((s.inMotion cloud).filter (fun m => m.1 && m.2.hit false flow iteration addr
        && decide (m.2.tok.cell.toNat % 16 = cell.toNat))).flatMap (s.movingRecord cloud))
      ++ (s.keySpilled cloud cell flow iteration addr).flatMap (fun r => s.spillRecord cloud r.1 r.2))

/-! ### Slot views (R163) -/

/-- What a strand in a slot waits for, as a slot view record codes it. A strand that a debugger's stop holds
in its slot reads 7. -/
def State.slotState (s : State) (pcell slot : Nat) (t : Strand) : Nat :=
  let c := s.cell pcell
  match c.waitNow t with
  | .remote _ | .output => 3
  | .lock _ _ _ => 4
  | .iter _ _ => 4
  | .divide _ _ _ => 5
  | .brk => 7
  | .nothing =>
    if isFence (c.fetchWord t) ∧ c.tags.any (fun o => o.uid = t.uid) then 6
    else if c.heldByStop t then 7
    else if s.inPipe pcell slot then 2
    else 1

/-- The 32 bytes of a slot view record (R163). -/
def State.slotRecord (s : State) (pcell slot : Nat) (t? : Option Strand) (time : Nat) : List Byte :=
  match t? with
  | none => leBytes 20 slot ++ leBytes 4 (pcell % 512 * 65536) ++ leBytes 8 time
  | some t =>
    leBytes 4 (slot + s.slotState pcell slot t * 16 + (s.cell pcell).eclass t * 256 + t.pc.toNat * 65536)
      ++ leBytes 4 t.tg.toNat ++ leBytes 4 t.stamp.toNat
      ++ leBytes 4 (t.b.toNat + t.l.toNat * 65536) ++ leBytes 4 (s.ssOf pcell t slot).toNat
      ++ leBytes 4 (t.f.toNat + pcell % 512 * 65536) ++ leBytes 8 time

/-- The 8 records of a slot view of a cell, taken at one instant (R163). -/
def State.slotRecords (s : State) (pcell : Nat) : List (List Byte) :=
  (upTo 8).map (fun i => s.slotRecord pcell i ((s.cell pcell).strand i) s.zen.count)

/-- A slot view of a cell (R163): the 8 slots at one instant. -/
def State.slotView (s : State) (pcell : Nat) : List Byte := (s.slotRecords pcell).flatten

/-- VIEW_SLOT (R274): two slot view records. Pair 0 takes the records of all 8 slots into the view buffer. -/
def execViewSlot (pcell pair : Nat) (s : State) : Out :=
  s.cellMessage pcell fun s =>
    if s.checks pcell then s.replyTo 0x10 []
    else
      let s := if pair = 0 then s.modCell pcell (fun c => { c with
          viewSlots := s.slotRecords pcell }) else s
      s.replyTo 0 (((s.cell pcell).viewSlots.drop (2 * pair)).take 2).flatten

/-! ### A debugger's writes, steps and resumes (R331, R457, R488) -/

/-- DBG_WRITE (R274): a frame-store word, a special of a debug-stopped strand or a parcel of a cell is
written, and on the main of a pair recorded for replay (R331). A checker's is refused. -/
def execDbgWrite (pcell : Nat) (target : BitVec 2) (rb : BitVec 14) (where_ : BitVec 16) (v : Word)
    (head : Bool) (s : State) : Out :=
  s.cellMessage pcell fun s =>
    let special := decide (target = 1)
    if s.checks pcell ∨ target = 3 ∨ 16384 ≤ where_.toNat
        ∨ (special ∧ ((specialWord where_.toNat).isNone ∨ ((s.cell pcell).stopped? rb).isNone)) then
      s.replyTo 0x10 []
    else
      let r := if special then rb else 0
      let s := s.recordReplay pcell target.toNat where_.toNat r v head
      (s.debugWrite pcell target.toNat where_.toNat r v head).replyTo 0 []

/-- A debug-stopped strand of a cell steps or resumes (R488), and a main's is recorded for replay. -/
def State.debugGo (s : State) (pcell : Nat) (rb : BitVec 14) (stepping : Bool) : State :=
  let s := s.recordReplay pcell (if stepping then 3 else 4) 0 rb 0 false
  s.modCell pcell (fun c => c.release rb stepping)

/-- DBG_CTRL (R274, R488): STEP or RESUME of the debug-stopped strand of a record. -/
def execDbgCtrl (pcell : Nat) (rb : BitVec 14) (op : BitVec 2) (s : State) : Out :=
  s.cellMessage pcell fun s =>
    if s.checks pcell ∨ ((s.cell pcell).stopped? rb).isNone ∨ (op ≠ 1 ∧ op ≠ 2) then s.replyTo 0x10 []
    else (s.debugGo pcell rb (decide (op = 1))).replyTo 0 []

end Sys2Proof.Machine
end

