-- ==== Sys2Proof/Machine/Setup.lean ====
section
/-! DEFINITION. Set-up accesses to the field side (R13 to R17, R500 to R507, R526): what every register reads
as, which blocks a variant lacks, and what a write of a register does. -/

namespace Sys2Proof.Machine

/-! ### What computed registers read as (R14) -/

/-- The stored register with a field shown from the machine's own state. -/
def State.shown (s : State) (a hi lo x : Nat) : Word := putFld (s.reg a) hi lo x

/-- One bit for each number below 32 that satisfies a test. -/
def bits32 (p : Nat → Bool) : Nat := ((upTo 32).map (fun j => if p j then 2 ^ j else 0)).sum

/-- The capability registers (R498). -/
def State.capWord (s : State) (i : Nat) : Word :=
  let v := s.variant
  match i with
  | 0 => w32 (v.part * 65536 + 3 * 4096 + 5 * 256 + Config.stepping)
  | 1 => w32 (v.spares * 2 ^ 24 + v.clouds * 65536 + v.lcells)
  | 2 => w32 (v.stations * 65536 + v.dsports * 4096 + v.sports * 256 + v.pins)
  | 3 => w32 (48 * 2 ^ 24 + v.mramUnits * 65536 + v.dramMiB)
  | 4 => s.shown aCapUnits 2 0 (b2n (v.stations ≠ 0) * 4 + 3)
  | 5 => w32 (Config.serial.toNat % 2 ^ 32)
  | 6 => w32 (Config.serial.toNat / 2 ^ 32)
  | _ => 0

/-- MODE_STAT (R489). -/
def State.modeStat (s : State) : Word :=
  let m := s.mode
  w32 (m.start.toNat * 2 ^ 28 + b2n m.trial * 2 ^ 27 + b2n m.slotB * 2 ^ 26 + b2n m.loaded * 2 ^ 25
    + b2n s.isDegraded * 2 ^ 24 + m.halted.toNat * 65536 + m.attached.toNat * 256 + m.lstate.code * 16
    + m.mode.code)

/-- MODE_BOOT, as the boot record holds it (R490). -/
def State.modeBoot (s : State) : Word :=
  let m := s.mode
  w32 (m.hgen.toNat * 65536 + b2n m.hvalid * 2048 + b2n m.autorun * 1024 + b2n m.autoload * 512
    + b2n m.standalone * 256 + b2n m.validB * 32 + b2n m.validA * 16 + b2n m.bootTrial * 2 + b2n m.activeB)

/-- FLT_STAT (R365, R372). -/
def State.fltStat (s : State) : Word :=
  w32 (levelCode s.faultN * 65536 + s.flt.faulted.toNat * 256 + b2n (s.flt.wires ≠ []) * 16
    + b2n (s.mode.mode = .safe) * 8 + b2n s.fatal * 4 + b2n (s.pendClass 1) * 2 + b2n (s.pendClass 0))

/-- FLT_FUNIT (R359). -/
def State.fltFunit (s : State) : Word :=
  w32 (s.flt.cells * 2 ^ 24 + bits32 (fun j => decide (j < 8) && (s.port j).fenced) * 65536
    + bits32 (fun j => decide (j < 16) && (s.station j).fenced))

/-- The registers of the fault collector that show its state. -/
def State.fltWord (s : State) (a i : Nat) : Option Word :=
  if a = aFltStat then some s.fltStat
  else if a = aFltFunit then some s.fltFunit
  else if a = aFltTemp then some (s.shown a 7 0 s.flt.temp.toNat)
  else if a = aFltLog then some (s.shown a 15 0 s.flt.seq.toNat)
  else if a = aFltAsrt i then some (w32 (bits32 (fun j => s.asserting (32 * i + j))))
  else if a = aFltWire i then some (w32 (bits32 (fun j => decide (32 * i + j ∈ s.flt.wires))))
  else none

/-- The registers of zenith that show its state (R381, R387). ZEN_STAT.depth shows the horizon die's depth at all times, after
FIELD_RST_N too (DESIGN CHOICE: log entry 154). -/
def State.zenWord (s : State) (a : Nat) : Option Word :=
  if a = aZenStat then
    let off := s.zen.offset.getD 0
    let off := if off > 32767 then 32767 else if off < -32767 then -32767 else off
    some (w32 ((BitVec.ofInt 16 off).toNat * 65536 + s.regF aLnkDev 10 8 * 256 + s.zen.state.code))
  else if a = aZenNowlo then some (w32 s.zen.count)
  else if a = aZenNowhi then some (w32 (s.zen.captured / 2 ^ 32))
  else if a = aZenDelay then some (s.shown a 31 16 Config.barDelay)
  else none

/-- DSP_CELL of a logical cell (R174, R176). A cell's granules and the pool's entries count as free from the
moment an image is loaded, so that both fields read 0 after reset (R16; DESIGN CHOICE: log entry 122). -/
def State.dspCell (s : State) (lid : Nat) : Word :=
  let avail := s.cellFits lid 1 && decide (lid ∉ s.dsp.drain)
  w32 (b2n avail * 2 ^ 19 + b2n (lid ∈ s.dsp.drain) * 2 ^ 18 + b2n (lid ∈ s.dsp.pfFull) * 2 ^ 17
    + (if s.mode.loaded then s.freeGranules lid else 0) * 256 + sat 128 (s.liveCount lid))

/-- The registers of the dispatcher that show its state; the window reads the live entry (R168). -/
def State.dspWord (s : State) (a i : Nat) : Option Word :=
  if a = aDspPool then some (s.shown a 30 16 (if s.mode.loaded then 16384 - s.poolUsed else 0))
  else if a = aDspCell i then some (s.dspCell i)
  else if 0x41000 ≤ a ∧ a < 0x41040 then some (s.flowW (s.regF aDspFsel 11 0) ((a - 0x41000) / 4))
  else none

/-- The registers of the sequencer that show its state. -/
def State.seqWord (s : State) (a p : Nat) : Option Word :=
  if a = aSeqFrame p then some (if (s.part p).state = .idle then 0 else BitVec.ofInt 32 (s.frameNow p))
  else if a = aSeqPstat p then
    some (putFld (s.shown a 2 0 (s.part p).state.code) 3 3 (b2n (s.part p).staged.isSome))
  else none

/-- LCK_DIR of a bank (R283). -/
def State.lckDir (s : State) (b : Nat) : Word :=
  let k := s.bank b
  let free := (k.dir.filter (fun e => !e.2.held)).length
  w32 (k.peak % 64 * 2 ^ 24 + k.waiterCount % 128 * 65536 + free * 256 + k.dir.length)

/-- The state of the march engines (MAR_ENG.state): they test in TEST, and roll while MAR_CTRL says so. -/
def State.marState (s : State) (i : Nat) : Nat :=
  if s.mode.mode = .test then (if s.mode.retest then 2 else 1)
  else if s.rep.phase = .test ∧ i = s.rep.old / 16 then 2
  else if s.running ∧ s.regF aMarCtrl 0 0 = 1 then 3 else 0

/-- The registers of the memory block that show its state. -/
def State.memWord (s : State) (a i : Nat) : Option Word :=
  if a = aLckDir i then some (s.lckDir i)
  else if a = aMarEng i then some (s.shown a 2 0 (s.marState i))
  else if a = aMemSpillL2cnt i then some (w32 (s.cloud i).l2.length)
  else if a = aMemSpillL3cnt i then some (w32 (s.cloud i).l3.length)
  else none

/-- PAIR_WIN of a station (R320, R322). -/
def State.pairWin (s : State) (st : Nat) : Word :=
  let x := s.station st
  w32 (sat 63 x.tags.length * 2 ^ 24 + x.peak * 65536 + sat 63 x.checkers.length * 256
    + sat 63 x.mains.length)

/-- The code of a roll's phase (REP_ROLLST.phase). -/
def RollPhase.code : RollPhase → Nat
  | .idle => 0 | .drain => 1 | .copy => 2 | .switch => 3 | .test => 4 | .return_ => 5

/-- REP_STAT: logical clouds that lie in a spare, ids without a place, and good free cells of spare clouds
that hold no logical cloud. -/
def State.repStat (s : State) : Word :=
  let v := s.variant
  if s.rep.tested = [] then 0
  else
    let retired := ((upTo v.lclouds).filter (fun n =>
      decide (v.lclouds < tget (fun _ => 0) s.rep.cloudOf n))).length
    let unplaced := ((upTo v.lcells).filter (fun l => (s.placeOf l).isNone)).length
    w32 (retired * 2 ^ 24 + sat 255 unplaced * 65536 + s.spareCells.length)

/-- REP_MAP of a logical cell. -/
def State.repMap (s : State) (lid : Nat) : Word :=
  let q := sat 16383 (tget (fun _ => 0) s.rep.quiet lid) * 65536
  match s.placeOf lid with
  | none => w32 q
  | some p =>
    let moved := decide (tget (fun _ => 0) s.rep.tested lid ≠ p + 1)
    w32 (2 ^ 31 + b2n moved * 2 ^ 30 + q + p)

/-- The registers of the pair stations and of repair that show their state. -/
def State.repWord (s : State) (a i : Nat) : Option Word :=
  if a = aPairWin i then some (s.pairWin i)
  else if a = aRepRollst then
    some (w32 (sat 255 s.rep.skips * 2 ^ 24 + s.rep.phase.code * 2 ^ 20 + s.rep.sub * 256 + s.rep.lid))
  else if a = aRepStat then some s.repStat
  else if a = aRepMap i then some (s.repMap i)
  else none

/-- TIO_STAT of a pin. -/
def State.tioStat (s : State) (n : Nat) : Word :=
  let p := s.pin n
  putFld (s.reg (aTioStat n)) 23 0 (p.relQ.length * 65536 + p.capQ.length * 256 + b2n p.drv.isNone * 4
    + b2n (p.drv.getD false) * 2 + b2n (s.pinLevel n))

/-- SP_STAT of a port. -/
def State.spStat (s : State) (p : Nat) : Word :=
  let q := s.portNow p
  putFld (s.reg (aSpStat p)) 15 0 (sat 255 q.tx.length * 256
    + b2n (s.portHeld p) * 4 + b2n q.fenced * 2 + b2n q.busy)

/-- The registers of the field I/O that show its state; the odd pin of a quadrature pair shows func 4
(R402). -/
def State.fioWord (s : State) (a i : Nat) : Option Word :=
  if a = aTioStat i then some (s.tioStat i)
  else if a = aTioCfg i then some (s.shown a 2 0 (s.pinFunc i))
  else if a = aTioRb i then some (w32 (bits32 (fun j => (s.pin (32 * i + j)).rb)))
  else if a = aSpStat i then some (s.spStat i)
  else none

/-- CLD_STAT of a cloud (R34). -/
def State.cldStat (s : State) (c : Nat) : Word :=
  let k := s.cloud c
  let n := ((upTo 16).filter (fun i => (s.lidOf (c * 16 + i)).isSome)).length
  w32 (n * 256 + b2n k.pllLock * 128 + b2n k.slowAct * 64 + b2n k.retired * 32 + k.state.code)

/-- CLD_CELL of a physical cell (R36). -/
def State.cldCell (s : State) (pcell : Nat) : Word :=
  let failed := b2n (decide (pcell ∈ s.rep.failed)) * 2 ^ 30
  match s.lidOf pcell with
  | none => w32 failed
  | some lid =>
    let part := match s.partOf lid with
      | some p => 2 ^ 27 + p * 2 ^ 24 + b2n (s.partition p).sched * 2 ^ 23
      | none => 0
    let pair := b2n (s.pairOf lid).isSome * 2 ^ 22 + b2n (s.isChecker lid) * 2 ^ 21
    w32 (2 ^ 31 + failed + part + pair + lid)

/-- The registers of a cloud that show its state. -/
def State.cldWord (s : State) (a : Nat) : Option Word :=
  let c := (a - 0x200000) / 0x10000
  let off := a % 0x10000
  if off = 0 then some (s.cldStat c)
  else if 0x100 ≤ off ∧ off < 0x140 then some (s.cldCell (c * 16 + (off - 0x100) / 4))
  else none

/-- The value of the register at an address, with the instance of its row: shown from the machine's state, or
as stored. -/
def State.regValue (s : State) (a i : Nat) : Word :=
  let shown : Option Word := match a / 0x10000 with
    | 0 => some (s.capWord (a / 4))
    | 1 => if a = aModeStat then some s.modeStat else if a = aModeBoot then some s.modeBoot else none
    | 2 => s.fltWord a i
    | 3 => s.zenWord a
    | 4 => s.dspWord a i
    | 6 => s.seqWord a i
    | 10 => s.memWord a i
    | 12 => s.repWord a i
    | 14 => s.fioWord a i
    | b => if 0x20 ≤ b then s.cldWord a else none
  shown.getD (s.reg a)

/-! ### Writes -/

/-- Status codes of a set-up access (R456). -/
def stOk : Nat := 0
def stBadOp : Nat := 1
def stBadArg : Nat := 2
def stAbsent : Nat := 3
def stRefused : Nat := 4
def stAccess : Nat := 5
def stSigFail : Nat := 6
def stTimeout : Nat := 7

/-- The relay address (R473). -/
def relayAddr : Nat := 0x200F0

/-- A register that takes no write in the present mode (R193, R307, R344, R353, R388, and the sequencer's
base registers). -/
def State.closed (s : State) (a : Nat) : Bool :=
  let within (lo hi : Nat) : Bool := decide (lo ≤ a ∧ a < hi)
  let loadOnly := within 0x40400 0x40C00 || within 0x40020 0x40040 || within 0xA0000 0xA0044
    || within 0xA2000 0xA2120 || within 0xC0000 0xC0008
    || (within 0xC0100 0xC0500 && decide ((a - 0xC0100) % 0x40 < 0x24))
    || decide (a = aSeqRtbase ∨ a = aSeqPrbase)
  let andSafe := within 0x20400 0x20580 || decide (a = aFltCtrl ∨ a = aFltTemp)
  (s.running && (loadOnly || andSafe)) || (s.mode.mode = .safe && andSafe)

/-- The stored register with its rw fields written (R14). -/
def State.storeRw (s : State) (a rw : Nat) (v : Word) : State :=
  s.setReg a ((s.reg a &&& ~~~(w32 rw)) ||| (v &&& w32 rw))

/-- A write of a serial port's configuration: a value that the map refuses changes nothing; a port that is
disabled, or that changes its mode, discards its FIFOs (R415, R422). -/
def State.writeSpCfg (s : State) (p : Nat) (v : Word) : State :=
  let old := s.reg (aSpCfg p)
  let s := s.setReg (aSpCfg p) (v &&& 0xFFFFF807#32)
  if fld old 0 0 = 1 ∧ (fld v 0 0 = 0 ∨ fld v 2 1 ≠ fld old 2 1) then s.dropPort p else s

/-- SP_CFG is given a mode, a parity or an I²C rate of 3. -/
def spRefused (v : Word) : Bool := fld v 2 1 = 3 || fld v 13 12 = 3 || fld v 19 18 = 3

/-- A write of LCK_CMD, DSP_FCMD, FLT_CMD, ZEN_CMD, SEQ_SWAP or SEM_HOP performs its op; codes without a
command have no effect. -/
def State.commandWrite (s : State) (a p : Nat) (v : Word) : State :=
  if a = aFltCmd then
    let s := s.setRegF a 10 8 (fld v 10 8)
    match fld v 2 0 with
    | 1 => s.clearCounts
    | 2 => s.restart (fld v 10 8)
    | _ => s
  else if a = aZenCmd then
    match fld v 1 0 with
    | 1 => s.zenSet
    | 2 => s.zenStepCmd
    | _ => s
  else if a = aDspFcmd then
    match fld v 2 0 with
    | 1 => s.commitFlow
    | 2 => s.disableFlow (s.regF aDspFsel 11 0)
    | 3 => s.clearFlowFlags
    | 4 => s.clearFlowCounts
    | _ => s
  else if a = aLckCmd then
    match fld v 1 0 with
    | 1 => s.lockCommand false
    | 2 => s.lockCommand true
    | _ => s
  else if a = aSemHop then
    match fld v 1 0 with
    | 1 => s.semHop (fld v 13 8) false
    | 2 => s.semHop (fld v 13 8) true
    | _ => s.setRegF a 13 8 (fld v 13 8)
  else
    let s := s.setRegF a 31 16 (fld v 31 16)
    match fld v 1 0 with
    | 1 => s.armSwap p true (BitVec.ofNat 16 (fld v 31 16))
    | 2 => s.armSwap p false (BitVec.ofNat 16 (fld v 31 16))
    | 3 => s.cancelSwap p
    | _ => s

/-- The register performs an op when it is written. -/
def isCommand (a p : Nat) : Bool :=
  decide (a = aFltCmd ∨ a = aZenCmd ∨ a = aDspFcmd ∨ a = aLckCmd ∨ a = aSemHop ∨ a = aSeqSwap p)

/-- The effect of a write of a register of the field side, of the row and instance given (R14). A SETUP write
in the write phase of LOAD stores a semaphore's count as well (R307). -/
def State.regWrite (s : State) (loader : Bool) (a : Nat) (row : RegRow) (i : Nat) (v : Word) : State :=
  let cloud := (a - 0x200000) / 0x10000
  if isCommand a i then s.commandWrite a i v
  else if a = aFltPend i then s.writeFltPend i v
  else if a = aFltRecInfo i then s.writeFltRec i v
  else if a = aFltSrc i then s.writeFltSrc i v
  else if a = aZenCtrl then s.writeZenCtrl v
  else if a = aZenRate then
    if s.regF aZenCtrl 0 0 = 0 then s.setRate (BitVec.ofNat 16 (fld v 15 0)).toInt else s
  else if 0x30100 ≤ a ∧ a < 0x30200 then (s.storeRw a row.rw v).timerWritten a i
  else if a = aDspFsel then s.selectFlow v
  else if 0x41000 ≤ a ∧ a < 0x41040 then s.stageWord ((a - 0x41000) / 4) v
  else if a = aPrbCfg i then s.writePrbCfg i v
  else if a = aSemCfg i ∧ loader then s.setReg a v
  else if a = aTioCfg i then s.writeTioCfg i v
  else if a = aSpCfg i then s.writeSpCfg i v
  else if 0x200000 ≤ a ∧ a = aCldCtrl cloud then s.writeCldCtrl cloud v
  else s.storeRw a row.rw v

/-- A set-up write to an address of the field side outside the blocks of modes (R13 to R15, R501 to R505):
its status and its effect. -/
def State.fieldWrite (s : State) (loader : Bool) (a : Nat) (v : Word) : Nat × State :=
  if s.variant.absent a then (stAbsent, s.setupRsv loader a v)
  else match regAt a with
    | none => (stOk, s.setupRsv loader a v)
    | some (row, i) =>
      if s.closed a then (stRefused, s)
      else if a = aSpCfg i ∧ spRefused v then (stRefused, s)
      else
        (stOk, (s.regWrite loader a row i v).countRsv loader a v)

/-- A set-up read: its status and its value (R501 to R503). -/
def State.setupRead (s : State) (a : Nat) : Nat × Word :=
  if a % 4 ≠ 0 ∨ (mapOf a).isNone then (stBadArg, 0)
  else if s.variant.absent a then (stOk, 0)
  else match regAt a with
    | none => (stOk, 0)
    | some (_, i) => (stOk, s.regValue a i)

/-- A read of ZEN_NOWLO captures the count (R381, R506). -/
def State.afterRead (s : State) (a : Nat) : State := if a = aZenNowlo then s.captureNow else s

/-! ### SETUP_RD and SETUP_WR (R274) -/

/-- The registers that level-one nodes, spill engines and routers hold: the blocks of the clouds, the spill
groups and the probes' link counters (R228, R274). -/
def inSky (a : Nat) : Bool :=
  decide (0x200000 ≤ a ∧ a < 0x320000) || decide (0xA8000 ≤ a ∧ a < 0xA8480)

/-- SETUP_RD (R274): a set-up register of a level-one node, spill engine or router is read. -/
def execSetupRd (addr : BitVec 24) (s : State) : Out :=
  .next <|
    let a := addr.toNat
    if ¬ s.fieldOn ∨ ¬ inSky a then s
    else match s.setupRead a with
      | (0, v) => s.replyTo 0 (leBytes 4 v.toNat)
      | _ => s.replyTo 0x10 []

/-- SETUP_WR (R274): a set-up register of a level-one node, spill engine or router is written. -/
def execSetupWr (addr : BitVec 24) (v : Word) (s : State) : Out :=
  .next <|
    let a := addr.toNat
    if ¬ s.fieldOn ∨ ¬ inSky a then s
    else if a % 4 ≠ 0 then s.replyTo 0x10 []
    else (s.fieldWrite false a v).2.replyTo 0 []

/-- TIO_CFG_WRITE (R411). -/
def execTioCfgWrite (pin : Nat) (v : Word) (s : State) : Out :=
  unitOk s (pin < 64) (s.ownWrite (aTioCfg pin) v (s.writeTioCfg pin v))

end Sys2Proof.Machine
end

