-- ==== Sys2Proof/Machine/Startup.lean ====
section
/-! DEFINITION. Resets and the cold start (R475 to R479): what each reset keeps, the boot record (R490), TEST
with its repair map (R299 to R306, R333 to R336), and the way to LOAD. -/

namespace Sys2Proof.Machine

/-! ### The boot record (R490) -/

/-- Where the boot record's first copy lies; the second follows 0x80 bytes later. -/
def Variant.bootBase : Variant → Nat
  | .ltm7256 => 0x340000
  | .ltm7128 => 0x340000
  | .ltm7064 => 0xE0000

/-- The 128 bytes of a copy of the boot record. -/
def ModeUnit.bootBytes (m : ModeUnit) (seq : Word) : List Byte :=
  let flags := b2n m.activeB + b2n m.bootTrial * 2 + b2n m.standalone * 4 + b2n m.autoload * 8
    + b2n m.autorun * 16 + b2n m.validA * 32 + b2n m.validB * 64
  let body := leBytes 4 seq.toNat ++ [BitVec.ofNat 8 flags, BitVec.ofNat 8 (b2n m.hvalid), 0, 0]
    ++ leBytes 2 m.hgen.toNat ++ List.replicate 6 0 ++ digestBytes m.digestA ++ digestBytes m.digestB
    ++ List.replicate 46 0
  body ++ leBytes 2 (crc16 body).toNat

/-- A copy's bytes. -/
def State.bootCopy (s : State) (second : Bool) : List Byte :=
  mread s.mem.mram (s.variant.bootBase + b2n second * 0x80) 128

/-- The seq of a copy whose crc is good. -/
def bootSeqOf (bs : List Byte) : Option Word :=
  if leNat (bs.drop 126) = (crc16 (bs.take 126)).toNat then some (w32 (leNat (bs.take 4))) else none

/-- The copy that counts: the good one, or the one with the higher modular seq. -/
def State.bootNewest (s : State) : Option Bool :=
  match bootSeqOf (s.bootCopy false), bootSeqOf (s.bootCopy true) with
  | none, none => none
  | some _, none => some false
  | none, some _ => some true
  | some a, some b => some (decide (a ≠ b ∧ (b - a).toNat < 2 ^ 31))

/-- A digest as its 32 bytes hold it. -/
def bytesDigest (bs : List Byte) : BitVec 256 := BitVec.ofNat 256 (leNat bs.reverse)

/-- The boot record is read at the start; the defaults apply where neither copy is good. -/
def State.readBoot (s : State) : State :=
  match s.bootNewest with
  | none => { s with mode := { s.mode with
      bootSeq := 0, activeB := false, bootTrial := false, standalone := false, autoload := true
      autorun := true, validA := false, validB := false, hvalid := false, hgen := 0, digestA := 0
      digestB := 0 } }
  | some second =>
    let bs := s.bootCopy second
    let flag (i : Nat) : Bool := (bs.getD 4 0).getLsbD i
    { s with mode := { s.mode with
      bootSeq := w32 (leNat (bs.take 4)), activeB := flag 0, bootTrial := flag 1, standalone := flag 2
      autoload := flag 3, autorun := flag 4, validA := flag 5, validB := flag 6
      hvalid := (bs.getD 5 0).getLsbD 0, hgen := BitVec.ofNat 16 (leNat ((bs.drop 8).take 2))
      digestA := bytesDigest ((bs.drop 16).take 32), digestB := bytesDigest ((bs.drop 48).take 32) } }

/-- An update of the boot record writes the copy that does not count, with the next seq. -/
def State.writeBoot (s : State) (f : ModeUnit → ModeUnit) : State :=
  let second := match s.bootNewest with
    | some second => !second
    | none => false
  let m := { f s.mode with bootSeq := s.mode.bootSeq + 1 }
  ({ s with mode := m }).mramWrite (s.variant.bootBase + b2n second * 0x80) (m.bootBytes m.bootSeq)

/-- MODE_BOOT_WRITE (R490): a write to the rw fields of MODE_BOOT updates the boot record. -/
def State.writeModeBoot (s : State) (v : Word) : State :=
  s.writeBoot (fun m => { m with
    standalone := v.getLsbD 8, autoload := v.getLsbD 9, autorun := v.getLsbD 10 })

/-- MODE_BOOT_WRITE (R490). -/
def execModeBootWrite (v : Word) (s : State) : Out :=  .next (s.ownWrite aModeBoot v (s.writeModeBoot v))

/-! ### Resets (R16, R475 to R477) -/

/-- The registers of the horizon block, which HOST_RST_N resets (R16). -/
def horizonReg (a : Nat) : Bool := decide (0x100000 ≤ a ∧ a < 0x110000)

/-- Everything that the field side holds is as after FIELD_RST_N (R16); MRAM keeps its contents, the pins
keep what the outside drives, and DRAM keeps its bytes until TEST writes it. -/
def State.resetField (s : State) : State :=
  { s with
    regs := s.regs.filter (fun e => horizonReg e.1)
    mode := { ModeUnit.reset with
      fieldRst := s.mode.fieldRst, hostRst := s.mode.hostRst, coreLow := s.mode.coreLow }
    zen := Zenith.reset
    flt := { Collector.reset with sensed := s.flt.sensed, safeLine := s.flt.safeLine, temp := s.flt.temp }
    dsp := Dispatcher.reset, seq := []
    jet := Jetstream.reset
    mem := { MemUnit.reset with mram := s.mem.mram, dram := s.mem.dram }
    pairs := [], rep := Repair.reset
    fio := { FieldIO.reset with
      pins := tmap (fun _ => Pin.idle) (fun _ p => { Pin.idle with ext := p.ext }) s.fio.pins
      faultExt := s.fio.faultExt }
    bar := Barrier.reset, clouds := [], cells := [] }

/-- RESET (R475): every step in progress is abandoned. -/
def State.toReset (s : State) : State :=
  if s.mode.mode = .reset then s
  else
    let old := s.mode.mode.code
    let t := timeWord s.zen.count s.isLocal
    let s := s.resetField
    let s := s.setReg aModeCause (w32 (65536 + old))
    let s := (s.setReg aModeTlo (w32 t)).setReg aModeThi (w32 (t / 2 ^ 32))
    let s := if s.mode.hostRst then s.logRing 5 [BitVec.ofNat 8 old, 0, 1] else s
    s.statusChanged

/-- FIELD_RST_N_LOW (R475, R476). A field side that is in RESET already loses zenith's count, which starts from 0 once
FIELD_RST_N is released (R378). -/
def execFieldRstNLow (s : State) : Out :=
  let s := { s with mode := { s.mode with fieldRst := false } }
  .next (if s.mode.mode = .reset then s.resetField else s.toReset)

/-- FIELD_RST_N_HIGH (R476): the field side stays in RESET until the barrier is up. -/
def execFieldRstNHigh (s : State) : Out :=
  .next { s with mode := { s.mode with fieldRst := true } }

/-- The horizon die is reset (R16, R477): links, device number, rings and sessions are lost; the key fuses
stay. -/
def State.resetHorizon (s : State) : State :=
  { s with
    regs := s.regs.filter (fun e => !horizonReg e.1)
    hor := { Horizon.reset with keys := s.hor.keys } }

/-- HOST_RST_N_LOW (R477): the field side keeps its mode; HOST_LOST and with it LNK_DOWN assert. -/
def execHostRstNLow (s : State) : Out :=
  .next <|
    let s := ({ s with mode := { s.mode with hostRst := false } }).resetHorizon
    if s.mode.mode = .reset then { s with bar := Barrier.reset }
    else
      let s := { s with bar := { s.bar with
        up := false, lanes := true, lost := true, toField := [], toHost := [] } }
      let s := s.assertLevel srcBarLink masterDma accNone 0 0
      (s.assertLevel srcHostLost masterDma accNone 0 0).lnkDown 0 0

/-- HOST_RST_N_HIGH (R476, R477): with the field side out of RESET, the barrier comes up again and BAR_LINK
and HOST_LOST clear. -/
def execHostRstNHigh (s : State) : Out :=
  .next <|
    if s.mode.hostRst then s
    else
      let s := { s with mode := { s.mode with hostRst := true } }
      if s.mode.mode = .reset then s else s.barrierUp

/-- SUPPLY_EXCURSION (R352, R475, R516): a field supply leaves its window or is inside it again. The core
supply below its window for 1 ms leads to RESET, which resets what FIELD_RST_N resets but not zenith's count, on which
no other event acts (R378, log entry 141). -/
def execSupplyExcursion (r : Rail) (x : Excursion) (s : State) : Out :=
  let source := match r with
    | .core => srcVmonCore
    | .io => srcVmonIo
    | .dram => srcVmonDram
  .next <|
    match x with
    | .inside =>
      let s := s.endLevel source
      if r = .core then { s with mode := { s.mode with coreLow := false } } else s
    | .above => s.assertLevel source masterNone accNone 0 1
    | .below => s.assertLevel source masterNone accNone 0 0
    | .belowHeld =>
      if r ≠ .core then s
      else
        let s := s.assertLevel source masterNone accNone 0 0
        let t := ({ s with mode := { s.mode with coreLow := true } }).toReset
        { t with zen := { t.zen with count := s.zen.count, frac := s.zen.frac } }

/-! ### TEST: entry (R306, R376, R476) -/

/-- The entries of the repair log that have been written, in seq order: index, and the entry where its crc
is good. -/
def State.repairEntries (s : State) : List (Nat × BitVec 16 × Option RepEntry) :=
  let (base, cap) := s.variant.repairLog
  let used := ((s.mem.mram.filter (fun c => base ≤ c.1 ∧ c.1 < base + cap * 16)).map
    (fun c => (c.1 - base) / 16)).eraseDups
  used.map (fun i =>
    let bs := mread s.mem.mram (base + i * 16) 16
    (i, BitVec.ofNat 16 (leNat ((bs.drop 12).take 2)), RepEntry.ofBytes bs))

/-- A lower-numbered place in a list of logical cells: the physical cell takes the id (R36). -/
def State.assign (s : State) (lid pcell : Nat) : State := s.place lid pcell

/-- The identity map (R23). -/
def State.identityMap (s : State) : State :=
  { s with rep := { s.rep with
    place := (upTo s.variant.lcells).map (fun l => (l, l + 1))
    cloudOf := (upTo s.variant.lclouds).map (fun n => (n, n + 1))
    failed := [] } }

/-- A physical cloud is retired (R334 step 4): its logical cloud moves, each cell to the same (x, y), to the
lowest-numbered spare cloud that is not among the failed ones and holds no logical cloud; a cell that stood
there singly loses its place. -/
def State.retireCloud (s : State) (c : Nat) (bad : List Nat) : State :=
  let s := s.modCloud c (fun k => { k with retired := true })
  match s.rep.cloudOf.find? (fun e => e.2 = c + 1) with
  | none => s
  | some (n, _) =>
    let lids := (upTo 16).map (n * 16 + ·)
    match (upTo s.variant.clouds).find? (fun d => s.freeSpare d && decide (d ∉ bad)) with
    | none =>
      let s := lids.foldl (fun s l => s.unplace l) s
      { s with rep := { s.rep with cloudOf := terase s.rep.cloudOf n } }
    | some d =>
      let s := { s with rep := { s.rep with
        cloudOf := tset (fun _ => 0) s.rep.cloudOf n (d + 1)
        place := s.rep.place.filter (fun e => (e.2 - 1) / 16 ≠ d) } }
      (upTo 16).foldl (fun s k => s.assign (n * 16 + k) (d * 16 + k)) s

/-- A logical id needs a new cell: it has none, or stands on a failed cell or in a retired cloud. -/
def State.needsCell (s : State) (lid : Nat) : Bool :=
  match s.placeOf lid with
  | none => true
  | some p => decide (p ∈ s.rep.failed) || (s.cloud (p / 16)).retired

/-- Step 5 of R334 for one id: it moves to the lowest-numbered good cell of a spare cloud that holds no
logical cloud, or is unplaced. -/
def State.mapOut (s : State) (lid : Nat) : State :=
  if ¬ s.needsCell lid then s
  else
    let s := s.unplace lid
    match s.spareCells with
    | [] => s
    | p :: _ => s.assign lid p

/-- Step 5 of R334, in ascending order of logical ids. -/
def State.mapOutAll (s : State) : State :=
  (upTo s.variant.lcells).foldl (fun s l => s.mapOut l) s

/-- A cell fails (R334 step 5): it is mapped out. -/
def State.failCell (s : State) (pcell : Nat) : State :=
  { s with rep := { s.rep with
    failed := if pcell ∈ s.rep.failed then s.rep.failed else s.rep.failed ++ [pcell] } }

/-- A logged repair is applied again (R306, R334 step 2). A macro that was found unrepairable has its consequence: one that
kept running in RUN retires its cloud now (R303, R304). -/
def State.applyLogged (s : State) (e : RepEntry) : State :=
  let spare (r c : Nat) : State :=
    let (a, b) := s.sparesOf e.target
    { s with mem := { s.mem with spares := tset (fun _ => (0, 0)) s.mem.spares e.target (a + r, b + c) } }
  match e.kind with
  | 1 => spare 1 0
  | 2 => spare 0 1
  | 3 => (s.failCell e.target).mapOutAll
  | 4 => (s.retireCloud e.target []).mapOutAll
  | 5 => match s.spareMacro e.target, macroAt e.target with
    | some c, _ => (s.retireCloud c []).mapOutAll
    | none, .cell p _ => (s.failCell p).mapOutAll
    | none, .scratch c _ => (s.retireCloud c []).mapOutAll
    | none, .glob _ => s
  | _ => s

/-- Entries in modular order of their sequence numbers. -/
def insertSeq (x : BitVec 16 × RepEntry) : List (BitVec 16 × RepEntry) → List (BitVec 16 × RepEntry)
  | [] => [x]
  | y :: ys => if before16 x.1 y.1 then x :: y :: ys else y :: insertSeq x ys

/-- The repair log is read and applied to the identity map; an entry whose crc fails is skipped, and
REPLOG_CRC is reported (R306, R308). -/
def State.applyRepairLog (s : State) : State :=
  let es := s.repairEntries
  let s := { s with mem := { s.mem with spares := [] } }
  let s := es.foldl (fun s e => if e.2.2.isNone then s.raise srcReplogCrc masterDma accRead 0 (w32 e.1)
    else s) s.identityMap
  let good := (es.filterMap (fun e => e.2.2.map (fun r => (e.2.1, r)))).foldl
    (fun l x => insertSeq x l) []
  let s := good.foldl (fun s e => s.applyLogged e.2) s
  { s with rep := { s.rep with
    logCount := es.foldl (fun m e => Nat.max m (e.1 + 1)) 0
    logSeq := match good.getLast? with
      | some (q, _) => q + 1
      | none => 0 } }

/-- TEST begins (R301, R359, R485): every cloud that exists stands under test, fences end, and the repair log
is applied. -/
def State.beginTest (s : State) : State :=
  let s := (upTo s.variant.clouds).foldl (fun s c => s.modCloud c (fun k => { k with
    state := .test, retired := false })) s
  ({ s with rep := { s.rep with fenced := [] } }).applyRepairLog

/-- What asserts when RESET ends reports (R352, R375, R516): the conditions that lasted over it, and a broken safe line. -/
def State.reassert (s : State) : State :=
  let s := s.flt.sensed.foldl (fun (s : State) x => s.assertLevel x.1 x.2.master x.2.access x.2.addr x.2.syn) s
  if s.flt.safeLine then s.safeLineBroken else s

/-- TEST is entered at a cold start: the barrier is up, the boot record and the fault log are read. -/
def State.enterTest (s : State) : State :=
  let s := { s with bar := { s.bar with up := true, lanes := false, lost := false } }
  let s := (s.readBoot.transit .test 0).bump (aModeCnt 0)
  let s := { s with mode := { s.mode with start := 0, retest := false } }
  s.scanFaultLog.beginTest

/-- TEST_ENTRY (R475, R476, R479): FIELD_RST_N high, the barrier trained with the horizon die out of reset,
and the core supply inside its window: the boot record is read and TEST begins. -/
def execTestEntry (s : State) : Out :=
  .next <|
    if s.mode.mode ≠ .reset ∨ ¬ s.mode.fieldRst ∨ ¬ s.mode.hostRst ∨ s.mode.coreLow then s
    else s.enterTest.reassert

/-! ### TEST: completion (R299 to R305, R333 to R336) -/

/-- The macros that a march found failing on the variant's units. -/
def State.macroExists (s : State) (f : MacroFail) : Bool :=
  match macroAt f.macroId with
  | .cell p _ => decide (p < s.variant.pcells)
  | .scratch c _ => decide (c < s.variant.clouds)
  | .glob h => decide (h < 96)

/-- The clouds that a test fails: by logic self-test or by an unrepairable scratchpad macro, and spare
clouds with any unrepairable macro (R303, R334). -/
def State.badClouds (s : State) (r : TestOutcome) (bad : List MacroFail) : List Nat :=
  let spare := bad.filterMap (fun f => s.spareMacro f.macroId)
  let scratch := bad.filterMap (fun f => match macroAt f.macroId with
    | .scratch c _ => some c
    | .cell _ _ => none
    | .glob _ => none)
  (upTo s.variant.clouds).filter (fun c => decide (c ∈ r.clouds ∨ c ∈ spare ∨ c ∈ scratch))

/-- The cells that a test fails (R303, R334). -/
def State.badCells (s : State) (r : TestOutcome) (bad : List MacroFail) : List Nat :=
  let macros := bad.filterMap (fun f => match macroAt f.macroId with
    | .cell p _ => some p
    | .scratch _ _ => none
    | .glob _ => none)
  (upTo s.variant.pcells).filter (fun p => decide (p ∈ r.cells ∨ p ∈ macros))

/-- Steps 4 and 5 of R334: clouds are retired and cells mapped out. Every retirement and every map-out that the repair log
does not hold yet is appended to it (R305): first the clouds, then the cells in the order of the ids that they held, then
cells that held none. -/
def State.takeOut (s : State) (clouds cells : List Nat) (origin : Nat) : State :=
  let entries := s.repairEntries.filterMap (fun e => e.2.2)
  let logged (kind target : Nat) : Bool := entries.any (fun e => e.kind = kind && e.target = target)
  let s := clouds.foldl (fun s c => if (s.cloud c).retired then s else s.retireCloud c clouds) s
  let s := ((upTo s.variant.clouds).filter (fun c => (s.cloud c).retired && !logged 4 c)).foldl
    (fun s c => s.logRepair 4 c 0 0 origin 0) s
  let s := cells.foldl (fun s p => s.failCell p) s
  let new := s.rep.failed.filter (fun p => !logged 3 p)
  let byId := ((upTo s.variant.lcells).filterMap s.placeOf).filter (· ∈ new)
  let s := (byId ++ new.filter (· ∉ byId)).foldl (fun s p => s.logRepair 3 p 0 0 origin 0) s
  s.mapOutAll

/-- The clouds in OFF in which a logical id now stands power up (R258). -/
def State.powerPlaced (s : State) : State :=
  (upTo s.variant.clouds).foldl (fun s c => if s.lidsIn c = [] then s else s.powerUp c) s

/-- Steps 3 to 5 of R334: what march and logic self-test found is repaired, retired and mapped out. -/
def State.buildMap (s : State) (r : TestOutcome) (origin : Nat) : State :=
  let macros := r.macros.filter s.macroExists
  let bad := macros.filter s.exceeds
  let clouds := s.badClouds r bad
  let cells := s.badCells r bad
  let s := macros.foldl (fun s f => s.repairMacro f origin) s
  let s := (cells.filter (· ∈ r.cells)).foldl (fun s p =>
    s.raise srcBistCell (cellMaster p) accToken (w32 ((s.lidOf p).getD 0)) (w32 p)) s
  let s := (clouds.filter (· ∈ r.clouds)).foldl (fun s c =>
    s.repReport srcBistCloud ((s.lidOf (c * 16)).getD 0) (c * 16)) s
  let s := if r.root then s.repReport srcBistRoot 0 0 else s
  let s := s.takeOut clouds cells origin
  (upTo s.variant.lcells).foldl (fun s l =>
    if (s.placeOf l).isNone then s.repReport srcRepNospare l 0 else s) s

/-- The clouds as TEST leaves them (R34, R258): those that hold logical cells run, and a spare without one is
off unless CLD_CTRL keeps it on; a frequency asked for meanwhile is applied (R35). -/
def State.settleClouds (s : State) : State :=
  (upTo s.variant.clouds).foldl (fun s c =>
    let on := decide (s.lidsIn c ≠ []) || s.regF (aCldCtrl c) 0 0 = 1
    if on then s.toRun c else s.modCloud c (fun k => { k with state := .off, pllLock := false })) s

/-- A cold TEST writes DRAM with zeros and clears global memory and every SRAM (R479 steps 4 and 5). -/
def State.clearAll (s : State) : State :=
  { s with
    mem := { s.mem with dram := [], glob := [], poison := [] }
    clouds := tmap (fun _ => Cloud.idle) (fun _ k => { k with scratch := [], l2 := [], l3 := [] }) s.clouds
    cells := [] }

/-! ### LINK and the way to LOAD (R475, R479, R482) -/

/-- MODE_BOOT.valid of a slot. -/
def State.slotValid (s : State) (b : Bool) : Bool := if b then s.mode.validB else s.mode.validA

/-- VERIFY of a slot starts (R482, R484): an image of the inactive slot is a trial. -/
def State.startVerify (s : State) (b : Bool) : State :=
  let trial := decide (b ≠ s.mode.activeB)
  let s := if trial = s.mode.bootTrial then s else s.writeBoot (fun m => { m with bootTrial := trial })
  { s with mode := { s.mode with lstate := .verify, slotB := b, trial, loaded := false } }

/-- No trial is loaded or loading any more: the boot record's trial bit ends with it (R490, log entry 84). -/
def State.dropTrial (s : State) : State :=
  let s := if s.mode.bootTrial then s.writeBoot (fun m => { m with bootTrial := false }) else s
  { s with mode := { s.mode with trial := false } }

/-- LOAD is entered (R475, R479): verification starts where autoload is set and the active slot is valid. -/
def State.enterLoad (s : State) (cause : Nat) : State :=
  let s := ({ s with mode := { s.mode with lstate := .wait, loaded := false } }).transit .load cause
  if s.mode.autoload ∧ s.slotValid s.mode.activeB then s.startVerify s.mode.activeB else s.dropTrial

/-- The upstream port is at step 9 (R432). -/
def State.upstreamUp (s : State) : Bool := s.regF (aLnkStat 0) 3 0 = 9

/-- LINK ends once the upstream port is up (R475). -/
def State.linkDone (s : State) : State :=
  if s.mode.mode = .link ∧ s.upstreamUp then s.enterLoad 3 else s

/-- TEST_COMPLETE (R334, R475, R479): march, logic self-test and, at a cold start, DRAM initialisation are
complete; the repair map is built and the mode becomes LINK. -/
def execTestComplete (r : TestOutcome) (s : State) : Out :=
  .next <|
    if s.mode.mode ≠ .test then s
    else
      let s := s.buildMap r 0
      let s := { s with rep := { s.rep with tested := s.rep.place } }
      let s := s.settleClouds
      let s := if s.mode.retest then s
        else
          let s := (s.clearAll).setRegF aCapUnits 8 8 1
          if s.mode.bootTrial then s.writeBoot (fun m => { m with bootTrial := false }) else s
      (s.transit .link 2).linkDone

/-- STANDALONE_TIMEOUT (R475): with standalone boot enabled, no partner was detected on port 0 for 2 s after
LINK was entered. -/
def execStandaloneTimeout (s : State) : Out :=
  .next <|
    if s.mode.mode = .link ∧ s.mode.standalone ∧ ¬ (s.link 0).partner then s.enterLoad 4 else s

end Sys2Proof.Machine
end

