-- ==== Sys2Proof/Machine/Check.lean ====
section
/-! DEFINITION. The check phase of LOAD (R3, R169, R200 to R207, R266, R278, R309, R335, R344, R480, R481,
R483, R494, R495): the state that an image's partitions, set-up registers and schedules would give, and the
checks on it in the order of their reason codes (R497). -/

namespace Sys2Proof.Machine

/-! ### What an image sets up -/

/-- Global memory once LOAD has cleared it: each entry of the flow table has cold = 1, and home 0 as its last cell (R167). -/
def clearedGlobal : Memory := (upTo 4096).map (fun f => (f * 64 + 23, 1))

/-- Every store of the sky is cleared and the sequencer holds no schedule (R478, R483 step 1). The clouds keep
their power, their repair and their fences, the stations their fences (R359) and the lock directories their peaks (R307),
and DRAM keeps its contents. -/
def State.clearSky (s : State) : State :=
  let clouds := tmap (fun _ => Cloud.idle) (fun _ k => { Cloud.idle with
    state := match k.state with
      | .drain | .parked | .waking => .run
      | st => st
    slowAct := k.slowAct, retired := k.retired
    pllLock := k.pllLock || decide (k.state = .drain ∨ k.state = .parked ∨ k.state = .waking) }) s.clouds
  let s := { s with
    clouds, cells := [], dsp := Dispatcher.reset, seq := [], jet := Jetstream.reset
    pairs := tmap (fun _ => Station.idle) (fun _ x => { Station.idle with fenced := x.fenced }) s.pairs
    rep := { s.rep with quiet := [] }
    mem := { s.mem with
      banks := tmap (fun _ => Bank.idle) (fun _ b => { Bank.idle with peak := b.peak }) s.mem.banks
      glob := clearedGlobal, dramQ := [], mramQ := [], semQ := [], rootAns := []
      poison := s.mem.poison.filter (fun w => w.1 = 19) }
    fio := { s.fio with inQ := [], lrel := [], samples := [], ready := false }
    bar := { s.bar with inQ := [] }
    flt := { s.flt with faulted := 0 }
    mode := { s.mode with parts := [], ifc := [], extract := [] } }
  let s := (upTo 64).foldl (fun s i => s.setReg (aSemCfg i) 0) s
  (upTo 8).foldl (fun s p =>
    let s := (s.setReg (aSeqPcfg p) 0).setReg (aSeqPhase p) 0
    (s.setReg (aSeqMargin p) 0).setReg (aSeqPstat p) 0) s

/-- A record of a PARTS section (R481). -/
def Img.partition (g : Img) (off : Nat) : Partition :=
  let b := g.byte off
  { used := b.testBit 0, sched := b.testBit 1, dbg := b.testBit 2
    cells := BitVec.ofNat 256 (leNat (mread g.mem (g.base + off + 8) 32)) }

/-- PARTS is applied. -/
def State.applyParts (s : State) (g : Img) : State :=
  (g.ofType 3).foldl (fun s x =>
    { s with mode := { s.mode with
      parts := (upTo 8).foldl (fun t p =>
        tset (fun _ => Partition.unused) t p (g.partition (x.off + p * 40))) s.mode.parts } }) s

/-- The entries of the SETUP sections in order: offset, section, address and value. -/
def Img.setup (g : Img) : List (Nat × Nat × Nat × Word) :=
  (g.ofType 1).flatMap fun x => (upTo (x.len / 8)).map fun i =>
    let o := x.off + i * 8
    (o, x.idx, (g.word o).toNat, g.word (o + 4))

/-- SETUP is applied, as set-up writes in order; an entry of an absent block is skipped. -/
def State.applySetup (s : State) (g : Img) : State :=
  g.setup.foldl (fun s e =>
    if s.variant.absent e.2.2.1 then s else (s.fieldWrite true e.2.2.1 e.2.2.2).2) s

/-- The registers and the sequencer's part of a schedule (R200, R205, R206): bank A will be active. -/
def State.applyHeader (s : State) (g : Img) (x : Sched) (p : Nat) : State :=
  let h (i : Nat) : Word := x.hdr.getD i 0
  let s := s.modPart p (fun q => { q with
    state := .wait, nrootA := x.nroot, paths := x.allPaths g, presets := x.npreset
    records := (upTo x.nflows).map (x.record g) })
  let s := s.setReg (aSeqPcfg p) (w32 (fld (h 1) 15 0 * 65536 + fld (h 1) 17 16 * 256))
  let s := (s.setReg (aSeqPhase p) (h 2)).setReg (aSeqMargin p) (w32 (fld (h 3) 15 0))
  s.setRegF (aSeqPstat p) 31 16 (fld (h 0) 15 0)

/-- Partitions, set-up registers and schedule headers of an image, over a cleared sky. -/
def State.trialOf (s : State) (g : Img) : State :=
  let s := (s.clearSky.applyParts g).applySetup g
  (g.ofType 6).foldl (fun s x => s.applyHeader g (g.sched x) x.param) s

/-! ### Checks (R483, R497) -/

/-- Why an image is refused: the reason, and the offset and the section of the failing item. -/
structure Flaw where
  reason : Nat
  off    : Nat
  sec    : Nat
  deriving DecidableEq, Repr

/-- A flaw where a condition fails. -/
def flawUnless (ok : Bool) (reason off sec : Nat) : Option Flaw :=
  if ok then none else some { reason, off, sec }

/-- The first flaw of a list. -/
def firstFlaw (l : List (Option Flaw)) : Option Flaw := l.findSome? id

/-- Bits of a word are 0. -/
def clearIn (w : Word) (mask : Nat) : Bool := w &&& w32 mask = 0

/-- Two ranges of base and length do not overlap; an empty one overlaps nothing. -/
def apart (a b : Nat × Nat) : Bool := decide (a.2 = 0 ∨ b.2 = 0 ∨ a.1 + a.2 ≤ b.1 ∨ b.1 + b.2 ≤ a.1)

/-- No two ranges of a list overlap. -/
def allApart : List (Nat × Nat) → Bool
  | [] => true
  | a :: t => t.all (apart a) && allApart t

/-- The length of a section fits its type (R481). -/
def Img.sectionLen (g : Img) (x : Section) : Bool :=
  let n4 := (g.word (x.off + 36)).toNat
  let first := (g.word (x.off + 32)).toNat
  let n5 := (g.word (x.off + 64)).toNat
  match x.type with
  | 1 => x.len % 8 = 0
  | 2 => x.len % 68 = 0
  | 3 => x.len = 320
  | 4 => decide (40 ≤ x.len ∧ first + n4 ≤ 16384 ∧ x.len = 40 + 2 * n4 + (n4 + 31) / 32 * 4)
  | 5 => decide (68 ≤ x.len ∧ n5 ≤ 16384 ∧ x.len = 68 + 4 * n5)
  | 6 => decide (32 ≤ x.len) && decide ((g.sched x).fin = x.off + x.len)
  | 7 => x.len = 512
  | 8 => x.len % 8 = 0
  | _ => false

/-- Reason 3: the header and the section table (R480, R481). -/
def Img.checkHeader (g : Img) (size : Nat) : Option Flaw :=
  firstFlaw [
    flawUnless (g.word 0 = 0x4D49544C#32) 3 0 0,
    flawUnless (g.byte 4 = 1) 3 4 0,
    flawUnless (g.byte 5 = 1) 3 5 0,
    flawUnless (g.half 6 < 8) 3 6 0,
    flawUnless (g.len % 8 = 0 ∧ g.len ≤ size ∧ 128 + g.half 14 * 16 ≤ g.len) 3 8 0,
    flawUnless (1 ≤ g.half 14 ∧ g.half 14 ≤ 256) 3 14 0,
    flawUnless ((g.words 20 3).all (· = 0)) 3 20 0]

/-- Reason 3: one section. -/
def Img.checkSection (g : Img) (x : Section) : Option Flaw :=
  let entry := 32 + x.idx * 16
  let first := 32 + g.half 14 * 16
  flawUnless (1 ≤ x.type ∧ x.type ≤ 8 ∧ (if x.type = 6 then x.param < 8 else x.param = 0)
    ∧ g.word (entry + 12) = 0 ∧ x.off % 8 = 0 ∧ first ≤ x.off ∧ x.off + x.len + 96 ≤ g.len
    ∧ g.sectionLen x = true
    ∧ (x.type ≠ 3 ∨ (upTo 8).all (fun p => g.byte (x.off + p * 40) < 8
        && leNat (mread g.mem (g.base + x.off + p * 40 + 1) 7) = 0) = true)) 3 entry x.idx

/-- Reason 3. -/
def Img.checkLayout (g : Img) (size : Nat) : Option Flaw :=
  firstFlaw ([g.checkHeader size] ++ g.sections.map g.checkSection
    ++ [flawUnless (allApart (g.sections.map (fun x => (x.off, x.len)))) 3 32 0])

/-- Reason 4: the generation (R494). -/
def State.checkGen (s : State) (g : Img) : Option Flaw :=
  flawUnless (!s.mode.hvalid || decide (s.mode.hgen - BitVec.ofNat 16 (g.half 12) ≠ 0x8000#16)) 4 12 0

/-- Reason 5: every cell of a partition exists, is placed and belongs to no other partition (R26, R335). -/
def State.checkParts (t : State) (g : Img) : Option Flaw :=
  firstFlaw ((g.ofType 3).flatMap fun x => (upTo 8).map fun p =>
    let q := t.partition p
    flawUnless (!q.used || (upTo 256).all (fun l => !q.cells.getLsbD l
      || (decide (l < t.variant.lcells) && (t.placeOf l).isSome && decide (t.partOf l = some p)))) 5
      (x.off + p * 40) x.idx)

/-- The offsets of an image's flow records. -/
def Img.flowRecords (g : Img) : List (Nat × Nat) :=
  (g.ofType 2).flatMap fun x => (upTo (x.len / 68)).map fun i => (x.off + i * 68, x.idx)

/-- Reason 6: a flow entry (R169, R481). -/
def State.checkFlows (t : State) (g : Img) : Option Flaw :=
  firstFlaw (g.flowRecords.map fun (o, sec) =>
    let w (i : Nat) : Word := g.word (o + 4 + i * 4)
    flawUnless (decide (g.word o < 4096) && (upTo 16).all (fun i => w i &&& ~~~(flowRw.getD i 0) = 0)
      && decide (fld (w 0) 0 0 = 0 ∨ t.entryStatus w = 0)) 6 o sec)

/-- The image's FLOWS section enables a flow. -/
def Img.enables (g : Img) (f : Nat) : Bool :=
  g.flowRecords.any (fun r => (g.word r.1).toNat = f && fld (g.word (r.1 + 4)) 0 0 = 1)

/-- The flows that a schedule's flow records, cell tables, root entries and presets name (R207). -/
def Sched.flowNos (x : Sched) (g : Img) : List Nat :=
  (upTo x.nflows).map (fun i => fld ((x.record g i).getD 0 0) 11 0)
    ++ x.tables.flatMap (fun c => (upTo c.count).map (fun i => bitsOf (c.entry g i) 43 32))
    ++ (upTo x.nroot).map (fun i => bitsOf (x.root g i) 43 32)
    ++ (upTo x.npreset).map (fun i => bitsOf (x.preset g i) 75 64)

/-- Slots stand in ascending order. -/
def slotsOk : List Nat → Bool
  | [] => true
  | a :: t => (t.all (a ≤ ·)) && slotsOk t

/-- No slot has more than 8 of a list's slots. -/
def atMost8 (l : List Nat) : Bool := l.all (fun a => decide ((l.filter (· = a)).length ≤ 8))

/-- A logical cell of the partition p, which is Scheduled (R207). -/
def State.inSched (t : State) (p lid : Nat) : Bool :=
  decide (t.partOf lid = some p) && (t.partition p).sched

/-- A flow record of a schedule (R201, R202, R207). -/
def State.recordOk (t : State) (p : Nat) (r : List Word) : Bool :=
  let w (i : Nat) : Word := r.getD i 0
  let size := 16 + (fld (w 3) 2 0 + 1) * fld (w 2) 13 0
  clearIn (w 0) 0xFF000000 && clearIn (w 1) 0xC000C000 && clearIn (w 2) 0xC000C000
    && clearIn (w 3) 0xFFFFFFF8 && t.inSched p (fld (w 0) 23 16)
    && decide (32 ≤ fld (w 2) 29 16 ∧ fld (w 2) 29 16 + 16 ≤ fld (w 2) 13 0
      ∧ fld (w 1) 29 16 + size ≤ 12288)

/-- A cell table of a schedule (R203, R207). -/
def State.tableOk (t : State) (g : Img) (p nslots : Nat) (c : CellTable) : Bool :=
  let es := (upTo c.count).map (c.entry g)
  let slots := es.map (fun e => bitsOf e 15 0)
  clearIn (g.word c.off) 0xFFF80000 && (g.word (c.off + 4) = 0) && decide (c.count ≤ 1024)
    && t.inSched p c.lid
    && es.all (fun e => bitsOf e 15 0 < nslots && bitsOf e 53 52 ≠ 3 && bitsOf e 62 56 = 0)
    && slotsOk slots

/-- The entries of one cell, over all the tables that name it (R207): at most 8 in one slot, and one addr for each
addr[9:0]. -/
def Sched.cellOk (x : Sched) (g : Img) (lid : Nat) : Bool :=
  let es := (x.tables.filter (fun c => c.lid = lid)).flatMap (fun c => (upTo c.count).map (c.entry g))
  atMost8 (es.map (fun e => bitsOf e 15 0))
    && es.all (fun e => es.all (fun d => bitsOf e 25 16 ≠ bitsOf d 25 16 || bitsOf e 29 16 = bitsOf d 29 16))

/-- A root entry (R204, R207). -/
def State.rootOk (t : State) (p nslots e : Nat) : Bool :=
  decide (bitsOf e 15 0 < nslots ∧ bitsOf e 22 16 < 72 ∧ bitsOf e 31 23 = 0 ∧ bitsOf e 63 52 = 0
    ∧ bitsOf e 95 88 = 0 ∧ bitsOf e 127 96 = 0) && t.inSched p (bitsOf e 87 80)

/-- An end of a path record (R205). -/
def State.pathEnd (t : State) (p e : Nat) : Bool :=
  if e < 256 then t.inSched p e else decide (e = 256 ∨ e = 257 ∨ (272 ≤ e ∧ e ≤ 287))

/-- A path record (R205, R207). -/
def State.pathOk (t : State) (p v : Nat) : Bool :=
  t.pathEnd p (bitsOf v 8 0) && t.pathEnd p (bitsOf v 17 9)
    && decide (1 ≤ bitsOf v 23 18 ∧ bitsOf v 23 18 ≤ 48 ∧ bitsOf v 31 24 = 0 ∧ bitsOf v 63 48 = 0)

/-- The header of a schedule (R200). -/
def Sched.headerOk (x : Sched) (p : Nat) : Bool :=
  let h (i : Nat) : Word := x.hdr.getD i 0
  decide (fld (h 1) 17 16 ≠ 3 ∧ fld (h 1) 20 18 = p ∧ x.nroot ≤ 512 ∧ 1 ≤ x.ncells ∧ x.ncells ≤ 256)
    && clearIn (h 1) 0xFFE00000 && clearIn (h 3) 0xFFFF0000 && clearIn (h 4) 0xFE00FC00
    && clearIn (h 5) 0xFFFFF000 && clearIn (h 6) 0xFFFF0000 && clearIn (h 7) 0xFFFFF000

/-- Reason 7: a schedule (R207), as one partition's, where a test says which flows are enabled. -/
def State.checkSched (t : State) (g : Img) (x : Sched) (p sec : Nat) (en : Nat → Bool) : Option Flaw :=
  let nslots := fld (x.hdr.getD 1 0) 15 0 + 1
  let roots := (upTo x.nroot).map (x.root g)
  firstFlaw (
    [flawUnless (x.headerOk p) 7 x.off sec]
    ++ (upTo x.nflows).map (fun i => flawUnless (t.recordOk p (x.record g i)) 7 (x.flows + i * 16) sec)
    ++ x.tables.map (fun c => flawUnless (t.tableOk g p nslots c && x.cellOk g c.lid) 7 c.off sec)
    ++ (upTo x.nroot).map (fun i => flawUnless (t.rootOk p nslots (x.root g i)) 7 (x.roots + i * 16) sec)
    ++ [flawUnless (atMost8 (roots.map (fun e => bitsOf e 15 0))) 7 x.roots sec]
    ++ (upTo x.npaths).map (fun i => flawUnless (t.pathOk p (x.path g i).toNat) 7 (x.paths + i * 8) sec)
    ++ (upTo x.npreset).map (fun i =>
      let v := x.preset g i
      flawUnless (bitsOf v 107 106 = 3 && t.inSched p (bitsOf v 115 108)) 7 (x.presets + i * 16) sec)
    ++ [flawUnless (x.flowNos g |>.all (fun f => !en f)) 7 x.off sec,
        flawUnless (t.regF (aMemPright p) 11 8 = 0) 7 x.off sec])

/-- Reason 7: the schedules. -/
def State.checkSchedules (t : State) (g : Img) : Option Flaw :=
  firstFlaw ((g.ofType 6).map (fun x => t.checkSched g (g.sched x) x.param x.idx g.enables))

/-- Reason 8: the budgets of all links and the margins of all partitions (R215, R218, R261). -/
def State.checkMargins (t : State) (g : Img) : Option Flaw :=
  match g.ofType 6 with
  | [] => none
  | x :: _ => flawUnless t.marginsOk 8 x.off x.idx

/-- The offset and the section of the last SETUP entry that writes an address; 0 where none does. -/
def Img.setupAt (g : Img) (a : Nat) : Nat × Nat :=
  match g.setup.reverse.find? (fun e => e.2.2.1 = a) with
  | some e => (e.1, e.2.1)
  | none => (0, 0)

/-- A flaw of what a set-up register holds. -/
def Img.regFlaw (g : Img) (ok : Bool) (reason a : Nat) : Option Flaw :=
  let (o, sec) := g.setupAt a
  flawUnless ok reason o sec

/-- The pair of a station's register satisfies R309. -/
def State.pairOk (t : State) (st main checker : Nat) : Bool :=
  let all := t.pairs?.flatMap (fun q => [q.2.2.1, q.2.2.2])
  let tmo := t.regF (aPairCfg st) 9 0
  let once (l : Nat) : Bool := decide ((all.filter (· = l)).length = 1)
  match t.partOf main, t.placeOf main, t.placeOf checker with
  | some p, some a, some b =>
    (t.partition p).sched && decide (t.partOf checker = some p) && once main && once checker
      && decide (level1Of (a / 16) ≠ level1Of (b / 16))
      && decide (1 ≤ tmo ∧ tmo ≤ 1000 ∧ tmo * 1000 ≤ 128 * (t.slots p * t.slotLen p))
  | _, _, _ => false

/-- Reason 9: the pairs (R309). -/
def State.checkPairs (t : State) (g : Img) : Option Flaw :=
  firstFlaw (t.pairs?.map fun q =>
    g.regFlaw (t.pairOk q.1 q.2.2.1 q.2.2.2) 9 (aPairPair q.1 q.2.1))

/-- The DRAM regions that an image places, in MiB (R278). -/
def State.dramRegions (t : State) : List (Nat × Nat) :=
  ((upTo t.variant.clouds).filter (fun c => t.regF (aMemSpillCfg c) 16 16 = 1)).map
      (fun c => (t.regF (aMemSpillL3 c) 9 0 * 4, 4))
    ++ [(t.regF aDspOvf 11 0, t.regF aDspOvf 23 16), (t.regF aDspTrcd 11 0, t.regF aDspTrcd 23 16)]
    ++ (upTo 8).map (fun p => (t.regF (aMemDwin p) 11 0, t.regF (aMemDwin p) 27 16))

/-- Size of the preset copy area in KiB (R224). -/
def State.presetKiB (t : State) : Nat := (16 * ((upTo 8).map (fun p => (t.part p).presets)).sum + 1023) / 1024

/-- The four areas that an image places in the global-memory system area, in KiB (R266). -/
def State.systemAreas (t : State) : List (Nat × Nat) :=
  [(t.regF aDspPool 11 0, 256), (t.regF aDspTrc 11 0, t.regF aDspTrc 27 16),
   (t.regF aSeqRtbase 11 0, 128), (t.regF aSeqPrbase 11 0, t.presetKiB)]

/-- The receive ring of an enabled port, with its consume word, lies in the graphs' global memory (R418). -/
def State.ringOk (t : State) (p : Nat) : Bool :=
  let size := t.regF (aSpRxbuf p) 19 16
  t.regF (aSpCfg p) 0 0 = 0 || decide (size ≤ 8 ∧ t.regF aMemGsys 11 0 * 1024 ≤ t.ringBase p
    ∧ t.ringBase p + t.ringSize p + 4 ≤ 3 * 2 ^ 20)

/-- Reason 10: the regions of DRAM, global memory and scratchpads (R266, R278). -/
def State.checkMemory (t : State) (g : Img) : Option Flaw :=
  let top := t.regF aMemGsys 11 0
  firstFlaw (
    (upTo t.variant.clouds).map (fun c =>
      let n := t.regF (aMemSpillCfg c) 10 8
      g.regFlaw (n ≤ 5 ∧ t.regF (aMemSpillCfg c) 5 0 + 2 ^ n ≤ 64) 10 (aMemSpillCfg c))
    ++ [g.regFlaw (allApart t.dramRegions
          && t.dramRegions.all (fun r => r.2 = 0 || r.1 + r.2 ≤ t.variant.dramMiB * 7 / 8)) 10 aDspOvf,
        g.regFlaw (256 ≤ top) 10 aMemGsys,
        g.regFlaw (allApart ((0, 256) :: t.systemAreas)
          && t.systemAreas.all (fun r => r.2 = 0 || r.1 + r.2 ≤ top)) 10 aMemGsys]
    ++ (upTo t.variant.sports).map (fun p => g.regFlaw (t.ringOk p) 10 (aSpRxbuf p)))

/-- The value of a SETUP entry is accepted (R307, R402, R415, R481). -/
def setupValueOk (v : Variant) (a : Nat) (x : Word) : Bool :=
  if v.absent a then
    !(decide (0xC0100 ≤ a ∧ a < 0xC0500 ∧ 4 ≤ a % 0x40 ∧ a % 0x40 < 0x24) && fld x 31 31 = 1)
  else if 0xA2000 ≤ a ∧ a < 0xA2100 then decide (fld x 31 16 ≠ 0 ∧ fld x 15 0 ≤ fld x 31 16)
  else if 0xE0000 ≤ a ∧ a < 0xE0800 ∧ a % 0x20 = 0 then
    decide (fld x 2 0 ≤ 4 ∧ (fld x 2 0 = 4 → (a - 0xE0000) / 0x20 % 2 = 0))
  else if 0xE1000 ≤ a ∧ a < 0xE1200 ∧ a % 0x40 = 0 then !spRefused x
  else true

/-- The address of a SETUP entry is one that the loader writes (R481). -/
def setupAddrOk (a : Nat) : Bool :=
  a % 4 = 0 && (decide (0x20000 ≤ a ∧ a < 0xF0000) || decide (0x200000 ≤ a ∧ a < 0x320000))

/-- Reason 11: SETUP addresses and values. -/
def State.checkSetup (s : State) (g : Img) : Option Flaw :=
  firstFlaw (g.setup.map fun (o, sec, a, v) =>
    flawUnless (setupAddrOk a && setupValueOk s.variant a v) 11 o sec)

/-- The interface records of an image, with their offsets and sections. -/
def Img.ifcs (g : Img) : List (Nat × Nat × BitVec 64) :=
  (g.ofType 8).flatMap fun x => (upTo (x.len / 8)).map fun i =>
    let o := x.off + i * 8
    (o, x.idx, BitVec.ofNat 64 (leNat (mread g.mem (g.base + o) 8)))

/-- Reason 12: the interface records (R495). -/
def Img.checkIfc (g : Img) : Option Flaw :=
  let flows (r : BitVec 64) : Nat × Nat :=
    (bitsOf r.toNat 43 32, bitsOf r.toNat 55 44 + 1 - bitsOf r.toNat 43 32)
  firstFlaw (g.ifcs.map (fun (o, sec, r) =>
      let v := r.toNat
      flawUnless (bitsOf v 9 0 ≠ 0 ∧ bitsOf v 31 28 = 0 ∧ bitsOf v 63 56 = 0
        ∧ bitsOf v 21 16 ≤ bitsOf v 27 22 ∧ bitsOf v 43 32 ≤ bitsOf v 55 44) 12 o sec)
    ++ match g.ifcs with
      | [] => []
      | (o, sec, _) :: _ => [flawUnless (allApart (g.ifcs.map (fun e => flows e.2.2))) 12 o sec])

/-- The check phase (R483): the first check that fails, in the order of the reasons. -/
def State.checkImage (s : State) (g : Img) : Option Flaw :=
  let size := (s.variant.slot false).2
  match firstFlaw [flawUnless ((g.half 6).testBit s.variant.bit) 2 6 0, g.checkLayout size, s.checkGen g] with
  | some f => some f
  | none =>
    let t := s.trialOf g
    firstFlaw [t.checkParts g, t.checkFlows g, t.checkSchedules g, t.checkMargins g, t.checkPairs g,
      t.checkMemory g, s.checkSetup g, g.checkIfc]

/-- Reason 1 (R470, R482): the slot is marked valid and its digest is the recorded one. -/
def State.slotDigestOk (s : State) (b : Bool) : Bool :=
  decide ((s.slotImage b).len ≤ (s.variant.slot b).2 ∧ 96 ≤ (s.slotImage b).len)
    && decide ((s.slotImage b).digest = if b then s.mode.digestB else s.mode.digestA)

end Sys2Proof.Machine
end

