-- ==== Sys2Proof/Machine/Load.lean ====
section
/-! DEFINITION. The phases of LOAD (R482 to R484, R494): verification, the refusal of an image with the fallback
to the active slot, the write phase (R483), and the entry into RUN. -/

namespace Sys2Proof.Machine

/-! ### Refusal and fallback (R470, R484, R497) -/

/-- SEC_SIG is reported for a slot that LOAD refuses (R470, R473): SEC_STAT.result is 5, and the detail holds 5,
with bit 8 set where the slot is not marked valid. The horizon die relays it, unless it is in reset. -/
def State.sigRefused (s : State) (marked : Bool) : State :=
  let detail := 5 + b2n (!marked) * 256
  if s.mode.hostRst then (s.relay srcSecSig true 0 detail).setRegF aSecStat 2 0 5
  else s.raise srcSecSig masterHost accNone 0 (w32 detail)

/-- The loader refuses an image: IMG_LOAD is reported, and the load of an inactive slot is followed at once by one
of the active slot (R484). -/
def State.refuseImage (s : State) (f : Flaw) : State :=
  let s := s.raise srcImgLoad masterDma accNone (w32 f.off) (w32 (f.reason + f.sec * 256))
  let s := s.bump (aModeCnt 2)
  if s.mode.trial then
    let s := { s with mode := { s.mode with lstate := .wait } }
    ((s.transit .load 15).bump (aModeCnt 4)).startVerify s.mode.activeB
  else { s with mode := { s.mode with lstate := .refused } }

/-- VERIFY_DONE (R482): the slot's validity and digest are compared with the boot record. -/
def execVerifyDone (s : State) : Out :=
  .next <|
    if s.mode.mode ≠ .load ∨ s.mode.lstate ≠ .verify then s
    else
      let b := s.mode.slotB
      if s.slotValid b && s.slotDigestOk b then { s with mode := { s.mode with lstate := .check } }
      else (s.sigRefused (s.slotValid b)).refuseImage { reason := 1, off := 0, sec := 0 }

/-- CHECK_DONE (R483): every check is made, with nothing written. -/
def execCheckDone (s : State) : Out :=
  .next <|
    if s.mode.mode ≠ .load ∨ s.mode.lstate ≠ .check then s
    else
      let g := s.slotImage s.mode.slotB
      match s.checkImage g with
      | none => { s with mode := { s.mode with lstate := .write, gen := BitVec.ofNat 16 (g.half 12) } }
      | some f => (if 8 ≤ f.reason then s.noteMargins (s.trialOf g) else s).refuseImage f

/-! ### The write phase (R483) -/

/-- CODE and DATA are written to each named cell that is placed; the checker of a pair takes its main's (R311). -/
def State.applyCode (s : State) (g : Img) : State :=
  (upTo s.variant.lcells).foldl (fun s l => s.modLid l (fun c => c.load g (s.workId l) 16384)) s

/-- FLOWS is applied: each entry starts cold, with home as the last cell (R169, R481), and its late policy and
lrel go to the cells and to the field I/O (R483 step 5). -/
def State.applyFlows (s : State) (g : Img) : State :=
  g.flowRecords.foldl (fun s r =>
    let f := (g.word r.1).toNat % 4096
    let w (i : Nat) : Word := g.word (r.1 + 4 + i * 4)
    let s := (upTo 16).foldl (fun s i => s.setFlowW f i (w i)) s
    let s := (s.setFlowF f 5 24 24 1).setFlowF f 5 23 16 (fld (w 5) 15 8)
    (s.spreadPolicy f (BitVec.ofNat 2 (fld (w 0) 6 5))).setLrel f (fld (w 0) 12 12 = 1)) s

/-- The copies of a schedule's presets (R224). -/
def State.copyPresets (s : State) (g : Img) (x : Sched) (p : Nat) : State :=
  let bs := mread g.mem (g.base + x.presets) (x.npreset * 16)
  { s with mem := { s.mem with glob := mwrite s.mem.glob (s.presetBase p) bs } }

/-- SCHED is applied (R200 to R206): directory entries, slot tables, root tables and presets; the lrel of a flow
record replaces the flow entry's (R392). -/
def State.applySched (s : State) (g : Img) (x : Sched) (p : Nat) : State :=
  let s := s.putRecords (s.part p).records
  let s := (s.part p).records.foldl (fun s r =>
    s.setLrel (fld (r.getD 0 0) 11 0) (fld (r.getD 0 0) 14 14 = 1)) s
  let s := (s.putTables g x p false).putRoots g x p false
  (s.copyPresets g x p).restorePresets p

/-- EXTRACT and IFC are applied (R460, R495). -/
def State.applyMaps (s : State) (g : Img) : State :=
  let extract := (g.ofType 7).foldl (fun t x => (upTo 4096).foldl (fun t f =>
    tset (fun _ => false) t f ((g.byte (x.off + f / 8)).testBit (f % 8))) t) s.mode.extract
  { s with mode := { s.mode with extract, ifc := g.ifcs.map (fun e => e.2.2) } }

/-- The longest run of a number of slots in which none of a list is used (R341). -/
def longestGap (used : Nat → Bool) : Nat → Nat → Nat → Nat
  | 0, run, best => max run best
  | n + 1, run, best =>
    if used n then longestGap used n 0 (max run best) else longestGap used n (run + 1) best

/-- The quiet span of a Scheduled cell in µs (R341). -/
def State.quietSpan (s : State) (g : Img) (x : Sched) (p lid : Nat) : Nat :=
  let tables := x.tables.filter (fun t => t.lid = s.workId lid)
  let mine := tables.flatMap (fun t => (upTo t.count).map (fun i => bitsOf (t.entry g i) 15 0))
  let roots := ((upTo x.nroot).map (x.root g)).filter (fun e => bitsOf e 87 80 = s.workId lid)
  let used := mine ++ roots.map (fun e => bitsOf e 15 0)
  longestGap (fun n => decide (n ∈ used)) (s.slots p) 0 0 * s.slotLen p / 1000

/-- The quiet spans of the cells of a schedule's partition. -/
def State.applySpans (s : State) (g : Img) (x : Sched) (p : Nat) : State :=
  let lids := (upTo s.variant.lcells).filter (fun l => s.partOf l = some p)
  { s with rep := { s.rep with quiet := lids.foldl (fun t l =>
    tset (fun _ => 0) t l (s.quietSpan g x p l)) s.rep.quiet } }

/-- The pairs start in RUN, and an entry that is not valid is unused (R324, PAIR_PAIR.state). -/
def State.startPairs (s : State) : State :=
  (upTo s.variant.stations).foldl (fun s i => (upTo 8).foldl (fun s j =>
    let r := s.reg (aPairPair i j)
    if r = 0 then s else s.setRegF (aPairPair i j) 14 12 (fld r 31 31)) s) s

/-- Steps 1 to 5 of the write phase. A cloud whose frequency the image changes, or that it leaves without a logical cell,
drains (R31, R35, R258). -/
def State.writeImage (s : State) (g : Img) : State :=
  let s := (s.trialOf g).applyCode g
  let s := s.applyFlows g
  let s := s.setRegF aSeqPrbase 27 16 s.presetKiB
  let s := (g.ofType 6).foldl (fun s x => (s.applySched g (g.sched x) x.param).applySpans g (g.sched x) x.param) s
  let s := ((s.applyMaps g).writeBudgets.recordMargins).startPairs
  (upTo s.variant.clouds).foldl (fun s c => s.onRun c) s

/-- The injection test (R329): every station that judges both synthetic pairs right passes. -/
def State.injectionTest (s : State) (bad : List Nat) : State :=
  if s.regF aPairCtrl 0 0 = 0 then s
  else
    let here := upTo s.variant.stations
    let pass := bits32 (fun i => decide (i < s.variant.stations ∧ i ∉ bad))
    let s := s.setRegF aPairInj 31 16 pass
    (here.filter (· ∈ bad)).foldl (fun s i => s.pairReport srcPairInjFail i 0 0 0) s

/-- RUN is entered (R219, R475): the cells issue, and each Scheduled partition fires its first frame at the first
boundary that is 50 µs away. -/
def State.enterRun (s : State) (cause : Nat) : State :=
  let s := (upTo s.variant.pcells).foldl (fun s p =>
    if p ∈ s.rep.fenced then s else s.modCell p (fun c => { c with stopped := false })) s
  let s := (upTo 8).foldl (fun s p => s.modPart p (fun q =>
    if q.state = .wait then { q with resumeAt := s.zen.count + 50000, frame := s.frameNow p - 1 } else q)) s
  (s.transit .run cause).settle

/-- A load is complete (R482, R494): the highest generation is kept, and with autorun the module enters RUN. -/
def State.loadDone (s : State) : State :=
  let g := s.mode.gen
  let newer := !s.mode.hvalid || (decide (g ≠ s.mode.hgen) && decide ((g - s.mode.hgen).toNat < 0x8000))
  let s := if newer then s.writeBoot (fun m => { m with hgen := g, hvalid := true }) else s
  let s := { s with mode := { s.mode with lstate := .done, loaded := true } }
  let s := (s.bump (aModeCnt 1)).startTimers
  if s.mode.autorun then s.enterRun 5 else s

/-- WRITE_DONE (R483): the seven steps of the write phase; the stations named fail their injection test. -/
def execWriteDone (badStations : List Nat) (s : State) : Out :=
  .next <|
    if s.mode.mode ≠ .load ∨ s.mode.lstate ≠ .write then s
    else ((s.writeImage (s.slotImage s.mode.slotB)).configureField.injectionTest badStations).loadDone

end Sys2Proof.Machine
end

