-- ==== Sys2Proof/Machine/Engine.lean ====
section
/-! DEFINITION. The command engine of the horizon die (R449, R453 to R456): malformed entries, completions, and
the side of the barrier that a command runs on. -/

namespace Sys2Proof.Machine

/-! ### Host memory (R428, R430, R445) -/

/-- Bytes filled up to a whole number of 32-byte units (R428). -/
def padded (bs : List Byte) : List Byte := bs ++ List.replicate ((32 - bs.length % 32) % 32) 0

/-- The module sends a message to the adapter, where the upstream port is up. -/
def State.toAdapter (s : State) (type : Byte) (payload : List Byte) : State :=
  if s.mode.hostRst ∧ s.upstreamUp then s.sendUp type (padded payload) else s

/-- The tags of the module's accesses to host memory (DESIGN CHOICE: log entry 158): a ring's number for its entries,
and these for the doorbell page and for the host buffer of a command. -/
def tagPage : Nat := 5
def tagBuffer : Nat := 6

/-- MEM_RD of host memory, with the tag that its completion carries. -/
def State.memRd (s : State) (addr len tag : Nat) : State :=
  if s.mode.hostRst ∧ s.upstreamUp then
    let q : HostRead := { tag, got := List.replicate len none }
    ({ s with hor := { s.hor with reads := s.hor.reads ++ [q] } }).toAdapter 0x05
        (leBytes 8 addr ++ leBytes 2 len ++ [BitVec.ofNat 8 tag])
  else s

/-- The MEM_RDs with a tag are awaited no more. -/
def State.dropReads (s : State) (tag : Nat) : State :=
  { s with hor := { s.hor with reads := s.hor.reads.filter (fun q => q.tag ≠ tag) } }

/-- MEM_WR of host memory, in frames of up to 480 data bytes; the data stand after 32 bytes of address and
length. -/
def State.memWr : Nat → State → Nat → List Byte → State
  | 0, s, _, _ => s
  | n + 1, s, addr, bs =>
    if bs = [] then s
    else
      let d := bs.take 480
      let s := s.toAdapter 0x07 (padded (leBytes 8 addr ++ leBytes 2 d.length) ++ d)
      s.memWr n (addr + d.length) (bs.drop 480)

/-- Bytes are written to host memory. -/
def State.hostWrite (s : State) (addr : Nat) (bs : List Byte) : State := s.memWr (bs.length / 480 + 1) addr bs

/-- The address of the doorbell page. -/
def State.pageAddr (s : State) : Nat := s.regF aRingDblo 31 12 * 4096 + s.regF aRingDbhi 31 0 * 2 ^ 32

/-- A word of the page's second half is written. -/
def State.writePage (s : State) (off : Nat) (v : Word) : State :=
  s.hostWrite (s.pageAddr + off) (leBytes 4 v.toNat)

/-- A source whose relay word's port and detail the manual does not give is relayed with free ones (R473). -/
def State.relayFree (s : State) (source : Nat) : State :=
  let (i, s) := s.takeFresh
  let w := Config.freeWord i
  s.relay source true (fld w 7 0) (fld w 31 16)

/-! ### Rings (R444, R448) -/

/-- Entries of a ring. -/
def State.ringLen (s : State) (r : Nat) : Nat := 2 ^ s.regF (aRingCfg r) 4 0

/-- The host address of the slot of an entry. -/
def State.slotAddr (s : State) (r k : Nat) : Nat :=
  s.regF (aRingBlo r) 31 12 * 4096 + s.regF (aRingBhi r) 31 0 * 2 ^ 32 + k % s.ringLen r * 64

/-- The module's index of a ring moves by one, and the page shows it (R445). -/
def State.nextIndex (s : State) (r : Nat) : State :=
  let s := s.setReg (aRingIdx r) (s.reg (aRingIdx r) + 1)
  s.writePage (0x800 + 4 * r) (s.reg (aRingIdx r))

/-! ### Faults of a ring (R449, R473) -/

/-- A ring's error is recorded and RING_ERR is relayed. -/
def State.ringErr (s : State) (r code : Nat) : State :=
  (s.setRegF (aRingStat r) 5 4 code).relay srcRingErr true r code

/-- A ring is stopped (R449). -/
def State.stopRing (s : State) (r code : Nat) : State :=
  (s.setRegF (aRingStat r) 0 0 1).ringErr r code

/-- A ring is enabled and not stopped. -/
def State.ringOn (s : State) (r : Nat) : Bool :=
  decide (s.regF (aRingCfg r) 8 8 = 1 ∧ s.regF (aRingStat r) 0 0 = 0)

/-! ### The field side as the horizon die reaches it (R442, R454) -/

/-- The field side answers: it is out of RESET, and the barrier is up. -/
def State.fieldAnswers (s : State) : Bool := s.fieldOn && s.bar.up && s.mode.hostRst

/-! ### Completions (R454, R456) -/

/-- The time that a completion carries: zenith's count, or for an op that the horizon die executes the horizon
counter's time by R384; free until a marker has arrived. -/
def State.cplTime (s : State) (onHorizon : Bool) : Nat × State :=
  if onHorizon then
    match s.toZenith s.hor.hcount with
    | some z => (z.toNat % 2 ^ 63, s)
    | none =>
      let (i, s) := s.takeFresh
      let (j, s) := s.takeFresh
      ((Config.freeWord i).toNat + (Config.freeWord j).toNat % 2 ^ 31 * 2 ^ 32, s)
  else (s.zen.count % 2 ^ 63, s)

/-- What a command answers: its status, its result word, short results, and bytes for the host buffer. -/
structure Answer where
  status : Nat
  result : Word
  data   : List Byte
  buffer : List Byte
  deriving DecidableEq, Repr

/-- An answer that holds a status and nothing else. -/
def Answer.of (status : Nat) : Answer := { status, result := 0, data := [], buffer := [] }

/-- A command of the ring completes: its completion is held until it can be written. -/
def State.complete (s : State) (c : Command) (onHorizon counts : Bool) (a : Answer) : State :=
  let (time, s) := s.cplTime onHorizon
  let cpl : Completion :=
    { id := c.id, op := c.op, status := BitVec.ofNat 8 a.status, result := a.result, time
      local_ := s.isLocal, data := a.data, notify := c.flags.getLsbD 0, haddr := c.haddr
      buffer := a.buffer, counts }
  { s with hor := { s.hor with cplQ := s.hor.cplQ ++ [cpl] } }

/-! ### Commands (R449, R453, R455) -/

/-- Bytes of an entry that an op uses beside its head: how many of the words a0, a1 and a2, whether haddr, and how many
of the first data bytes; none for an op that is not defined. -/
def opUses (op : Byte) : Option (Nat × Nat × Nat × Bool × Nat) :=
  match op.toNat with
  | 0x01 => some (4, 0, 0, false, 0)
  | 0x02 => some (4, 4, 0, false, 0)
  | 0x10 => some (4, 1, 0, false, 0)
  | 0x18 => some (4, 2, 2, false, 0)
  | 0x20 => some (4, 0, 0, false, 0)
  | 0x21 => some (4, 4, 0, true, 0)
  | 0x22 => some (0, 0, 0, false, 0)
  | 0x23 => some (4, 0, 0, false, 0)
  | 0x30 => some (4, 4, 4, true, 0)
  | 0x31 => some (4, 4, 4, true, 0)
  | 0x32 => some (4, 4, 0, true, 0)
  | 0x33 => some (4, 4, 4, true, 0)
  | 0x34 => some (4, 0, 0, true, 0)
  | 0x40 => some (0, 0, 0, false, 0)
  | 0x50 => some (1, 0, 0, true, 32)
  | _ => none

/-- Bytes of a word from the n-th on are 0. -/
def unusedClear (w : Word) (n : Nat) : Bool := decide (w.toNat < 256 ^ n)

/-- The status with which a malformed command is answered (R449); none for a well-formed one. -/
def Command.malformed (c : Command) : Option Nat :=
  match opUses c.op with
  | none => some stBadOp
  | some (a0, a1, a2, haddr, n) =>
    if c.flags.toNat / 2 = 0 ∧ unusedClear c.a0 a0 ∧ unusedClear c.a1 a1 ∧ unusedClear c.a2 a2
        ∧ (haddr ∨ c.haddr = 0) ∧ ((c.data.take 40).drop n).all (· = 0) then none
    else some stBadArg

/-- An argument of a well-formed command is out of range, with bits that its range leaves out among them: the op or slot
of a mode command, the action, partition, cell or strand of a debug action, the length and unit of a memory command, the
key of a view, the slot and usage of a key (R455, R485, R486). -/
def Command.outOfRange (c : Command) : Bool :=
  match c.op.toNat with
  | 0x10 => decide (c.a0 = 0 ∨ 5 < c.a0.toNat ∨ 4 ≤ c.a1.toNat)
  | 0x18 => decide (c.a0 = 0 ∨ 5 < c.a0.toNat)
      || (if c.a0 = 5 then decide (2 ^ 9 ≤ c.a1.toNat ∨ 2 ^ 14 ≤ c.a2.toNat) else decide (8 ≤ c.a1.toNat))
  | 0x30 | 0x31 => decide (2 ^ 25 ≤ c.a2.toNat)
  | 0x33 => decide (2 ^ 26 ≤ c.a1.toNat ∨ 2 ^ 16 ≤ c.a2.toNat)
  | 0x50 => decide (16 ≤ c.a0.toNat)
  | _ => false

/-- The command engine takes an entry from its queue. -/
def State.takeCommand (s : State) (rest : List Command) : State :=
  { s with hor := { s.hor with cmdQ := rest } }

/-- Entries of the command ring that have been fetched and that its consumer index has not passed. -/
def State.heldCommands (s : State) : Nat :=
  (s.hor.cmdQ.filter (fun c => !c.old)).length + (s.hor.cplQ.filter (fun c => c.counts)).length

/-- The command engine serves the command ring: it is not stopped. A ring that has been disabled holds the entry in
progress alone (R450). -/
def State.commandsOn (s : State) : Bool := decide (s.regF (aRingStat 0) 0 0 = 0)

/-- The command engine takes the entries at its head that it does not execute: malformed ones, which RING_ERR
reports, and ones out of range. It goes on while no completion is held (R454). -/
def State.skipCommands : Nat → State → State
  | 0, s => s
  | n + 1, s =>
    match s.hor.cmdQ, s.hor.cplQ with
    | c :: rest, [] =>
      let t := s.takeCommand rest
      if ¬ s.commandsOn then s
      else match c.malformed with
      | some st => ((t.ringErr 0 2).complete c true (!c.old) (Answer.of st)).skipCommands n
      | none =>
        if c.outOfRange then (t.complete c true (!c.old) (Answer.of stBadArg)).skipCommands n else s
    | _, _ => s

/-- The length of the host buffer that a command reads, where it reads one (R455): the block, the bytes to be
written, or the authorisation. -/
def Command.reads (c : Command) : Nat :=
  match c.op.toNat with
  | 0x21 => if c.a1.toNat ≤ 4096 then c.a1.toNat else 0
  | 0x31 => if fld c.a2 15 0 ≤ 4096 then fld c.a2 15 0 else 0
  | 0x50 => if c.haddr = 0 then 0 else 96
  | _ => 0

/-- The bytes of a command's host buffer, once they have been read: they stand behind the entry's 40. -/
def Command.buffer (c : Command) : List Byte := c.data.drop 40

/-- The command at the head takes its turn: the engine passes over what it does not execute, and a host buffer that
the command reads is asked for, unless it has come or is on its way. -/
def State.nextCommand (s : State) : State :=
  let s := s.skipCommands s.hor.cmdQ.length
  match s.hor.cmdQ, s.hor.cplQ with
  | c :: _, [] =>
    if c.reads = 0 ∨ c.buffer ≠ [] ∨ s.hor.reads.any (fun q => q.tag = tagBuffer) then s
    else s.memRd c.haddr.toNat c.reads tagBuffer
  | _, _ => s

/-- The command at the head of the command engine's queue, when it holds the op, its arguments are in range, no completion
waits and its host buffer has been read. -/
def State.command (s : State) (op : Byte) : Option (Command × State) :=
  match s.hor.cmdQ, s.hor.cplQ with
  | c :: rest, [] =>
    if c.op = op ∧ c.malformed = none ∧ c.outOfRange = false ∧ c.buffer.length = c.reads ∧ s.commandsOn then
      some (c, s.takeCommand rest)
    else none
  | _, _ => none

/-- A command has run: it completes, and where it enabled the command ring anew its entry counts no more. -/
def State.finish (s : State) (c : Command) (onHorizon : Bool) (r : Answer × State) : State :=
  r.2.complete c onHorizon (decide (r.2.ring 0 = s.ring 0) && !c.old) r.1

/-- A command of the ring that runs on the field side: it waits while the field side does not answer. -/
def State.runField (s : State) (op : Byte) (f : Command → State → Answer × State) : State :=
  if ¬ s.fieldAnswers then s
  else match s.command op with
    | none => s
    | some (c, s) => s.finish c false (f c s)

end Sys2Proof.Machine
end

