-- ==== Sys2Proof/Machine/Modes.lean ====
section
/-! DEFINITION. Mode commands (R478, R484, R485, R490) and debug actions (R486 to R489). -/

namespace Sys2Proof.Machine

/-! ### Mode commands (R485) -/

/-- A LOAD is accepted by the mode: LOAD in WAIT, DONE or REFUSED, or a mode from which a warm start is made. -/
def State.loadAccepted (s : State) : Bool :=
  match s.mode.mode with
  | .load => match s.mode.lstate with
    | .wait | .done | .refused => true
    | .verify | .check | .write => false
  | .run | .degraded | .halt | .safe => true
  | .reset | .test | .link => false

/-- The slot that a LOAD names: A, B, the active one, or none. -/
def State.loadSlot (s : State) (slot : Nat) : Option Bool :=
  match slot with
  | 0 => some false
  | 1 => some true
  | 2 => some s.mode.activeB
  | _ => none

/-- What a warm start leaves (R478): every field output high-impedance, queued releases and transmissions
discarded, and cells, dispatcher and sequencer stopped; every partition is detached (R486). -/
def State.warmStart (s : State) : State :=
  let s := s.releaseOutputs
  let s := s.mapCells (fun _ c => { c with stopped := true })
  let s := { s with rep := { s.rep with refills := [] } }
  let s := s.abandonRoll
  let s := { s with fio := { s.fio with ready := false } }
  let s := { s with mode := { s.mode with start := 2, halted := 0, attached := 0, lstate := .wait } }
  (s.transit .load 7).bump (aModeCnt 0)

/-- LOAD (R478, R482, R485): its status and its effect. -/
def State.modeLoad (s : State) (slot : Nat) : Nat × State :=
  if ¬ s.loadAccepted then (1, s)
  else if s.mode.mode = .safe ∧ (s.fatal ∨ s.flt.safeLine) then (2, s)
  else if (s.loadSlot slot).any (fun b => !s.slotValid b) then (3, s)
  else
    let target := s.loadSlot slot
    let s := { s with mode := { s.mode with loaded := false } }
    let s := if s.mode.mode = .load then
        let s := s.releaseOutputs
        { s with fio := { s.fio with ready := false }, mode := { s.mode with lstate := .wait } }
      else s.warmStart
    match target with
    | some b => (0, s.startVerify b)
    | none => (0, s.dropTrial)

/-- RUN (R485). -/
def State.modeRun (s : State) : Nat × State :=
  if s.mode.mode = .load ∧ s.mode.lstate = .done then (0, s.enterRun 6) else (1, s)

/-- SAFE (R485, R528): FLT_STAT.fatal is not touched. -/
def State.modeSafe (s : State) : Nat × State :=
  match s.mode.mode with
  | .load | .run | .degraded | .halt =>
    (0, s.enterSafe 9 (infoWord 127 false masterNone accNone 4 3) 9 0)
  | .reset | .test | .link | .safe => (1, s)

/-- RETEST (R257, R359, R485): TEST with the transparent test. -/
def State.modeRetest (s : State) : Nat × State :=
  if s.mode.mode = .load ∧ s.loadAccepted then
    let s := s.releaseOutputs
    let s := { s with
      fio := { s.fio with ready := false }
      mode := { s.mode with start := 1, retest := true } }
    (0, ((s.transit .test 8).bump (aModeCnt 0)).beginTest)
  else (1, s)

/-- COMMIT (R485): the loaded trial slot becomes the active one. -/
def State.modeCommit (s : State) : Nat × State :=
  if ¬ s.running then (1, s)
  else if ¬ s.mode.trial then (4, s)
  else
    let s := s.writeBoot (fun m => { m with activeB := m.slotB, bootTrial := false })
    (0, { s with mode := { s.mode with trial := false } })

/-- A mode command by its op. -/
def State.modeOp (s : State) (op slot : Nat) : Nat × State :=
  match op with
  | 1 => s.modeLoad slot
  | 2 => s.modeRun
  | 3 => s.modeSafe
  | 4 => s.modeRetest
  | 5 => s.modeCommit
  | _ => (0, s)

/-- A refused command is reported as MODE_BAD and counted (R485, R497). -/
def State.modeBad (s : State) (addr syn : Nat) : State :=
  (s.raise srcModeBad masterHost accNone (w32 addr) (w32 syn)).bump (aModeCnt 6)

/-- A mode command, with its refusal. -/
def State.modeCommand (s : State) (op slot : Nat) : Nat × State :=
  match s.modeOp op slot with
  | (0, s) => (0, s)
  | (st, s) => (st, s.modeBad op st)

/-- A write of MODE_CMD; codes without a command have no effect. -/
def State.writeModeCmd (s : State) (op slot : Nat) : State :=
  if op = 0 ∨ 5 < op then s
  else
    let (st, s) := s.modeCommand op slot
    s.setRegF aModeCmd 14 12 st

/-- The command MODE of the ring, where it holds an op (R485). -/
def State.ringMode (s : State) (op : Nat) : State :=
  match s.hor.cmdQ with
  | c :: _ =>
    if c.a0.toNat ≠ op then s
    else s.runField 0x10 fun c s =>
      let (st, s) := s.modeCommand op (fld c.a1 1 0)
      ({ status := if st = 0 then stOk else stRefused, result := s.modeStat, data := [], buffer := [] }, s)
  | [] => s

/-- A mode command from one of its origins. -/
def State.fromOrigin (s : State) (o : CmdOrigin) (op : Nat) : State :=
  match o with
  | .register slot => if s.fieldOn then s.writeModeCmd op slot.toNat else s
  | .ring => s.ringMode op

/-- LOAD_COMMAND (R485). -/
def execLoadCommand (o : CmdOrigin) (s : State) : Out := .next (s.fromOrigin o 1)

/-- RUN_COMMAND (R485). -/
def execRunCommand (o : CmdOrigin) (s : State) : Out := .next (s.fromOrigin o 2)

/-- SAFE_COMMAND (R485). -/
def execSafeCommand (o : CmdOrigin) (s : State) : Out := .next (s.fromOrigin o 3)

/-- RETEST_COMMAND (R485). -/
def execRetestCommand (o : CmdOrigin) (s : State) : Out := .next (s.fromOrigin o 4)

/-- COMMIT (R485). -/
def execCommit (o : CmdOrigin) (s : State) : Out := .next (s.fromOrigin o 5)

/-! ### Debug actions (R486 to R488) -/

/-- The command DEBUG of the ring, where it holds an action; the action answers none where it is refused. -/
def State.debugAction (s : State) (action : Nat) (f : Command → State → Option State) : State :=
  match s.hor.cmdQ with
  | c :: _ =>
    if c.a0.toNat ≠ action then s
    else s.runField 0x18 fun c s =>
      match f c s with
      | some t => (Answer.of stOk, t)
      | none => (Answer.of stRefused, s.modeBad (action * 256) stRefused)
  | [] => s

/-- A partition is attached. -/
def State.attachedPart (s : State) (p : Nat) : Bool := s.mode.attached.getLsbD p

/-- ATTACH (R486). -/
def State.attachPart (s : State) (p : Nat) : Option State :=
  if (s.partition p).used ∧ (s.partition p).dbg ∧ s.running then
    some { s with mode := { s.mode with attached := s.mode.attached ||| (1 : BitVec 8) <<< p } }
  else none

/-- Every debug-stopped strand of a partition goes on; a checker's goes on with its main's record (R331,
R488). -/
def State.releaseStrands (s : State) (p : Nat) : State :=
  (s.cellsOf p).foldl (fun s pc =>
    if s.checks pc then s
    else (s.cell pc).debugList.foldl (fun s t => s.debugGo pc t.rb false) s) s

/-- A halt ends (R219, R488); the cells of the partition take starts again, so that what waits for a place is tried (R172). -/
def State.resumePart (s : State) (p : Nat) : State :=
  let s := s.releaseStrands p
  let s := s.modPart p (fun q => { q with
    haltAsk := false
    state := if q.state = .halted then .wait else q.state
    resumeAt := if q.state = .halted then s.zen.count + 50000 else q.resumeAt })
  ({ s with mode := { s.mode with halted := s.mode.halted &&& ~~~((1 : BitVec 8) <<< p) } }).settle.tryAll

/-- ATTACH (R486). -/
def execAttach (s : State) : Out :=
  .next (s.debugAction 1 fun c s => s.attachPart (fld c.a1 2 0))

/-- DETACH (R486). -/
def execDetach (s : State) : Out :=
  .next <| s.debugAction 2 fun c s =>
    let p := fld c.a1 2 0
    if s.attachedPart p then
      let s := s.resumePart p
      some { s with mode := { s.mode with attached := s.mode.attached &&& ~~~((1 : BitVec 8) <<< p) } }
    else none

/-- HALT_ACTION (R487). -/
def execHaltAction (s : State) : Out :=
  .next <| s.debugAction 3 fun c s =>
    let p := fld c.a1 2 0
    if s.attachedPart p then some (s.haltPartition p) else none

/-- RESUME (R488). -/
def execResume (s : State) : Out :=
  .next <| s.debugAction 4 fun c s =>
    let p := fld c.a1 2 0
    if s.attachedPart p then some (s.resumePart p) else none

/-- STEP (R488): one debug-stopped strand of a cell that is not a checker. -/
def execStep (s : State) : Out :=
  .next <| s.debugAction 5 fun c s =>
    let pc := fld c.a1 8 0
    let rb := BitVec.ofNat 14 (fld c.a2 13 0)
    if pc < s.variant.pcells ∧ ¬ s.checks pc ∧ ((s.cell pc).stopped? rb).isSome then
      some (s.debugGo pc rb true)
    else none

end Sys2Proof.Machine
end

