-- ==== Sys2Proof/Machine/Rings.lean ====
section
/-! DEFINITION. The ring engine (R444 to R452): page reads, fetches, the entries of the module-produced rings, the
log ring (R462), NOTIFY, and the completions of host memory. -/

namespace Sys2Proof.Machine

/-! ### Entries that the module writes (R448, R451) -/

/-- A module-produced ring takes an entry: it is on, the upstream port is up, and the consumer index gives room. -/
def State.ringRoom (s : State) (r : Nat) : Bool :=
  s.mode.hostRst && s.upstreamUp && s.ringOn r
    && decide ((s.reg (aRingIdx r) - (s.ring r).host).toNat < s.ringLen r)

/-- A NOTIFY is due for a ring. -/
def State.dueNotify (s : State) (r : Nat) : State :=
  { s with hor := { s.hor with notifyDue := s.hor.notifyDue.filter (· ≠ r) ++ [r] } }

/-- Entry k of a ring is written: bytes 0 to 59, then bytes 60 to 63 with the phase, then the producer index. -/
def State.writeEntry (s : State) (r : Nat) (bs : List Byte) (force : Bool) : State :=
  let k := (s.reg (aRingIdx r)).toNat
  let bs := (bs ++ List.replicate 63 0).take 63 ++ [BitVec.ofNat 8 (if k / s.ringLen r % 2 = 0 then 0x80 else 0)]
  let a := s.slotAddr r k
  let s := (s.hostWrite a (bs.take 60)).hostWrite (a + 60) (bs.drop 60)
  let s := { s with hor := { s.hor with written := s.hor.written ++ [(r, k, bs)] } }
  let s := s.nextIndex r
  if force ∨ (s.reg aRingIrq).getLsbD (16 + r) then s.dueNotify r else s

/-- NOTIFY (R451): the NOTIFY that is due for a ring is sent. -/
def execNotify (ring : Nat) (s : State) : Out :=
  unitOk s (ring < 5) <|
    if ring ∈ s.hor.notifyDue ∧ s.mode.hostRst ∧ s.upstreamUp then
      let s := { s with hor := { s.hor with notifyDue := s.hor.notifyDue.filter (· ≠ ring) } }
      s.toAdapter 0x08 [BitVec.ofNat 8 (2 ^ ring)]
    else s

/-- A completion's entry (R456). -/
def Completion.entry (c : Completion) : List Byte :=
  leBytes 2 c.id.toNat ++ [c.op, c.status] ++ leBytes 4 c.result.toNat ++ leBytes 8 (timeWord c.time c.local_)
    ++ (c.data ++ List.replicate 44 0).take 44

/-- COMPLETION_WRITE (R454): the held completion is written once its ring has room, after its result data; the
command engine goes on. -/
def execCompletionWrite (s : State) : Out :=
  .next <|
    match s.hor.cplQ with
    | [] => s
    | c :: rest =>
      if ¬ s.ringRoom 3 then s
      else
        let s := { s with hor := { s.hor with cplQ := rest } }
        let s := if c.buffer = [] then s else s.hostWrite c.haddr.toNat c.buffer
        let s := s.writeEntry 3 c.entry c.notify
        (if c.counts then s.nextIndex 0 else s).nextCommand

/-- The log ring (R439, R462): held records are written while it has room. With the upstream port up and the ring
enabled, records that find it full are dropped and counted. -/
def State.flushLog : Nat → State → State
  | 0, s => s
  | n + 1, s =>
    match s.hor.logQ with
    | [] => s
    | (kind, body) :: rest =>
      let t := { s with hor := { s.hor with logQ := rest } }
      if s.ringRoom 4 then (t.writeEntry 4 ([kind, 0, 0, 0] ++ body) false).flushLog n
      else if s.upstreamUp ∧ s.ringOn 4 then (t.addRegF (aRingStat 4) 31 16 1).flushLog n
      else s

/-- The extract ring (R461): held entries are written, in the order in which they were taken, while it has room. -/
def State.flushExtract : Nat → State → State
  | 0, s => s
  | n + 1, s =>
    match s.bar.extractQ with
    | [] => s
    | e :: rest =>
      if s.ringRoom 2 then
        (({ s with bar := { s.bar with extractQ := rest } }).writeEntry 2 e false).flushExtract n
      else s

/-- What the ring engine holds for the host goes out where it can. -/
def State.flushRings (s : State) : State := (s.flushExtract s.bar.extractQ.length).flushLog s.hor.logQ.length

/-! ### The status word (R445) -/

/-- The status word. -/
def State.statusWord (s : State) : Word := w32 (s.mode.mode.code + s.zen.state.code * 16)

/-- The status word is written where it is due: it waits while the upstream port is down. -/
def State.writeStatus (s : State) : State :=
  if s.hor.statusDue ∧ s.mode.hostRst ∧ s.upstreamUp then
    let w := s.statusWord
    ({ s with hor := { s.hor with status := some w, statusDue := false } }).writePage 0x814 w
  else s

/-! ### Page reads and fetches (R446, R452) -/

/-- A read of the page's six words is asked for; while one is outstanding, one more follows it. -/
def State.readPage (s : State) : State :=
  if ¬ s.mode.hostRst ∨ ¬ s.upstreamUp then s
  else if s.hor.reading then { s with hor := { s.hor with again := true } }
  else ({ s with hor := { s.hor with reading := true } }).memRd s.pageAddr 24 tagPage

/-- DOORBELL (R446). -/
def execDoorbell (_bitmap : Byte) (s : State) : Out := .next s.readPage

/-- POLL_TIMER (R446): RING_POLL.us µs have passed since the end of the last read. -/
def execPollTimer (s : State) : Out := .next (if s.hor.reading then s else s.readPage)

/-- Up to 16 new entries of a host-produced ring are asked for in one MEM_RD, which does not pass the ring's end. -/
def State.fetch (s : State) (r : Nat) : State :=
  let q := s.ring r
  let held := if r = 0 then s.heldCommands else q.fetched.length
  if ¬ s.ringOn r ∨ ¬ s.upstreamUp ∨ q.asked ≠ s.reg (aRingIdx r) + w32 held then s
  else
    let n := min (min 16 (q.host - q.asked).toNat) (s.ringLen r - q.asked.toNat % s.ringLen r)
    if n = 0 then s
    else (s.modRing r (fun q => { q with asked := q.asked + w32 n })).memRd
      (s.slotAddr r q.asked.toNat) (n * 64) r

/-- The heartbeat word at a page read (R452): unchanged for wdog ms, it is reported once. -/
def State.heartbeat (s : State) (v : Word) : State :=
  let wdog := s.regF aRingPoll 31 16
  if wdog = 0 ∨ s.hor.page.getD 5 0 ≠ v ∨ s.hor.page = [] then
    { s with hor := { s.hor with beatAt := s.hor.hcount, wdogBad := false } }
  else if ¬ s.hor.wdogBad ∧ wdog * 1000000 ≤ s.hor.hcount - s.hor.beatAt then
    ({ s with hor := { s.hor with wdogBad := true } }).relayFree srcHostWdog
  else s

/-- A page index of a ring breaks R447. -/
def State.indexBad (s : State) (r : Nat) (v : Word) : Bool :=
  let d := if r < 2 then v - s.reg (aRingIdx r) else s.reg (aRingIdx r) - v
  decide (s.ringLen r < d.toNat)

/-- The words of a page read are taken (R445 to R449, R452). -/
def State.takePage (s : State) (words : List Word) : State :=
  let s := { s with hor := { s.hor with reading := false } }
  let s := s.heartbeat (words.getD 5 0)
  let old := s.hor.page
  let s := (upTo 5).foldl (fun s r =>
    let v := words.getD r 0
    if ¬ s.ringOn r then s
    else if s.indexBad r v then s.stopRing r 1
    else s.modRing r (fun q => { q with host := v })) s
  let s := { s with hor := { s.hor with page := (words ++ List.replicate 6 0).take 6 } }
  let cmd : Word := words.getD 0 0
  let inj : Word := words.getD 1 0
  let changed := decide (cmd ≠ old.getD 0 0) || decide (inj ≠ old.getD 1 0)
  let s := if changed && s.bar.up then s.toField (.doorbell cmd inj) else s
  let s := ((s.fetch 0).fetch 1).flushRings
  if s.hor.again then ({ s with hor := { s.hor with again := false } }).readPage else s

/-- The 64 bytes of a command entry (R453). -/
def Command.ofBytes (bs : List Byte) : Command :=
  let at_ (o n : Nat) : Nat := leNat ((bs.drop o).take n)
  { id := BitVec.ofNat 16 (at_ 0 2), op := BitVec.ofNat 8 (at_ 2 1), flags := BitVec.ofNat 8 (at_ 3 1)
    a0 := w32 (at_ 4 4), a1 := w32 (at_ 8 4), a2 := w32 (at_ 12 4), haddr := BitVec.ofNat 64 (at_ 16 8)
    data := ((bs.drop 24) ++ List.replicate 40 0).take 40 }

/-- Fetched entries of ring 0 or 1 arrive: commands join the command engine's queue. -/
def State.takeEntries (s : State) (r : Nat) (es : List (List Byte)) : State :=
  let q := s.ring r
  let held := if r = 0 then s.heldCommands else q.fetched.length
  if ¬ s.ringOn r ∨ es.length ≠ (q.asked - (s.reg (aRingIdx r) + w32 held)).toNat then s
  else if r = 0 then
    let idle := s.hor.cmdQ.isEmpty
    let s := { s with hor := { s.hor with cmdQ := s.hor.cmdQ ++ es.map Command.ofBytes } }
    (if idle then s.nextCommand else s).fetch 0
  else (s.modRing r (fun q => { q with fetched := q.fetched ++ es })).fetch r

/-- The host buffer of the command at the head arrives. -/
def State.takeBuffer (s : State) (bs : List Byte) : State :=
  match s.hor.cmdQ with
  | c :: rest =>
    if c.buffer = [] ∧ bs.length = c.reads then
      { s with hor := { s.hor with cmdQ := { c with data := c.data ++ bs } :: rest } }
    else s
  | [] => s

/-- The words that bytes hold. -/
def wordsOf : Nat → List Byte → List Word
  | 0, _ => []
  | n + 1, bs => w32 (leNat (bs.take 4)) :: wordsOf n (bs.drop 4)

/-- The ring entries that bytes hold. -/
def entriesOf : Nat → List Byte → List (List Byte)
  | 0, _ => []
  | n + 1, bs => bs.take 64 :: entriesOf n (bs.drop 64)

/-- A MEM_RD has been answered whole: page words, entries of ring 0 or 1, or a host buffer have arrived. -/
def State.takeRead (s : State) (tag : Nat) (bs : List Byte) : State :=
  if tag = tagPage then s.takePage (wordsOf (bs.length / 4) bs)
  else if tag = tagBuffer then s.takeBuffer bs
  else if tag < 2 then s.takeEntries tag (entriesOf (bs.length / 64) bs)
  else s

/-- A MEM_RD or MEM_WR is answered with an error: it stops its ring (R449), for a host buffer the command ring. A page
read belongs to no ring: it is over, with nothing taken. -/
def State.readFailed (s : State) (tag : Nat) : State :=
  let s := s.dropReads tag
  if tag = tagPage then
    let s := { s with hor := { s.hor with reading := false } }
    if s.hor.again then ({ s with hor := { s.hor with again := false } }).readPage else s
  else if tag = tagBuffer then s.stopRing 0 3
  else if tag < 5 then s.stopRing tag 3
  else s

/-- Bytes at an offset of a read. -/
def putBytes (got : List (Option Byte)) (offset : Nat) (bs : List Byte) : List (Option Byte) :=
  got.take offset ++ bs.map some ++ got.drop (offset + bs.length)

/-- MEM_CPL (R430): up to 480 bytes of a MEM_RD at their offset, or an error. A read whose bytes have all come is
taken; one that no MEM_RD asked for, or that lies outside it, is not. -/
def execMemCpl (part : ReadPart) (s : State) : Out :=
  let tag := part.tag
  .next <|
    if ¬ s.mode.hostRst ∨ ¬ s.upstreamUp then s
    else if part.status ≠ 0 then s.readFailed tag
    else match s.hor.reads.find? (fun q => q.tag = tag) with
      | none => s
      | some q =>
        if q.got.length < part.offset + part.bytes.length then s
        else
          let got := putBytes q.got part.offset part.bytes
          if got.all (·.isSome) then (s.dropReads tag).takeRead tag (got.filterMap id)
          else { s with hor := { s.hor with
            reads := s.hor.reads.map (fun x => if x.tag = tag then { x with got } else x) } }

/-! ### Enabling a ring (R450) -/

/-- The command in progress, which finishes when its ring is disabled (R450): the one at the head, unless a completion
is held. -/
def State.inProgress (s : State) : List Command := if s.hor.cplQ = [] then s.hor.cmdQ.take 1 else []

/-- The command ring is disabled: entries behind the one in progress are dropped. -/
def State.disableCommands (s : State) : State :=
  { s with hor := { s.hor with cmdQ := s.inProgress } }

/-- The command ring starts anew: entries are dropped, and neither the one in progress nor held completions count for its
index any more. -/
def State.dropCommands (s : State) : State :=
  { s with hor := { s.hor with
    cmdQ := s.inProgress.map (fun c => { c with old := true })
    cplQ := s.hor.cplQ.map (fun c => { c with counts := false }) } }

/-- A write of RING_CFG: a ring that is enabled starts at index 0 and loses its stop; one that is disabled stops after
the entry in progress. A write of 1 to en with an lsize outside 4 to 16 is ignored; lsize stays while en is 1. -/
def State.writeRingCfg (s : State) (r : Nat) (v : Word) : State :=
  let on := decide (fld v 8 8 = 1)
  let was := decide (s.regF (aRingCfg r) 8 8 = 1)
  let lsize := if was then s.regF (aRingCfg r) 4 0 else fld v 4 0
  if on ∧ ¬ (4 ≤ fld v 4 0 ∧ fld v 4 0 ≤ 16) then s
  else
    let xdrop := if r = 2 then fld v 9 9 * 512 else 0
    let s := s.setReg (aRingCfg r) (w32 (lsize + b2n on * 256 + xdrop))
    if on then
      let s := (s.setReg (aRingIdx r) 0).setRegF (aRingStat r) 0 0 0
      let s := (s.modRing r (fun _ => Ring.idle)).dropReads r
      let s := if r = 0 then s.dropCommands else s
      let s := if s.hor.status.isNone then s.statusChanged.writeStatus else s
      (s.readPage).flushRings
    else
      let s := (s.modRing r (fun q => { q with fetched := [] })).dropReads r
      if r = 0 then s.disableCommands else s

/-- RING_CFG_EN_WRITE (R450). -/
def execRingCfgEnWrite (ring : Nat) (v : Word) (s : State) : Out :=
  unitOk s (ring < 5) (if s.mode.hostRst then (s.writeRingCfg ring v).countRsv false (aRingCfg ring) v else s)

end Sys2Proof.Machine
end

