-- ==== Sys2Proof/Machine/Link.lean ====
section
/-! DEFINITION. The Powyn ports (R427 to R441): frames and their forwarding, replay, training, enumeration, and the
loss of a port. -/

namespace Sys2Proof.Machine

/-! ### Ports -/

/-- A port that the variant has (R427). -/
def State.hasPort (s : State) (k : Nat) : Bool := decide (k ≤ s.variant.dsports)

/-- The training step of a port (LNK_STAT.step). -/
def State.portStep (s : State) (k : Nat) : Nat := s.regF (aLnkStat k) 3 0

/-- A port enters a training step. -/
def State.toStep (s : State) (k n : Nat) : State := s.setRegF (aLnkStat k) 3 0 n

/-- A command of a port of the horizon die: nothing happens while that die is in reset. -/
def State.onPort (s : State) (k : Nat) (t : State) : Out :=
  unitOk s (s.hasPort k) (if s.mode.hostRst then t else s)

/-- A downstream port is enabled (LNK_CTRL.ds_en); port 0 always is. -/
def State.portEnabled (s : State) (k : Nat) : Bool := k = 0 || (s.reg aLnkCtrl).getLsbD (k + 1)

/-- A link event (R462): it goes to the log ring, and to the adapter where the upstream port is up. -/
def State.linkEvent (s : State) (kind port : Nat) : State :=
  let (time, s) := s.cplTime true
  let (first, count) := if port = 0 then (0, 0)
    else (s.regF (aLnkRange (port - 1)) 5 0, s.regF (aLnkRange (port - 1)) 14 8)
  let body := [BitVec.ofNat 8 kind, BitVec.ofNat 8 port, BitVec.ofNat 8 first, BitVec.ofNat 8 count]
    ++ leBytes 8 time
  (s.logRing 4 body).toAdapter 0x23 body

/-- A frame that fails its check, or is discarded, is counted (LNK_ERR.crc). -/
def State.countFrame (s : State) (k : Nat) : State := s.addRegF (aLnkErr k) 15 0 1

/-! ### Enumeration (R436, R440, R441) -/

/-- A port sends ENUM: the first number offered, the sender's depth, and how many numbers may be used. -/
def State.sendEnum (s : State) (k first count : Nat) : State :=
  s.sendPort k (s.frame 0x20 true false
    (padded [BitVec.ofNat 8 first, BitVec.ofNat 8 (s.regF aLnkDev 10 8), BitVec.ofNat 8 count]))

/-- A downstream port takes part in an enumeration: it has reached step 7, and it is not refused by its version. -/
def State.enumReady (s : State) (k : Nat) : Bool :=
  decide (s.portStep k = 7 ∨ s.portStep k = 9 ∨ (s.portStep k = 10 ∧ s.regF (aLnkStat k) 19 16 ≠ 0))

/-- A port whose range is known offers it again once it has trained (R440). -/
def State.offerRange (s : State) (k : Nat) : State :=
  let first := s.regF (aLnkRange (k - 1)) 5 0
  let count := s.regF (aLnkRange (k - 1)) 14 8
  if s.regF aLnkDev 6 6 = 0 ∨ count = 0 ∨ s.hor.enumAt.isSome then s
  else
    let e : EnumRun := { port := k, next := first, fin := first + count, used := 0, rejoin := true }
    ({ s with hor := { s.hor with enumAt := some e } }).sendEnum k first count

/-- The downstream ports from k on. -/
def State.portsFrom (s : State) (k : Nat) : List Nat := ((upTo 4).filter (fun j => decide (k ≤ j ∧ 1 ≤ j))).filter s.hasPort

/-- The lowest port that waits at step 7 and has a range is offered it (R440). -/
def State.offerNext (s : State) : State :=
  match (s.portsFrom 1).find? (fun k => decide (s.portStep k = 7 ∧ s.regF (aLnkRange (k - 1)) 14 8 ≠ 0)) with
  | some k => s.offerRange k
  | none => s

/-- An offer is over, and the next port's turn comes. -/
def State.offerWaiting (s : State) : State := ({ s with hor := { s.hor with enumAt := none } }).offerNext

/-- The enumeration is complete (R436 step 4): the parent is answered, and the upstream port calibrates. A port that has
reached step 7 meanwhile, and whose range is known, is offered it. -/
def State.endEnum (s : State) (used : Nat) : State :=
  let s := { s with hor := { s.hor with enumAt := none } }
  let s := s.sendPort 0 (s.frame 0x21 true true (padded [BitVec.ofNat 8 used]))
  (if s.portStep 0 = 7 then s.toStep 0 8 else s).offerNext

/-- The next downstream ports from k on are enumerated in order (R436 step 3). A port for which no number is left, or
below depth 5, stands at step 10 with a link event of kind 7. The range of a port that does not take part has
count 0 (R440). -/
def State.enumFrom (s : State) (next fin used : Nat) : List Nat → State
  | [] => s.endEnum used
  | k :: ks =>
    if ¬ s.enumReady k then (s.setReg (aLnkRange (k - 1)) 0).enumFrom next fin used ks
    else if s.regF aLnkDev 10 8 = 5 ∨ fin ≤ next then
      let s := (s.toStep k 10).setReg (aLnkRange (k - 1)) 0
      (s.linkEvent 7 k).enumFrom next fin used ks
    else
      let e : EnumRun := { port := k, next, fin, used, rejoin := false }
      ({ s with hor := { s.hor with enumAt := some e } }).sendEnum k next (fin - next)

/-- The module joins again with the number that it had (R440): each downstream port from k on that is there is offered
the range that it has, and one that is not keeps it. -/
def State.enumKeep (s : State) (used : Nat) : List Nat → State
  | [] => s.endEnum used
  | k :: ks =>
    let first := s.regF (aLnkRange (k - 1)) 5 0
    let count := s.regF (aLnkRange (k - 1)) 14 8
    if count = 0 ∨ ¬ s.enumReady k then s.enumKeep (used + count) ks
    else
      let e : EnumRun := { port := k, next := first, fin := first + count, used, rejoin := false, keep := true }
      ({ s with hor := { s.hor with enumAt := some e } }).sendEnum k first count

/-- The numbers that the module's subtree had at the last enumeration, its own with them. -/
def State.formerUsed (s : State) : Nat :=
  1 + ((s.portsFrom 1).map (fun k => s.regF (aLnkRange (k - 1)) 14 8)).sum

/-- A port that is being enumerated goes down (log entry 140): its offer is withdrawn, and the enumeration goes on with
the next port. One that loses its parent ends; an offer to a port that alone joins again goes on without the parent. -/
def State.enumLost (s : State) (k : Nat) : State :=
  match s.hor.enumAt with
  | none => s
  | some e =>
    if k = 0 then (if e.rejoin then s else s.offerWaiting)
    else if e.port ≠ k then s
    else if e.rejoin then s.offerWaiting
    else if e.keep then s.enumKeep (e.used + s.regF (aLnkRange (k - 1)) 14 8) (s.portsFrom (k + 1))
    else (s.setReg (aLnkRange (k - 1)) 0).enumFrom e.next e.fin e.used (s.portsFrom (k + 1))

/-! ### Loss of a port (R429, R432, R438 to R440) -/

/-- The upstream port is lost (R439): LNK_DOWN asserts, and what the ring engine had asked for is lost. -/
def State.loseUpstream (s : State) : State :=
  let s := { s with hor := { s.hor with
    reading := false, again := false, reads := [], syncs := [] } }
  let s := s.modRing 0 (fun q => { q with asked := s.reg (aRingIdx 0) + w32 s.heldCommands })
  let s := s.modRing 1 (fun q => { q with asked := s.reg (aRingIdx 1) + w32 q.fetched.length })
  s.relay srcLnkDown true 0 0

/-- A port starts to retrain from step 1: a retrain is counted, and what was up is lost. Port 0 starts its delay
exchanges again at the next calibration (R437). -/
def State.retrain (s : State) (k : Nat) : State :=
  let up := decide (s.portStep k = 9)
  let s := s.setReg (aLnkStat k) 1
  let s := s.addRegF (aLnkErr k) 23 16 1
  let s := (s.modLink k (fun l => { l with txSeq := 0, rxSeq := 0, sent := [], early := [], replays := 0 })).enumLost k
  let s := if k = 0 then { s with hor := { s.hor with delays := [], dlinks := [] } } else s
  if ¬ up then s
  else
    let s := if k = 0 then s.loseUpstream else s
    let s := s.linkEvent 1 k
    if k = 0 then s else s.linkEvent 3 k

/-- PORT_DOWN (R438): a port loses lock. -/
def execPortDown (port : Nat) (s : State) : Out :=
  s.onPort port (if 2 ≤ s.portStep port then s.retrain port else s)

/-- TRAINING_TIMEOUT (R432, R433): a step fails or exceeds its bound. Where lock fails at a rate above the lowest,
the next lower rate is tried. -/
def execTrainingTimeout (port : Nat) (s : State) : Out :=
  s.onPort port <|
    let n := s.portStep port
    let rate := s.regF (aLnkStat port) 13 12
    if (n = 2 ∨ n = 3) ∧ 0 < rate then
      (s.setRegF (aLnkStat port) 13 12 (rate - 1)).toStep port (if rate = 1 then 5 else 2)
    else if 2 ≤ n ∧ n ≤ 8 ∧ n ≠ 7 then (s.retrain port).linkEvent 5 port
    else s

/-! ### Training (R432 to R435) -/

/-- ELECTRICAL_DETECT (R432 step 1). -/
def execElectricalDetect (port : Nat) (s : State) : Out :=
  s.onPort port <|
    if s.portStep port ≤ 1 ∧ s.portEnabled port then
      (s.modLink port (fun l => { l with partner := true })).toStep port 2
    else s

/-- LANE_LOCK (R432 step 2): block lock on both lanes; inverted lanes show in LNK_STAT.pol. -/
def execLaneLock (port : Nat) (inverted : BitVec 2) (s : State) : Out :=
  s.onPort port <|
    if s.portStep port = 2 then (s.setRegF (aLnkStat port) 9 8 inverted.toNat).toStep port 3 else s

/-- LANE_DESKEW (R432 step 3, R433): at a rate above the lowest, the rate has been negotiated already. -/
def execLaneDeskew (port : Nat) (s : State) : Out :=
  s.onPort port <|
    if s.portStep port = 3 then s.toStep port (if s.regF (aLnkStat port) 13 12 = 0 then 4 else 5) else s

/-- RATE_NEGOTIATION (R433): the highest rate of both sides; a rate above the lowest repeats steps 2 and 3. -/
def execRateNegotiation (port : Nat) (partner : BitVec 2) (s : State) : Out :=
  s.onPort port <|
    if s.portStep port = 4 then
      let rate := min (min 2 (s.regF aLnkCtrl 1 0)) (min 2 partner.toNat)
      (s.setRegF (aLnkStat port) 13 12 rate).toStep port (if rate = 0 then 5 else 2)
    else s

/-- The place of the largest of a list, the lowest on a tie. -/
def bestPreset : List Nat → Nat → Nat → Nat → Nat
  | [], _, best, _ => best
  | m :: ms, i, best, top => if top < m then bestPreset ms (i + 1) i m else bestPreset ms (i + 1) best top

/-- TRANSMIT_EQUALISATION (R434): the preset of 0 to 7 with the widest eye margin, the lowest on a tie; VERSION is
sent (R430). -/
def execTransmitEqualisation (port : Nat) (margins : List Nat) (s : State) : Out :=
  s.onPort port <|
    if s.portStep port = 5 then
      let s := s.setRegF (aLnkStat port) 23 20 (bestPreset (margins.take 8) 0 0 0)
      (s.toStep port 6).sendPort port (s.frame 0x22 true (port = 0) (padded [5, 4]))
    else s

/-! ### Version and enumeration (R435, R436, R440, R441) -/

/-- VERSION (R435): the highest version of 5 and 4 that both sides speak; without one the port is refused. -/
def execVersion (port : Nat) (hi lo : BitVec 4) (s : State) : Out :=
  s.onPort port <|
    if s.portStep port ≠ 6 then s
    else
      let speaks (v : Nat) : Bool := decide (lo.toNat ≤ v ∧ v ≤ hi.toNat)
      if speaks 5 ∨ speaks 4 then
        let v := if speaks 5 then 5 else 4
        let s := (s.setRegF (aLnkStat port) 19 16 v).toStep port 7
        let s := if v = 4 then s.linkEvent 6 port else s
        if port = 0 then s else s.offerRange port
      else s.toStep port 10

/-- ENUM (R436, R441): the parent offers a first number, its own depth and a count of numbers. A port 0 that has trained
again, and is offered the number that the module had with numbers enough for its subtree, joins again, and the subtree
keeps its numbers (R440; DESIGN CHOICE: log entry 140). -/
def execEnum (n : BitVec 7) (depth : BitVec 4) (count : BitVec 7) (s : State) : Out :=
  .next <|
    if ¬ s.mode.hostRst ∨ (s.portStep 0 ≠ 7 ∧ s.portStep 0 ≠ 9) ∨ 63 < n.toNat then s
    else
      let old := s.reg aLnkDev
      let same := decide (s.portStep 0 = 7 ∧ fld old 6 6 = 1 ∧ fld old 5 0 = n.toNat ∧ s.formerUsed ≤ count.toNat)
      let s := s.setReg aLnkDev (w32 ((depth.toNat + 1) % 8 * 256 + 64 + n.toNat))
      let s := if fld old 6 6 = 1 ∧ fld old 5 0 ≠ n.toNat then s.linkEvent 8 0 else s
      if same then s.enumKeep 1 (s.portsFrom 1)
      else s.enumFrom (n.toNat + 1) (min 64 (n.toNat + count.toNat)) 1 (s.portsFrom 1)

/-- A downstream port is up: a subtree that was known before has joined again (R440). -/
def State.portUp (s : State) (k : Nat) (rejoin : Bool) : State :=
  if s.portStep k = 9 then s
  else
    let s := (s.toStep k 9).linkEvent 2 k
    if rejoin then s.linkEvent 4 k else s

/-- ENUM_RSP (R436, R440): a subtree answers with the numbers it used. -/
def execEnumRsp (port : Nat) (used : BitVec 7) (s : State) : Out :=
  s.onPort port <|
    match s.hor.enumAt with
    | none => s
    | some e =>
      if e.port ≠ port then s
      else if e.rejoin then
        (s.portUp port true).offerWaiting
      else if e.keep then
        (s.portUp port true).enumKeep (e.used + s.regF (aLnkRange (port - 1)) 14 8) (s.portsFrom (port + 1))
      else
        let s := s.setReg (aLnkRange (port - 1)) (w32 (used.toNat % 128 * 256 + e.next))
        let s := s.portUp port false
        s.enumFrom (e.next + used.toNat) e.fin (e.used + used.toNat) (s.portsFrom (port + 1))

/-- DELAY_CALIBRATION (R437): 16 exchanges are complete, and the upstream port is up. What the module held for the
host goes out, and LNK_DOWN ends. -/
def execDelayCalibration (s : State) : Out :=
  .next <|
    if ¬ s.mode.hostRst ∨ s.portStep 0 ≠ 8 ∨ s.hor.dlinks.length < 16 then s
    else
      let s := ((s.toStep 0 9).linkEvent 2 0).relay srcLnkDown false 0 0
      let s := (upTo 5).foldl (fun s r =>
        if s.ringOn r then s.writePage (0x800 + 4 * r) (s.reg (aRingIdx r)) else s) s
      ((s.writeStatus.flushRings).nextCommand).linkDone

/-! ### Frames (R428 to R431) -/

/-- A message type of R430. -/
def knownType (t : Byte) : Bool :=
  decide ((1 ≤ t.toNat ∧ t.toNat ≤ 8) ∨ t = 0x10#8 ∨ (0x20 ≤ t.toNat ∧ t.toNat ≤ 0x23))

/-- The downstream port whose range holds a device number (R431). -/
def State.rangePort (s : State) (dst : Nat) : Option Nat :=
  (s.portsFrom 1).find? fun k =>
    let first := s.regF (aLnkRange (k - 1)) 5 0
    decide (first ≤ dst ∧ dst < first + s.regF (aLnkRange (k - 1)) 14 8)

/-- A frame is forwarded by a port; one that leaves by port 0 reaches the adapter's side. -/
def State.forward (s : State) (k : Nat) (f : Frame) : State :=
  let s := s.sendPort k f
  if k = 0 then { s with hor := { s.hor with outbox := s.hor.outbox ++ [f] } } else s

/-- What becomes of a frame with a good crc (R430, R431, R439): it is forwarded, discarded, or taken, and what a
taken frame asks for is a command of its own. -/
def State.routeFrame (s : State) (k : Nat) (f : Frame) : State :=
  if ¬ knownType f.type then s.countFrame k
  else if f.isLocal then s
  else if f.up then
    if s.upstreamUp then s.forward 0 f else s.countFrame k
  else if s.regF aLnkDev 6 6 = 1 ∧ f.dst.toNat = s.device then s
  else match s.rangePort f.dst.toNat with
    | some j => if s.portStep j = 9 then s.forward j f else s.countFrame k
    | none => s.countFrame k

/-- The frame that is expected next is delivered. -/
def State.deliverFrame (s : State) (k : Nat) (f : Frame) : State :=
  (s.modLink k (fun l => { l with rxSeq := l.rxSeq + 1 })).routeFrame k f

/-- Frames that came early are delivered while they follow in seq order. -/
def State.deliverEarly (k : Nat) : Nat → State → State
  | 0, s => s
  | n + 1, s =>
    let l := s.link k
    match l.early.find? (fun f => f.seq = l.rxSeq) with
    | none => s
    | some f =>
      ((s.modLink k (fun l => { l with early := l.early.filter (fun g => g.seq ≠ f.seq) })).deliverFrame k f).deliverEarly k n

/-- The seq lies among the 64 frames that the partner may still send again (R429). -/
def ahead (seq rx : BitVec 16) : Bool := decide ((seq - rx).toNat < 64)

/-- A frame with a good crc is delivered in seq order: one that is ahead waits for those before it, and one that has been
delivered is dropped. -/
def State.acceptFrame (s : State) (k : Nat) (f : Frame) : State :=
  let l := s.link k
  if f.seq = l.rxSeq then (s.deliverFrame k f).deliverEarly k l.early.length
  else if ahead f.seq l.rxSeq ∧ ¬ l.early.any (fun g => g.seq = f.seq) then
    s.modLink k (fun l => { l with early := l.early ++ [f] })
  else s

/-- The seq that a replay is asked for after a frame whose crc fails: the one in its header, where that frame may be
missing, and else the next expected (DESIGN CHOICE: log entry 100). -/
def LinkPort.missing (l : LinkPort) (seq : BitVec 16) : BitVec 16 :=
  if ahead seq l.rxSeq ∧ ¬ l.early.any (fun g => g.seq = seq) then seq else l.rxSeq

/-- FRAME_RECEIVE (R429): a frame whose crc fails is counted and asked for again; a good one is acknowledged and
delivered in seq order. -/
def execFrameReceive (port : Nat) (body : List Byte) (crc : Word) (s : State) : Out :=
  s.onPort port <|
    if s.portStep port < 6 then s
    else match frameOf body crc with
      | none => (s.countFrame port).modLink port (fun l => { l with
          fails := l.fails + 1, line := l.line ++ [.askReplay (l.missing (frameSeq body))] })
      | some f => (s.modLink port (fun l => { l with line := l.line ++ [.ack f.seq] })).acceptFrame port f

/-- REPLAY_REQUEST (R429): the partner asks for a frame again, and it is sent. After 8 replays of a frame without success,
or where the frame is no longer kept, the port retrains. -/
def execReplayRequest (port : Nat) (seq : BitVec 16) (s : State) : Out :=
  s.onPort port <|
    if s.portStep port < 6 then s
    else
      let l := s.link port
      let n := if l.replaySeq = seq then l.replays else 0
      match l.sent.find? (fun f => f.seq = seq), decide (n < 8) with
      | some f, true => s.modLink port (fun l => { l with
          replays := n + 1, replaySeq := seq, line := l.line ++ [.frame f] })
      | _, _ => (s.retrain port).linkEvent 5 port

/-- ERROR_RATE_CHECK (R429, R473): each second the crc failures are compared with LNK_ERRTH.per_s. -/
def execErrorRateCheck (port : Nat) (s : State) : Out :=
  s.onPort port <|
    let n := (s.link port).fails
    let s := s.modLink port (fun l => { l with fails := 0 })
    if s.regF aLnkErrth 15 0 < n then s.relay srcLnkErr true port (sat 0xFFFF n) else s

end Sys2Proof.Machine
end

