-- ==== Sys2Proof/Machine/Access.lean ====
section
/-! DEFINITION. Set-up accesses from every path (R442, R443, R500 to R507): the registers of the horizon die and of
modes, what the horizon die answers itself, and the register messages. -/

namespace Sys2Proof.Machine

/-! ### The registers of the horizon die -/

/-- SEC_KEY of a slot (R468). -/
def State.secKey (s : State) (i : Nat) : Word :=
  let k := s.key i
  w32 (leNat ((digestBytes k.digest).take 3) * 256 + b2n k.revoked * 8 + k.usage.toNat * 2 + b2n k.prog)

/-- SVC_STAT: the failure count stands in the register; the rest shows the session. -/
def State.svcStat (s : State) : Word :=
  let v := s.hor.svc
  putFld (s.reg aSvcStat) 3 0 (b2n v.lockout * 8 + b2n v.conn * 4 + v.level.toNat)

/-- The value of a register of the horizon die. -/
def State.horizonValue (s : State) (a : Nat) : Word :=
  if a = aSvcStat then s.svcStat
  else if aSecKey 0 ≤ a ∧ a < aSecKey 4 then s.secKey ((a - aSecKey 0) / 4)
  else s.reg a

/-- An open image sequence of an origin is abandoned; its slot stays invalid (R458). -/
def State.abandonImage (s : State) (service : Bool) : State :=
  match s.hor.image with
  | some q => if q.service = service then { s with hor := { s.hor with image := none } } else s
  | none => s

/-- A service session ends (R467): its level is 0, and its image sequence is abandoned. -/
def State.endSession (s : State) : State :=
  ({ s with hor := { s.hor with svc := { s.hor.svc with level := 0 } } }).abandonImage true

/-- The service port is detached from USB (R463, R467). -/
def State.detachUsb (s : State) : State :=
  let s := s.endSession
  { s with hor := { s.hor with svc := { s.hor.svc with conn := false } } }

/-- A write of LNK_CTRL: bits of absent ports read 0, and a port that is disabled goes down. -/
def State.writeLnkCtrl (s : State) (v : Word) : State :=
  let here := ((upTo s.variant.dsports).map (fun i => 2 ^ (i + 2))).sum + 3
  let s := s.setReg aLnkCtrl (v &&& w32 here)
  ((s.portsFrom 1).filter (fun k => !s.portEnabled k && decide (s.portStep k ≠ 0))).foldl
    (fun s k => (s.retrain k).toStep k 0) s

/-- The effect of a write of a register of the horizon die (R14, R450). -/
def State.horizonEffect (s : State) (a : Nat) (row : RegRow) (i : Nat) (v : Word) : State :=
  let busy := decide (i < 5) && decide (s.regF (aRingCfg i) 8 8 = 1)
  if a = aLnkCtrl then s.writeLnkCtrl v
  else if (a = aRingBlo i ∨ a = aRingBhi i) ∧ busy then s
  else if a = aRingCfg i then s.writeRingCfg i v
  else if a = aSvcCtrl then
    let s := s.storeRw a row.rw v
    if fld v 0 0 = 0 then s.detachUsb else s
  else s.storeRw a row.rw v

/-- A set-up access that the horizon die answers itself: its own block, the relay address, and addresses outside
every block (R473, R502, R507). -/
def atHorizon (a : Nat) : Bool :=
  decide (a = relayAddr) || horizonReg a || decide (a % 4 ≠ 0) || (mapOf a).isNone

/-- An access that the horizon die answers: status, value and state. -/
def State.horizonAccess (s : State) (a : Nat) (write : Option Word) : Nat × Word × State :=
  if a = relayAddr then (stRefused, 0, s)
  else if a % 4 ≠ 0 ∨ (mapOf a).isNone then (stBadArg, 0, s)
  else match write with
    | none =>
      if s.variant.absent a ∨ (regAt a).isNone then (stOk, 0, s) else (stOk, s.horizonValue a, s)
    | some v =>
      if s.variant.absent a then (stAbsent, 0, s.setupRsv false a v)
      else match regAt a with
        | none => (stOk, 0, s.setupRsv false a v)
        | some (row, i) =>
          (stOk, 0, (s.horizonEffect a row i v).countRsv false a v)

/-! ### Accesses that cross the barrier -/

/-- A write to the field side by a host path (R490, R505): its status and its effect. -/
def State.hostFieldWrite (s : State) (a : Nat) (v : Word) : Nat × State :=
  if s.loaderOwns a then (stRefused, s)
  else if a = aModeCmd then
    (stOk, (s.writeModeCmd (fld v 2 0) (fld v 9 8)).countRsv false a v)
  else if a = aModeBoot then
    let (st, t) := s.fieldWrite false a v
    (st, t.writeModeBoot v)
  else s.fieldWrite false a v

/-- An access that the barrier port performs: status, value and state. -/
def State.fieldAccess (s : State) (a : Nat) (write : Option Word) : Nat × Word × State :=
  match write with
  | none => let r := s.setupRead a; (r.1, r.2, s.afterRead a)
  | some v => let r := s.hostFieldWrite a v; (r.1, 0, r.2)

/-- An access by any host path: none where it must reach a field side that does not answer. -/
def State.hostAccess (s : State) (a : Nat) (write : Option Word) : Option (Nat × Word × State) :=
  if atHorizon a then some (s.horizonAccess a write)
  else if s.fieldAnswers then some (s.fieldAccess a write)
  else none

/-- SET_UP_ACCESS (R443, R481, R507): the barrier port performs an access on the field side. The service port reads
only, and the loader writes in the write phase and skips entries of absent blocks. -/
def execSetUpAccess (addr : BitVec 24) (write : Option Word) (o : Origin) (s : State) : Out :=
  .next <|
    let a := addr.toNat
    if atHorizon a ∨ ¬ s.fieldOn then s
    else match o with
      | .host => if s.fieldAnswers then (s.fieldAccess a write).2.2 else s
      | .service => if s.fieldAnswers then s.afterRead a else s
      | .loader => match write, s.mode.mode, s.mode.lstate with
        | some v, .load, .write => if s.variant.absent a then s else (s.fieldWrite true a v).2
        | _, _, _ => s

/-! ### Register messages (R430, R442) -/

/-- REG_RSP: address, value and status. -/
def State.regRsp (s : State) (a : Nat) (v : Word) (status : Nat) : State :=
  s.toAdapter 0x03 (leBytes 4 a ++ leBytes 4 v.toNat ++ [BitVec.ofNat 8 status])

/-- An address of the horizon block (R442). -/
def inHorizonBlock (a : Nat) : Bool := decide (0x100000 ≤ a ∧ a < 0x110000)

/-- A register message is performed and answered; it waits where it meets no field side. -/
def State.performReg (s : State) (a : Nat) (write : Option Word) : State :=
  match s.hostAccess a write with
  | some (st, v, s) => s.regRsp a (write.getD v) st
  | none => { s with hor := { s.hor with waitRegs := s.hor.waitRegs ++ [(BitVec.ofNat 24 a, write)] } }

/-- Once the field side answers again, the register messages that wait for it are performed in order (R507). -/
def State.serveRegs : Nat → State → State
  | 0, s => s
  | n + 1, s =>
    match s.hor.waitRegs with
    | [] => s
    | (a, w) :: rest =>
      if s.fieldAnswers ∧ s.upstreamUp then
        (({ s with hor := { s.hor with waitRegs := rest } }).performReg a.toNat w).serveRegs n
      else s

/-- What waits for the field side goes on. -/
def State.serveWaiting (s : State) : State := s.serveRegs s.hor.waitRegs.length

/-- A register message: while the command ring is enabled it reaches only the horizon block (R442). One that meets no
field side waits for it, or for its TIMEOUT. -/
def State.regMessage (s : State) (a : Nat) (write : Option Word) : State :=
  if ¬ s.mode.hostRst ∨ ¬ s.upstreamUp then s
  else if ¬ inHorizonBlock a ∧ s.regF (aRingCfg 0) 8 8 = 1 then s.regRsp a (write.getD 0) stRefused
  else s.serveWaiting.performReg a write

/-- REG_RD (R442). -/
def execRegRd (addr : BitVec 24) (s : State) : Out := .next (s.regMessage addr.toNat none)

/-- REG_WR (R442). -/
def execRegWr (addr : BitVec 24) (v : Word) (s : State) : Out := .next (s.regMessage addr.toNat (some v))

end Sys2Proof.Machine
end

