-- ==== Sys2Proof/Machine/Commands.lean ====
section
/-! DEFINITION. The commands of the command ring (R220, R455 to R458, R463 to R472): set-up accesses, image
sequences, memory, views, the self-test, key slots; and what waits for the field side (R442). -/

namespace Sys2Proof.Machine

/-! ### Set-up accesses -/

/-- A set-up access that the command ring makes to the horizon die. One that enables or disables that ring is the entry in
progress: those behind it are dropped (R450). -/
def State.ringHorizon (s : State) (a : Nat) (write : Option Word) : Nat × Word × State :=
  let (st, v, t) := ({ s with hor := { s.hor with cmdQ := [] } }).horizonAccess a write
  if t.ring 0 = s.ring 0 ∧ t.reg (aRingCfg 0) = s.reg (aRingCfg 0) then
    (st, v, { t with hor := { t.hor with cmdQ := s.hor.cmdQ } })
  else (st, v, t)

/-- A set-up access of the command ring. -/
def State.ringAccess (s : State) (op : Byte) (write : Command → Option Word) : State :=
  match s.hor.cmdQ with
  | [] => s
  | c :: _ =>
    let a := c.a0.toNat
    if ¬ atHorizon a then s.runField op fun c s =>
        let (st, v, s) := s.fieldAccess a (write c)
        ({ status := st, result := v, data := [], buffer := [] }, s)
    else match s.command op with
      | none => s
      | some (c, s) =>
        let (st, v, t) := s.ringHorizon a (write c)
        s.finish c true ({ status := st, result := v, data := [], buffer := [] }, t)

/-- SETUP_READ (R455). An address of more than 24 bits lies outside every block (R502). -/
def execSetupRead (s : State) : Out := .next (s.ringAccess 0x01 fun _ => none)

/-- SETUP_WRITE (R455). -/
def execSetupWrite (s : State) : Out := .next (s.ringAccess 0x02 fun c => some c.a1)

/-! ### Signatures (R469, R471, R473) -/

/-- The outcome of a verification: SEC_STAT.result and the key slot. -/
structure Verdict where
  result : Nat
  slot   : Nat
  deriving DecidableEq, Repr

/-- A key slot holds a digest: it is programmed with it. -/
def KeySlot.holds (k : KeySlot) (d : BitVec 256) : Bool := k.prog && decide (k.digest = d)

/-- A signature is verified against the key slots with a usage, bit 0 for image and bit 1 for service (R466, R469,
R472): 1 verified, 2 bad signature, 3 unknown key, 4 revoked key. A slot that is revoked counts only where no other slot
holds the key. -/
def State.verify (s : State) (use : Nat) (key : BitVec 256) (msg : List Byte) (sig : BitVec 512) : Verdict :=
  let d := sha256 (digestBytes key)
  let has := (upTo 4).filter (fun i => (s.key i).holds d && (s.key i).usage.getLsbD use)
  match has.find? (fun i => !(s.key i).revoked), has.head? with
  | some i, _ => if Config.ed25519 key msg sig then { result := 1, slot := i } else { result := 2, slot := i }
  | none, some i => { result := 4, slot := i }
  | none, none => { result := 3, slot := 0 }

/-- SEC_STAT shows a verification's outcome. -/
def State.secStat (s : State) (v : Verdict) : State :=
  (s.setRegF aSecStat 2 0 v.result).setRegF aSecStat 5 4 v.slot

/-- A refusal of the signature unit: SEC_STAT shows the cause, and SEC_SIG is relayed. -/
def State.secFail (s : State) (v : Verdict) : State := (s.secStat v).relay srcSecSig true 0 v.result

/-! ### Image sequences (R458, R469, R471, R491) -/

/-- IMAGE_BEGIN of an origin: a length that does not fit a slot is out of range. -/
def State.imageOpen (s : State) (service : Bool) (len : Nat) : Nat × State :=
  if s.hor.image.isSome ∨ s.mode.trial then (stRefused, s)
  else if len = 0 ∨ (s.variant.slot false).2 < len then (stBadArg, s)
  else
    let b := !s.mode.activeB
    let s := s.writeBoot (fun m => if b then { m with validB := false } else { m with validA := false })
    (stOk, { s with hor := { s.hor with image := some { service, next := 0, total := len } } })

/-- IMAGE_BLOCK of an origin: a block follows where the last one ended. -/
def State.imagePut (s : State) (service : Bool) (off : Nat) (bs : List Byte) : Nat × State :=
  match s.hor.image with
  | none => (stRefused, s)
  | some q =>
    if q.service ≠ service then (stRefused, s)
    else if off ≠ q.next ∨ q.total < off + bs.length then (stBadArg, s)
    else
      let s := s.mramWrite ((s.variant.slot (!s.mode.activeB)).1 + off) bs
      (stOk, { s with hor := { s.hor with image := some { q with next := off + bs.length } } })

/-- The image of a sequence that is complete, as the signature unit judges it (R469). -/
def State.imageVerdict (s : State) (q : ImageSeq) (g : Img) : Verdict :=
  if q.next ≠ q.total ∨ q.total < 96 then { result := 6, slot := 0 }
  else
    let o := g.base + (q.total - 96)
    let key := bytesDigest (mread g.mem o 32)
    let sig := BitVec.ofNat 512 (leNat (mread g.mem (o + 32) 64).reverse)
    s.verify 0 key (digestBytes (sha256 (mread g.mem g.base (q.total - 96)))) sig

/-- The key slot that a revocation image of a length names, where it has the format of one (R471, R480, R481): a header
for the variant, and a REVOKE section alone. -/
def Img.revokes (g : Img) (v : Variant) (len : Nat) : Option Nat :=
  let header := g.word 0 = 0x4D49544C#32 ∧ g.byte 4 = 1 ∧ g.byte 5 = 2 ∧ g.half 6 < 8 ∧ (g.half 6).testBit v.bit
    ∧ g.len = len ∧ g.len % 8 = 0 ∧ (g.words 20 3).all (· = 0)
  match g.sections with
  | [x] =>
    if header ∧ x.type = 9 ∧ x.param = 0 ∧ g.word 44 = 0 ∧ x.len = 4 ∧ x.off % 8 = 0 ∧ 48 ≤ x.off
        ∧ x.off + 4 + 96 ≤ len ∧ (g.word x.off).toNat < 4 then some (g.word x.off).toNat
    else none
  | _ => none

/-- A revocation is allowed (R471): the slot is programmed, it is not the signer's, and another unrevoked slot with
image usage stays. -/
def State.mayRevoke (s : State) (slot signer : Nat) : Bool :=
  (s.key slot).prog && decide (slot ≠ signer)
    && (upTo 4).any (fun i => decide (i ≠ slot) && (s.key i).prog && !(s.key i).revoked
      && (s.key i).usage.getLsbD 0)

/-- An image fails its verification: its slot stays invalid. -/
def State.imageFail (s : State) (v : Verdict) : Answer × State := (Answer.of stSigFail, s.secFail v)

/-- IMAGE_END of an origin (R469, R471, R491). The slot of a revocation image stays invalid, and the result word names
the key slot. -/
def State.imageClose (s : State) (service : Bool) : Answer × State :=
  match s.hor.image with
  | none => (Answer.of stRefused, s)
  | some q =>
    if q.service ≠ service then (Answer.of stRefused, s)
    else
      let s := { s with hor := { s.hor with image := none } }
      let b := !s.mode.activeB
      let g := s.slotImage b
      let v := s.imageVerdict q g
      let d := sha256 (mread g.mem g.base (q.total - 96))
      let data := leBytes 4 (b2n b) ++ digestBytes d
      if v.result ≠ 1 then s.imageFail v
      else if g.byte 5 = 2 then
        match g.revokes s.variant q.total with
        | none => s.imageFail { v with result := 6 }
        | some slot =>
          if s.mayRevoke slot v.slot then
            ({ status := stOk, result := w32 slot, data, buffer := [] },
              (s.secStat v).modKey slot (fun k => { k with revoked := true }))
          else
            let (i, s) := s.takeFresh
            s.imageFail { v with result := (Config.freeWord i).toNat % 8 }
      else
        let s := (s.secStat v).writeBoot (fun m =>
          if b then { m with validB := true, digestB := d } else { m with validA := true, digestA := d })
        ({ status := stOk, result := 0, data, buffer := [] }, s)

/-- IMAGE_BEGIN (R458, R491). -/
def execImageBegin (s : State) : Out :=
  .next <| s.runField 0x20 fun c s =>
    let (st, s) := s.imageOpen false c.a0.toNat
    (Answer.of st, s)

/-- IMAGE_BLOCK (R458). -/
def execImageBlock (s : State) : Out :=
  .next <| s.runField 0x21 fun c s =>
    if c.a1 = 0 ∨ 4096 < c.a1.toNat then (Answer.of stBadArg, s)
    else
      let (st, s) := s.imagePut false c.a0.toNat c.buffer
      (Answer.of st, s)

/-- IMAGE_END (R469). -/
def execImageEnd (s : State) : Out := .next (s.runField 0x22 fun _ s => s.imageClose false)

/-- IMAGE_SEQUENCE_TIMEOUT (R458): no block for 10 s. -/
def execImageSequenceTimeout (s : State) : Out := .next { s with hor := { s.hor with image := none } }

/-! ### Staging (R207, R220, R222) -/

/-- The schedule of a partition in an image, with its section. -/
def Img.schedOf (g : Img) (p : Nat) : Option Section := (g.ofType 6).find? (fun x => x.param = p)

/-- A partition as a schedule would run it, for the margin check (R218). -/
def State.stageTrial (s : State) (g : Img) (x : Section) (p : Nat) : State :=
  let y := g.sched x
  (s.modPart p (fun q => { q with paths := y.allPaths g, stagedPaths := [], armed := none })).setRegF
    (aSeqMargin p) 15 0 (fld (y.hdr.getD 3 0) 15 0)

/-- A schedule passes the checks of R207 and R222 for a partition that runs. -/
def State.mayStage (s : State) (g : Img) (x : Section) (p : Nat) : Bool :=
  let y := g.sched x
  let t := s.stageTrial g x p
  (s.checkSched g y p x.idx (fun f => s.flowF f 0 0 0 = 1)).isNone && t.marginsOk
    && before16 (BitVec.ofNat 16 (s.regF (aSeqPstat p) 31 16)) (BitVec.ofNat 16 (fld (y.hdr.getD 0 0) 15 0))

/-- A schedule is staged: the inactive banks of the slot tables and of the root table are written. -/
def State.stage (s : State) (g : Img) (x : Section) (p : Nat) : State :=
  let y := g.sched x
  let bankB := !(s.part p).bankB
  let s := (s.putTables g y p bankB).putRoots g y p bankB
  s.modPart p (fun q => { q with
    staged := some y.hdr, stagedPaths := y.allPaths g
    nrootA := if bankB then q.nrootA else y.nroot
    nrootB := if bankB then y.nroot else q.nrootB })

/-- IMAGE_STAGE (R220): the schedule of a partition in the verified inactive image is staged. -/
def execImageStage (s : State) : Out :=
  .next <| s.runField 0x23 fun c s =>
    let b := !s.mode.activeB
    let g := s.slotImage b
    let p := c.a0.toNat
    if 8 ≤ p then (Answer.of stBadArg, s)
    else if ¬ s.running ∨ s.mode.trial ∨ ¬ s.slotValid b ∨ ¬ (s.partition p).sched ∨ (s.part p).armed.isSome
        ∨ (g.checkLayout (s.variant.slot b).2).isSome then (Answer.of stRefused, s)
    else match g.schedOf p with
      | none => (Answer.of stRefused, s)
      | some x =>
        let s1 := if (s.checkSched g (g.sched x) p x.idx (fun f => s.flowF f 0 0 0 = 1)).isNone
          then s.noteMargins (s.stageTrial g x p) else s
        if s.mayStage g x p then (Answer.of stOk, s1.stage g x p) else (Answer.of stRefused, s1)

/-! ### Memory (R455, R457, R331) -/

/-- What a memory command names: space, unit, offset and length. -/
structure MemRange where
  space : Nat
  unit  : Nat
  off   : Nat
  len   : Nat
  deriving DecidableEq, Repr

/-- The range of a command. -/
def Command.range (c : Command) : MemRange :=
  { space := c.a0.toNat, unit := fld c.a2 24 16, off := c.a1.toNat, len := fld c.a2 15 0 }

/-- The bytes of a space, where the variant has the unit. -/
def State.spaceSize (s : State) (m : MemRange) : Option Nat :=
  match m.space with
  | 0 => if m.unit < s.variant.pcells then some 0x10000 else none
  | 1 => if m.unit < s.variant.pcells then some 0x8000 else none
  | 2 => if m.unit < s.variant.clouds then some 0x80000 else none
  | 3 => some 0x300000
  | 4 => some (s.variant.dramMiB * 7 / 8 * 0x100000)
  | _ => some (s.variant.mramUnits * 0x40000)

/-- The status of a range on its own: 0 where it may be accessed. -/
def State.rangeStatus (s : State) (m : MemRange) : Nat :=
  if 5 < m.space ∨ m.off % 4 ≠ 0 ∨ m.len % 4 ≠ 0 ∨ m.len < 4 ∨ 4096 < m.len then stBadArg
  else match s.spaceSize m with
    | none => stAbsent
    | some n => if n < m.off + m.len then stBadArg else stOk

/-- The cloud that a range lies in, for the spaces of cells and clouds. -/
def MemRange.cloud (m : MemRange) : Option Nat :=
  match m.space with
  | 0 => some (m.unit / 16)
  | 1 => some (m.unit / 16)
  | 2 => some m.unit
  | _ => none

/-- A memory's number in the list of poisoned words; none for MRAM. -/
def MemRange.poisonNo (m : MemRange) : Option Nat :=
  match m.space with
  | 0 => some (32 + m.unit)
  | 1 => some (1024 + m.unit)
  | 2 => some m.unit
  | 3 => some 18
  | 4 => some 19
  | _ => none

/-- The words of a range. -/
def MemRange.words (m : MemRange) : List Nat := (upTo (m.len / 4)).map (m.off / 4 + ·)

/-- The bytes of a range. -/
def State.readRange (s : State) (m : MemRange) : List Byte :=
  match m.space with
  | 0 => s.readStore m.unit false m.off m.len
  | 1 => s.readStore m.unit true m.off m.len
  | 2 => mread (s.cloud m.unit).scratch m.off m.len
  | 3 => mread s.mem.glob m.off m.len
  | 4 => mread s.mem.dram m.off m.len
  | _ => mread s.mem.mram m.off m.len

/-- The restrictions of MEM_WRITE (R457): 0 where the write is performed. -/
def State.writeStatus? (s : State) (m : MemRange) : Nat :=
  let (user, size) := s.variant.mramUser
  match m.space with
  | 0 | 1 =>
    if s.checks m.unit then stRefused
    else match s.partOfCell m.unit with
      | some p => if s.mode.halted.getLsbD p then stOk else stRefused
      | none => stRefused
  | 2 => if m.words.any (fun w => s.inSpillArea m.unit (w * 4)) then stAccess else stOk
  | 3 => if m.off < s.regF aMemGsys 11 0 * 1024 then stAccess else stOk
  | 4 => stOk
  | _ => if user ≤ m.off ∧ m.off + m.len ≤ user + size then stOk else stAccess

/-- A command on a range, after a check that refuses it wherever its unit is. The unit answers while its cloud runs; a
parked cloud is woken, and the command waits for it and for the end of a drain (R252, R256). -/
def State.runMemory (s : State) (op : Byte) (check : MemRange → Nat) (f : Command → MemRange → State → Answer × State) :
    State :=
  match s.hor.cmdQ with
  | [] => s
  | c :: _ =>
    let st := if s.rangeStatus c.range = stOk then check c.range else s.rangeStatus c.range
    let cloud := if st = stOk then c.range.cloud else none
    let state := (cloud.map (fun k => (s.cloud k).state)).getD .run
    if c.op ≠ op then s
    else match state with
      | .parked | .waking =>
        if s.fieldAnswers then s.wakeCloud (cloud.getD 0) else s
      | .drain => s
      | .off | .test | .fenced => s.runField op fun _ s => (Answer.of stAccess, s)
      | .run => s.runField op fun c s => if st = stOk then f c c.range s else (Answer.of st, s)

/-- A byte of the pending pool or of the overflow area, where pending activations lie in a layout that the manual does not
give (R171, R188). -/
def State.hiddenByte (s : State) (space a : Nat) : Bool :=
  let pool := s.regF aDspPool 11 0 * 0x400
  let ovf := s.regF aDspOvf 11 0 * 0x100000
  s.mode.loaded && match space with
    | 3 => decide (pool ≤ a ∧ a < pool + 0x40000)
    | 4 => decide (ovf ≤ a ∧ a < ovf + s.regF aDspOvf 23 16 * 0x100000)
    | _ => false

/-- The bytes of a range as MEM_READ finds them: what a pending activation's entry holds is a free value at each read
(DESIGN CHOICE: log entry 33). -/
def State.readFree (s : State) (m : MemRange) : List Byte × State :=
  let bs := s.readRange m
  if (upTo m.len).any (fun i => s.hiddenByte m.space (m.off + i)) then
    ((upTo m.len).map (fun i => if s.hiddenByte m.space (m.off + i) then Config.freeByte (s.fresh + i) else bs.getD i 0),
      { s with fresh := s.fresh + m.len })
  else (bs, s)

/-- MEM_READ (R455, R457): a poisoned word is read as ACCESS. -/
def execMemRead (s : State) : Out :=
  .next <| s.runMemory 0x30 (fun _ => stOk) fun _ m s =>
    if m.poisonNo.any (fun n => m.words.any (fun w => s.poisoned n w)) then (Answer.of stAccess, s)
    else
      let (bs, s) := s.readFree m
      ({ status := stOk, result := 0, data := [], buffer := bs }, s)

/-- A cell's words are written one by one, each recorded for the checker of a pair (R331). A parcel keeps the head
bit that it has. -/
def State.writeCell (s : State) (pcell : Nat) (istore : Bool) (off : Nat) : Nat → List Byte → State
  | 0, _ => s
  | n + 1, bs =>
    if istore then
      let a := off / 2
      let v := w32 (leNat (bs.take 2))
      let head := ((s.cell pcell).parcel a).getLsbD 16
      let s := s.recordReplay pcell 2 a 0 v head
      (s.debugWrite pcell 2 a 0 v head).writeCell pcell istore (off + 2) n (bs.drop 2)
    else
      let v := w32 (leNat (bs.take 4))
      let s := s.recordReplay pcell 0 (off / 4) 0 v false
      (s.debugWrite pcell 0 (off / 4) 0 v false).writeCell pcell istore (off + 4) n (bs.drop 4)

/-- The bytes of a range are written; a word that is written whole is poisoned no more (R272). -/
def State.writeRange (s : State) (m : MemRange) (bs : List Byte) : State :=
  let s : State := match m.poisonNo with
    | some n => m.words.foldl (fun (s : State) w => s.clearPoison n w) s
    | none => s
  match m.space with
  | 0 => s.writeCell m.unit false m.off (m.len / 4) bs
  | 1 => s.writeCell m.unit true m.off (m.len / 2) bs
  | 2 => s.modCloud m.unit (fun k => { k with scratch := mwrite k.scratch m.off bs })
  | 3 => { s with mem := { s.mem with glob := mwrite s.mem.glob m.off bs } }
  | 4 => { s with mem := { s.mem with dram := mwrite s.mem.dram m.off bs } }
  | _ => (s.mramWrite m.off bs).bump (aMemCnt 12)

/-- MEM_WRITE (R457): a refusal comes before the question whether the unit's cloud answers. -/
def execMemWrite (s : State) : Out :=
  .next <| s.runMemory 0x31 s.writeStatus? fun c m s => (Answer.of stOk, s.writeRange m c.buffer)

/-! ### Views (R79 to R82, R163) -/

/-- A view of a physical cell: absent, refused for a checker, or not reached where its cloud does not run; a parked
cloud is woken. -/
def State.runView (s : State) (op : Byte) (cell : Command → State → Option Nat)
    (f : Command → Nat → State → Answer) : State :=
  match s.hor.cmdQ with
  | [] => s
  | c :: _ =>
    if c.op ≠ op then s
    else match cell c s with
      | none => s.runField op fun _ s => (Answer.of stAbsent, s)
      | some pc =>
        match (s.cloud (pc / 16)).state with
        | .parked | .waking => if s.fieldAnswers then s.wakeCloud (pc / 16) else s
        | .drain => s
        | .off | .test | .fenced => s.runField op fun _ s => (Answer.of stAccess, s)
        | .run => s.runField op fun c s =>
          if s.checks pc then (Answer.of stRefused, s) else (f c pc s, s)

/-- The physical cell that a command names in a0. -/
def cellOfA0 (c : Command) (s : State) : Option Nat :=
  if c.a0.toNat < s.variant.pcells then some c.a0.toNat else none

/-- SET_VIEW (R80): the 8 ways of a set. -/
def execSetView (s : State) : Out :=
  .next <| s.runView 0x32 cellOfA0 fun c pc s =>
    if 256 ≤ c.a1.toNat then Answer.of stBadArg
    else { status := stOk, result := 0, data := [], buffer := s.setView pc c.a1.toNat }

/-- KEY_VIEW (R80): the records of a key of a logical cell, and their count. -/
def execKeyView (s : State) : Out :=
  .next <| s.runView 0x33 (fun c s => if c.a0.toNat < s.variant.lcells then s.placeOf c.a0.toNat else none)
    fun c pc s =>
      let rs := s.keyView pc (BitVec.ofNat 12 (fld c.a1 11 0)) (BitVec.ofNat 16 (fld c.a2 15 0))
        (BitVec.ofNat 14 (fld c.a1 25 12))
      { status := stOk, result := w32 rs.length, data := [], buffer := rs.flatten }

/-- SLOT_VIEW (R163). -/
def execSlotView (s : State) : Out :=
  .next <| s.runView 0x34 cellOfA0 fun _ pc s =>
    { status := stOk, result := 0, data := [], buffer := s.slotView pc }

/-! ### The self-test (R465) -/

/-- Spare rows and columns in use. -/
def State.sparesUsed (s : State) : Nat := (s.mem.spares.map (fun e => e.2.1 + e.2.2)).sum

/-- SELFTEST (R465): logic self-test of every placed cell and the transparent test of every macro, in SAFE. Repairs are
applied and logged with origin 2, an unrepairable macro has its consequence (R303), and the result word counts. -/
def State.selfTest (s : State) (r : TestOutcome) : Answer × State :=
  if s.mode.mode ≠ .safe then (Answer.of stRefused, s)
  else
    let placed := (upTo s.variant.pcells).filter (fun p => (s.lidOf p).isSome)
    let failed := placed.filter (· ∈ r.cells)
    let before := s.sparesUsed
    let macros := r.macros.filter s.macroExists
    let bad := macros.filter s.exceeds
    let none_ : TestOutcome := { cells := [], clouds := [], root := false, macros := [] }
    let (clouds, cells) := (s.badClouds none_ bad, s.badCells none_ bad)
    let s := macros.foldl (fun s f => s.mendMacro f 2) s
    let s := (s.takeOut clouds cells 2).powerPlaced
    ({ status := stOk
       result := w32 (placed.length + sat 255 failed.length * 65536 + sat 255 (s.sparesUsed - before) * 2 ^ 24)
       data := [], buffer := [] }, s)

/-- SELFTEST (R465). -/
def execSelftest (r : TestOutcome) (s : State) : Out := .next (s.runField 0x40 fun _ s => s.selfTest r)

/-! ### Key slots (R472) -/

/-- A digest that the manual leaves open: eight free words. -/
def State.freeDigest (s : State) : BitVec 256 × State :=
  (upTo 8).foldl (fun (d, s) _ =>
    let (i, s) := s.takeFresh
    ((d <<< 32) ||| (Config.freeWord i).setWidth 256, s)) (0, s)

/-- What a key command carries: slot, usage, digest, and its authorisation where it has one. -/
structure KeyOrder where
  slot   : Nat
  usage  : Nat
  digest : BitVec 256
  authz  : Option SigBlock
  deriving DecidableEq, Repr

/-- The bytes that an authorisation signs the SHA-256 of. -/
def KeyOrder.bytes (k : KeyOrder) : List Byte :=
  BitVec.ofNat 8 (k.slot + 4 * k.usage) :: (digestBytes k.digest ++ leBytes 8 Config.serial.toNat)

/-- Programming is refused: a cause that SEC_STAT has no code for shows as a free value. -/
def State.keyRefuse (s : State) (v : Option Verdict) : Nat × State :=
  match v with
  | some v => (stRefused, s.secFail v)
  | none =>
    let (i, s) := s.takeFresh
    (stRefused, s.secFail { result := (Config.freeWord i).toNat % 8, slot := 0 })

/-- The fuses of a slot are blown and read back. Fuses that differ from what was asked hold what the manual leaves
open. -/
def State.blowKey (s : State) (k : KeyOrder) (ok : Bool) : Nat × State :=
  if ok then
    (stOk, s.modKey k.slot (fun x => { x with
      digest := k.digest, usage := BitVec.ofNat 2 k.usage, prog := true }))
  else
    let (d, s) := s.freeDigest
    let (i, s) := s.takeFresh
    let w := Config.freeWord i
    let s := s.modKey k.slot (fun x => { x with
      digest := d, usage := BitVec.ofNat 2 (fld w 1 0), prog := w.getLsbD 2 })
    (stRefused, s.secFail { result := 7, slot := k.slot })

/-- KEY_PROGRAM (R472). -/
def State.programKey (s : State) (k : KeyOrder) (ok : Bool) : Nat × State :=
  if k.usage = 0 then (stBadArg, s)
  else if (s.key k.slot).prog ∨ s.running then s.keyRefuse none
  else if (upTo 4).all (fun i => !(s.key i).prog) then s.blowKey k ok
  else match k.authz with
    | none => s.keyRefuse none
    | some b =>
      let v := s.verify 0 b.key (digestBytes (sha256 k.bytes)) b.sig
      if v.result ≠ 1 then s.keyRefuse (some v) else (s.secStat v).blowKey k ok

/-- The authorisation that a buffer of 96 bytes holds. -/
def sigBlockOf (bs : List Byte) : Option SigBlock :=
  if bs.length = 96 then
    some { key := bytesDigest (bs.take 32), sig := BitVec.ofNat 512 (leNat (bs.drop 32).reverse) }
  else none

/-- KEY_PROGRAM (R472), on the horizon die. -/
def execKeyProgram (readBackOk : Bool) (s : State) : Out :=
  .next <|
    match s.command 0x50 with
    | none => s
    | some (c, s) =>
      let k : KeyOrder :=
        { slot := fld c.a0 1 0, usage := fld c.a0 3 2, digest := bytesDigest (c.data.take 32)
          authz := sigBlockOf c.buffer }
      let (st, t) := s.programKey k readBackOk
      s.finish c true (Answer.of st, t)

/-! ### Timeouts (R442, R507) -/

/-- A command of the ring is one that the horizon die executes. -/
def Command.onHorizon (c : Command) : Bool :=
  c.op = 0x50 || ((c.op = 0x01 || c.op = 0x02) && atHorizon c.a0.toNat)

/-- FIELD_SIDE_TIMEOUT (R442): the field side does not answer, and the register message or the command that waits
longest is answered with TIMEOUT. Where it answers again, what waits is performed. -/
def execFieldSideTimeout (s : State) : Out :=
  .next <|
    if ¬ s.mode.hostRst then s
    else if s.fieldAnswers then s.serveWaiting
    else match s.hor.waitRegs with
      | (a, w) :: rest =>
        ({ s with hor := { s.hor with waitRegs := rest } }).regRsp a.toNat (w.getD 0) stTimeout
      | [] =>
        match s.hor.cmdQ with
        | [] => s
        | c :: _ =>
          if c.onHorizon then s
          else match s.command c.op with
            | some (c, s) => s.finish c true (Answer.of stTimeout, s)
            | none => s

end Sys2Proof.Machine
end

