-- ==== Sys2Proof/Machine/Inject.lean ====
section
/-! DEFINITION. The inject ring (R459, R496) and the extract ring (R460, R461) at the barrier port. -/

namespace Sys2Proof.Machine

/-! ### Interface tags (R495, R496) -/

/-- The interface record of a flow in the loaded image. -/
def State.ifcOf (s : State) (flow : Nat) : Option (BitVec 64) :=
  s.mode.ifc.find? (fun r => bitsOf r.toNat 43 32 ≤ flow ∧ flow ≤ bitsOf r.toNat 55 44)

/-- The tag of a flow: id and version, or 0. -/
def State.ifcTag (s : State) (flow : Nat) : Nat :=
  match s.ifcOf flow with
  | some r => bitsOf r.toNat 15 0
  | none => 0

/-- A tag is accepted for a flow: both are 0, or the ids are equal and the version lies in the record's range. -/
def State.tagOk (s : State) (flow tag : Nat) : Bool :=
  match s.ifcOf flow with
  | none => tag == 0
  | some r =>
    let ver := bitsOf tag 15 10
    bitsOf tag 9 0 == bitsOf r.toNat 9 0 && decide (bitsOf r.toNat 21 16 ≤ ver ∧ ver ≤ bitsOf r.toNat 27 22)

/-! ### Inject entries (R449, R459) -/

/-- A number that an inject entry holds. -/
def entryNat (e : List Byte) (off n : Nat) : Nat := leNat ((e.drop off).take n)

/-- An inject entry is malformed: its kind is neither 1 nor 2, or a byte that R459 does not list is not 0. -/
def injectBad (e : List Byte) : Bool :=
  let kind := entryNat e 0 1
  decide (kind ≠ 1 ∧ kind ≠ 2) || decide (entryNat e 1 1 ≠ 0) || decide (entryNat e 7 1 ≠ 0)
    || decide (entryNat e 12 4 ≠ 0) || decide (entryNat e 32 32 ≠ 0)

/-- The event of an inject entry. -/
def injectEvent (e : List Byte) : Event :=
  { flow := BitVec.ofNat 12 (entryNat e 4 2), flag := BitVec.ofNat 5 (entryNat e 6 1), value := w32 (entryNat e 8 4)
    time := 0, local_ := false }

/-- The entry at the head leaves the ring; the consumer index shows it, and the ring engine fetches on. -/
def State.injectNext (s : State) : State :=
  ((s.modRing 1 (fun q => { q with fetched := q.fetched.drop 1 })).nextIndex 1).fetch 1

/-- The barrier port has a root-egress credit for a token: no packet for the place the token is addressed to waits
at the root egress. -/
def State.injectCredit (s : State) (lid : Nat) : Bool :=
  match s.tokenRoute lid with
  | none => true
  | some _ => s.jet.rootOut.all (fun p => decide ((p.dcloud, p.dcell) ≠ s.outwardDest lid))

/-- A token of an inject entry is launched, or discarded where its tag does not fit its flow. -/
def State.injectToken (s : State) (e : List Byte) : State :=
  let t := Token.ofNat (entryNat e 16 16)
  let flow := t.flow.toNat
  let tag := entryNat e 2 2
  if s.tagOk flow tag then
    if s.injectCredit t.cell.toNat then (s.sendToLid t.cell.toNat .t (.token t)).injectNext else s
  else
    ((s.addRegF (aModeCnt 3) 31 0 1).raise srcIfcVer masterHost accToken (w32 flow)
      (w32 (tag + s.ifcTag flow * 65536))).injectNext

/-- INJECT_ENTRY (R449, R459, R496): the entry at the head of the inject ring is taken, unless the dispatcher holds
source 3. A malformed one is skipped, reported and counted. -/
def execInjectEntry (s : State) : Out :=
  .next <|
    match (s.ring 1).fetched with
    | [] => s
    | e :: _ =>
      if ¬ s.ringOn 1 ∨ (tfind s.dsp.holding 3).isSome then s
      else if injectBad e then ((s.ringErr 1 2).addRegF (aRingStat 1) 31 16 1).injectNext
      else if ¬ s.fieldAnswers ∨ ¬ s.dspOn then s
      else if entryNat e 0 1 = 1 then
        if s.eventRoom 3 then (s.postEvent 3 (injectEvent e)).injectNext else s
      else s.injectToken e

/-! ### Extract entries (R461) -/

/-- A token's stamp lies before the line time at which zenith last entered LOCKED, or it has not been LOCKED. -/
def State.beforeLock (s : State) (stamp : Word) : Bool :=
  match s.zen.lockedAt with
  | none => true
  | some z => earlier stamp (BitVec.ofNat 32 (z / 16))

/-- Bytes 0 to 31 of the extract entry of a token. -/
def State.extractEntry (s : State) (t : Token) : List Byte :=
  leBytes 16 t.toNat ++ leBytes 8 (timeWord s.zen.count (s.isLocal || s.beforeLock t.stamp))
    ++ leBytes 4 s.bar.xseq.toNat ++ leBytes 4 (s.ifcTag t.flow.toNat)

/-- EXTRACT_TOKEN (R461): the barrier port takes a token, where its buffer has room, and writes its entry or holds
it. -/
def execExtractToken (s : State) : Out :=
  .next <|
    match s.bar.inQ with
    | [] => s
    | t :: rest =>
      if ¬ s.fieldOn ∨ 64 ≤ s.bar.extractQ.length then s
      else
        let e := s.extractEntry t
        let s := { s with bar := { s.bar with
          inQ := rest, extractQ := s.bar.extractQ ++ [e], xseq := s.bar.xseq + 1 } }
        s.flushExtract s.bar.extractQ.length

/-- EXTRACT_DROP (R461): with xdrop = 1 the oldest held token has found the ring full for 1 ms. -/
def execExtractDrop (s : State) : Out :=
  .next <|
    match s.bar.extractQ with
    | [] => s
    | _ :: rest =>
      if s.regF (aRingCfg 2) 9 9 = 1 ∧ ¬ s.ringRoom 2 then
        ({ s with bar := { s.bar with extractQ := rest } }).addRegF (aRingStat 2) 31 16 1
      else s

end Sys2Proof.Machine
end

