-- ==== Sys2Proof/Machine/Flags.lean ====
section
/-! DEFINITION. The results of arithmetic at their edges (R103 to R108): Jithar has no flags register,
so a comparison's flag is a value in its destination, and overflow shows as saturation. -/

namespace Sys2Proof.Machine

/-- The value of a comparison: 1 when it holds, else 0 (R103). -/
def flag (b : Bool) : Word := if b then 1 else 0

/-- A signed number clamped to 64 bits (R105). -/
def sat64 (z : Int) : BitVec 64 :=
  if z > 0x7FFFFFFFFFFFFFFF then 0x7FFFFFFFFFFFFFFF
  else if z < -0x8000000000000000 then 0x8000000000000000 else BitVec.ofInt 64 z

/-- The number of leading zero bits (R104): 32 for 0. -/
def leadingZeros (v : Word) : Word :=
  match (upTo 32).find? (fun i => v.getLsbD (31 - i)) with
  | some i => BitVec.ofNat 32 i
  | none => 32

/-- The accumulator that a multiply adds to: PL and PH once every earlier multiply has made its update
(R105, R107). -/
def Strand.acc (t : Strand) : BitVec 64 :=
  match t.mulPend with
  | some v => v
  | none => BitVec.ofNat 64 (t.pl.toNat + t.ph.toNat * 2 ^ 32)

/-- Quotient and remainder of a signed divide (R104): rounded toward zero, the remainder with the
dividend's sign. -/
def divSigned (a b : Word) : Word × Word :=
  if b = 0 then (0xFFFFFFFF, a)
  else (BitVec.ofInt 32 (a.toInt.tdiv b.toInt), BitVec.ofInt 32 (a.toInt.tmod b.toInt))

/-- Quotient and remainder of an unsigned divide (R104). -/
def divUnsigned (a b : Word) : Word × Word :=
  if b = 0 then (0xFFFFFFFF, a)
  else (BitVec.ofNat 32 (a.toNat / b.toNat), BitVec.ofNat 32 (a.toNat % b.toNat))

end Sys2Proof.Machine
end

