-- ==== Sys2Proof/Machine/Jithar.lean ====
section
/-! DEFINITION. The Jithar instructions that compute and control (R96, R103 to R113, R128, R134 to
R136). Each meaning says what the instruction does when the strand in the slot issues it. -/

namespace Sys2Proof.Machine

/-! ### What several instructions share -/

/-- A multiply leaves its result pending; the pending value of an earlier one is written first
(R106, R152). -/
def Ctx.multiply (x : Ctx) (v : BitVec 64) : State :=
  let t := { x.t.flushMul with mulPend := some v }
  x.s.completeInstr x.pcell x.slot (t.advance x.ins.len none) false

/-- A divide holds the strand until it completes; in a multiply's next position it is never abandoned
(R108, R154). -/
def Ctx.divide (x : Ctx) (qr : Word × Word) : State :=
  let t := { x.t.flushMul with wait := .divide qr.1 qr.2 x.t.mulPend.isSome }
  x.s.modCell x.pcell (fun c => c.putStrand x.slot t)

/-- The target of an offset from the instruction's own address (R109). -/
def Ctx.offTarget (x : Ctx) : BitVec 14 := x.t.pc + x.ins.imm.setWidth 14

/-- A conditional branch (R109). -/
def Ctx.branch (x : Ctx) (taken : Bool) : State := if taken then x.jump x.offTarget else x.next

/-- A transfer to the parcel address in rs1; LIMIT where its upper bits are not 0 (R109). -/
def Ctx.toRegister (x : Ctx) (go : BitVec 14 → State) : State :=
  if fld x.a 31 14 ≠ 0 then x.trap .limit x.a else go (x.a.setWidth 14)

/-- A call to a target with the shift that the instruction names (R96). -/
def Ctx.callTo (x : Ctx) (target : BitVec 14) : State :=
  if x.t.l.toNat < x.t.b.toNat + x.ins.sh + 32 ∨ x.t.depth = 31 then
    x.trap .window (x.t.b.setWidth 32)
  else
    let back := x.t.pc + BitVec.ofNat 14 x.ins.len
    let t := { x.t with
      lk := BitVec.ofNat 32 (x.ins.sh * 2 ^ 14 + back.toNat)
      b := x.t.b + BitVec.ofNat 14 x.ins.sh
      depth := x.t.depth + 1 }
    { x with t := t }.jump target

/-- ENDR (R128): completion is reported once, the activation is DONE unless it has trapped, and its
locks are released with ABANDONED (R122). In a Scheduled cell, and in an activation that is complete,
it acts as END (R213). -/
def Ctx.endActivation (x : Ctx) : State :=
  let c := x.s.cell x.pcell
  match (c.findDir x.t.flow x.t.iteration).bind (fun i => (c.dir[i]?).map (fun e => (i, e))) with
  | none => x.s.endStrand x.pcell x.t
  | some (i, e) =>
    if e.scheduled ∨ e.complete then x.s.endStrand x.pcell x.t
    else
      let s := x.s.modCell x.pcell (fun c => c.modDir i (fun e => { e with
        state := if e.state = .live then .done else e.state, complete := true }))
      let s := match s.lidOf x.pcell with
        | some lid => s.report (.completion lid x.t.flow x.t.iteration)
        | none => s
      (s.releaseLocks x.pcell x.t.flow (x.t.seqAt 0)).endStrand x.pcell x.t

/-- A repeat begins (R111): the count in RC, repetition 0, and the body at the program counter. -/
def Ctx.startRepeat (x : Ctx) (uninterrupted : Bool) : State :=
  let n := if x.ins.sh = 2 then x.a.toNat else fld x.ins.imm 5 0 + 1
  if n < 1 ∨ 64 < n then x.trap .limit (BitVec.ofNat 32 n)
  else
    let t := x.t.flushMul.advance x.ins.len none
    x.s.completeInstr x.pcell x.slot { t with
      rc := BitVec.ofNat 32 n, k := 0, rep := true, repu := uninterrupted
      steps := BitVec.ofNat 3 (fld x.ins.imm 9 7) } false

/-! ### Arithmetic and logic (R103, R104) -/

/-- ADD (R103). -/
def execAdd (pcell slot : Nat) (s : State) : Out :=
  s.issue pcell slot .add fun x => x.write (x.a + x.b)

/-- SUB (R103). -/
def execSub (pcell slot : Nat) (s : State) : Out :=
  s.issue pcell slot .sub fun x => x.write (x.a - x.b)

/-- ADDI (R103). -/
def execAddi (pcell slot : Nat) (s : State) : Out :=
  s.issue pcell slot .addi fun x => x.write (x.a + x.ins.imm)

/-- ADDS (R103, R104). -/
def execAdds (pcell slot : Nat) (s : State) : Out :=
  s.issue pcell slot .adds fun x => x.write (satWord (x.a.toInt + x.b.toInt))

/-- SUBS (R103, R104). -/
def execSubs (pcell slot : Nat) (s : State) : Out :=
  s.issue pcell slot .subs fun x => x.write (satWord (x.a.toInt - x.b.toInt))

/-- AND (R103). -/
def execAnd (pcell slot : Nat) (s : State) : Out :=
  s.issue pcell slot .and fun x => x.write (x.a &&& x.b)

/-- OR (R103). -/
def execOr (pcell slot : Nat) (s : State) : Out :=
  s.issue pcell slot .or fun x => x.write (x.a ||| x.b)

/-- XOR (R103). -/
def execXor (pcell slot : Nat) (s : State) : Out :=
  s.issue pcell slot .xor fun x => x.write (x.a ^^^ x.b)

/-- ANDI (R103). -/
def execAndi (pcell slot : Nat) (s : State) : Out :=
  s.issue pcell slot .andi fun x => x.write (x.a &&& x.ins.imm)

/-- ORI (R103). -/
def execOri (pcell slot : Nat) (s : State) : Out :=
  s.issue pcell slot .ori fun x => x.write (x.a ||| x.ins.imm)

/-- XORI (R103). -/
def execXori (pcell slot : Nat) (s : State) : Out :=
  s.issue pcell slot .xori fun x => x.write (x.a ^^^ x.ins.imm)

/-- NOT (R103). -/
def execNot (pcell slot : Nat) (s : State) : Out :=
  s.issue pcell slot .not fun x => x.write (~~~x.a)

/-- SHL (R103, R104): by x[rs2][5:0]. -/
def execShl (pcell slot : Nat) (s : State) : Out :=
  s.issue pcell slot .shl fun x => x.write (x.a <<< fld x.b 5 0)

/-- SHR (R103, R104). -/
def execShr (pcell slot : Nat) (s : State) : Out :=
  s.issue pcell slot .shr fun x => x.write (x.a >>> fld x.b 5 0)

/-- SAR (R103, R104). -/
def execSar (pcell slot : Nat) (s : State) : Out :=
  s.issue pcell slot .sar fun x => x.write (x.a.sshiftRight (fld x.b 5 0))

/-- SHLI (R103, R104). -/
def execShli (pcell slot : Nat) (s : State) : Out :=
  s.issue pcell slot .shli fun x => x.write (x.a <<< fld x.ins.imm 5 0)

/-- SHRI (R103, R104). -/
def execShri (pcell slot : Nat) (s : State) : Out :=
  s.issue pcell slot .shri fun x => x.write (x.a >>> fld x.ins.imm 5 0)

/-- SARI (R103, R104). -/
def execSari (pcell slot : Nat) (s : State) : Out :=
  s.issue pcell slot .sari fun x => x.write (x.a.sshiftRight (fld x.ins.imm 5 0))

/-- ROL (R103, R104): by x[rs2][4:0]. -/
def execRol (pcell slot : Nat) (s : State) : Out :=
  s.issue pcell slot .rol fun x => x.write (x.a.rotateLeft (fld x.b 4 0))

/-- ROR (R103, R104). -/
def execRor (pcell slot : Nat) (s : State) : Out :=
  s.issue pcell slot .ror fun x => x.write (x.a.rotateRight (fld x.b 4 0))

/-- SLT (R103). -/
def execSlt (pcell slot : Nat) (s : State) : Out :=
  s.issue pcell slot .slt fun x => x.write (flag (x.a.slt x.b))

/-- SLTU (R103). -/
def execSltu (pcell slot : Nat) (s : State) : Out :=
  s.issue pcell slot .sltu fun x => x.write (flag (x.a.ult x.b))

/-- SLTI (R103). -/
def execSlti (pcell slot : Nat) (s : State) : Out :=
  s.issue pcell slot .slti fun x => x.write (flag (x.a.slt x.ins.imm))

/-- MIN (R103). -/
def execMin (pcell slot : Nat) (s : State) : Out :=
  s.issue pcell slot .min fun x => x.write (if x.b.slt x.a then x.b else x.a)

/-- MAX (R103). -/
def execMax (pcell slot : Nat) (s : State) : Out :=
  s.issue pcell slot .max fun x => x.write (if x.a.slt x.b then x.b else x.a)

/-- MINU (R103). -/
def execMinu (pcell slot : Nat) (s : State) : Out :=
  s.issue pcell slot .minu fun x => x.write (if x.b.ult x.a then x.b else x.a)

/-- MAXU (R103). -/
def execMaxu (pcell slot : Nat) (s : State) : Out :=
  s.issue pcell slot .maxu fun x => x.write (if x.a.ult x.b then x.b else x.a)

/-- ABS (R103, R104): of 0x8000_0000 it is 0x8000_0000. -/
def execAbs (pcell slot : Nat) (s : State) : Out :=
  s.issue pcell slot .abs fun x => x.write (if x.a.msb then -x.a else x.a)

/-- ABSS (R103, R104). -/
def execAbss (pcell slot : Nat) (s : State) : Out :=
  s.issue pcell slot .abss fun x => x.write (satWord (x.a.toInt.natAbs : Int))

/-- NEG (R103, R104). -/
def execNeg (pcell slot : Nat) (s : State) : Out :=
  s.issue pcell slot .neg fun x => x.write (-x.a)

/-- CLZ (R103, R104): of 0 it is 32. -/
def execClz (pcell slot : Nat) (s : State) : Out :=
  s.issue pcell slot .clz fun x => x.write (leadingZeros x.a)

/-- MOV (R103). -/
def execMov (pcell slot : Nat) (s : State) : Out :=
  s.issue pcell slot .mov fun x => x.write (x.a)

/-- SEXTB (R103). -/
def execSextb (pcell slot : Nat) (s : State) : Out :=
  s.issue pcell slot .sextb fun x => x.write ((x.a.setWidth 8).signExtend 32)

/-- SEXTH (R103). -/
def execSexth (pcell slot : Nat) (s : State) : Out :=
  s.issue pcell slot .sexth fun x => x.write ((x.a.setWidth 16).signExtend 32)

/-- ZEXTB (R103). -/
def execZextb (pcell slot : Nat) (s : State) : Out :=
  s.issue pcell slot .zextb fun x => x.write ((x.a.setWidth 8).setWidth 32)

/-- ZEXTH (R103). -/
def execZexth (pcell slot : Nat) (s : State) : Out :=
  s.issue pcell slot .zexth fun x => x.write ((x.a.setWidth 16).setWidth 32)

/-- MOVI (R102). -/
def execMovi (pcell slot : Nat) (s : State) : Out :=
  s.issue pcell slot .movi fun x => x.write (x.ins.imm)

/-- MOVHI (R102): the immediate in the upper halfword, the lower one kept. -/
def execMovhi (pcell slot : Nat) (s : State) : Out :=
  s.issue pcell slot .movhi fun x =>
    x.write (x.ins.imm <<< 16 ||| (x.s.readReg pcell slot x.t x.ins.rd &&& 0xFFFF))

/-- MOV.S (R101). -/
def execMovS (pcell slot : Nat) (s : State) : Out :=
  s.issue pcell slot .movS fun x => x.write (x.a)

/-- MOVI.S (R101). -/
def execMoviS (pcell slot : Nat) (s : State) : Out :=
  s.issue pcell slot .moviS fun x => x.write (x.ins.imm)

/-- ADD.S (R101). -/
def execAddS (pcell slot : Nat) (s : State) : Out :=
  s.issue pcell slot .addS fun x => x.write (x.a + x.b)

/-- SUB.S (R101). -/
def execSubS (pcell slot : Nat) (s : State) : Out :=
  s.issue pcell slot .subS fun x => x.write (x.a - x.b)

/-- ADDI.S (R101). -/
def execAddiS (pcell slot : Nat) (s : State) : Out :=
  s.issue pcell slot .addiS fun x => x.write (x.a + x.ins.imm)

/-- SUBI.S (R101). -/
def execSubiS (pcell slot : Nat) (s : State) : Out :=
  s.issue pcell slot .subiS fun x => x.write (x.a - x.ins.imm)

/-! ### Multiply and divide (R105 to R108) -/

/-- MUL (R105). -/
def execMul (pcell slot : Nat) (s : State) : Out :=
  s.issue pcell slot .mul fun x => x.multiply (BitVec.ofInt 64 (x.a.toInt * x.b.toInt))

/-- MULU (R105). -/
def execMulu (pcell slot : Nat) (s : State) : Out :=
  s.issue pcell slot .mulu fun x => x.multiply (BitVec.ofNat 64 (x.a.toNat * x.b.toNat))

/-- MACC (R105, R107). -/
def execMacc (pcell slot : Nat) (s : State) : Out :=
  s.issue pcell slot .macc fun x => x.multiply (x.t.acc + BitVec.ofInt 64 (x.a.toInt * x.b.toInt))

/-- MACCS (R105, R107). -/
def execMaccs (pcell slot : Nat) (s : State) : Out :=
  s.issue pcell slot .maccs fun x => x.multiply (sat64 (x.t.acc.toInt + x.a.toInt * x.b.toInt))

/-- DIV (R104, R108). -/
def execDiv (pcell slot : Nat) (s : State) : Out :=
  s.issue pcell slot .div fun x => x.divide (divSigned x.a x.b)

/-- DIVU (R104, R108). -/
def execDivu (pcell slot : Nat) (s : State) : Out :=
  s.issue pcell slot .divu fun x => x.divide (divUnsigned x.a x.b)

/-! ### Branches, jumps and calls (R96, R109) -/

/-- BEQZ.S (R101, R109). -/
def execBeqzS (pcell slot : Nat) (s : State) : Out :=
  s.issue pcell slot .beqzS fun x => x.branch (x.a = 0)

/-- BNEZ.S (R101, R109). -/
def execBnezS (pcell slot : Nat) (s : State) : Out :=
  s.issue pcell slot .bnezS fun x => x.branch (x.a ≠ 0)

/-- BEQ (R109). -/
def execBeq (pcell slot : Nat) (s : State) : Out :=
  s.issue pcell slot .beq fun x => x.branch (x.a = x.b)

/-- BNE (R109). -/
def execBne (pcell slot : Nat) (s : State) : Out :=
  s.issue pcell slot .bne fun x => x.branch (x.a ≠ x.b)

/-- BLT (R109). -/
def execBlt (pcell slot : Nat) (s : State) : Out :=
  s.issue pcell slot .blt fun x => x.branch (x.a.slt x.b)

/-- BGE (R109). -/
def execBge (pcell slot : Nat) (s : State) : Out :=
  s.issue pcell slot .bge fun x => x.branch (!x.a.slt x.b)

/-- BLTU (R109). -/
def execBltu (pcell slot : Nat) (s : State) : Out :=
  s.issue pcell slot .bltu fun x => x.branch (x.a.ult x.b)

/-- BGEU (R109). -/
def execBgeu (pcell slot : Nat) (s : State) : Out :=
  s.issue pcell slot .bgeu fun x => x.branch (!x.a.ult x.b)

/-- BEQZ (R109). -/
def execBeqz (pcell slot : Nat) (s : State) : Out :=
  s.issue pcell slot .beqz fun x => x.branch (x.a = 0)

/-- BNEZ (R109). -/
def execBnez (pcell slot : Nat) (s : State) : Out :=
  s.issue pcell slot .bnez fun x => x.branch (x.a ≠ 0)

/-- BLTZ (R109). -/
def execBltz (pcell slot : Nat) (s : State) : Out :=
  s.issue pcell slot .bltz fun x => x.branch (x.a.slt 0)

/-- BGEZ (R109). -/
def execBgez (pcell slot : Nat) (s : State) : Out :=
  s.issue pcell slot .bgez fun x => x.branch (!x.a.slt 0)

/-- BGTZ (R109). -/
def execBgtz (pcell slot : Nat) (s : State) : Out :=
  s.issue pcell slot .bgtz fun x => x.branch ((0 : Word).slt x.a)

/-- BLEZ (R109). -/
def execBlez (pcell slot : Nat) (s : State) : Out :=
  s.issue pcell slot .blez fun x => x.branch (!(0 : Word).slt x.a)

/-- J (R109). -/
def execJ (pcell slot : Nat) (s : State) : Out :=
  s.issue pcell slot .j fun x => x.jump x.offTarget

/-- JR (R109): LIMIT where the register holds no parcel address. -/
def execJr (pcell slot : Nat) (s : State) : Out :=
  s.issue pcell slot .jr fun x => x.toRegister x.jump

/-- CALL (R96, R109). -/
def execCall (pcell slot : Nat) (s : State) : Out :=
  s.issue pcell slot .call fun x => x.callTo x.offTarget

/-- CALLR (R96, R109). -/
def execCallr (pcell slot : Nat) (s : State) : Out :=
  s.issue pcell slot .callr fun x => x.toRegister x.callTo

/-- RET (R96): LIMIT for a link that no CALL left, WINDOW below the floor. -/
def execRet (pcell slot : Nat) (s : State) : Out :=
  s.issue pcell slot .ret fun x =>
    let sh := fld x.t.lk 19 14
    if fld x.t.lk 31 20 ≠ 0 ∨ sh < 8 then x.trap .limit x.t.lk
    else if x.t.b.toNat < x.t.f.toNat + sh then x.trap .window (x.t.b.setWidth 32)
    else
      let x := { x with t := { x.t with
        b := x.t.b - BitVec.ofNat 14 sh, depth := x.t.depth - 1 } }
      x.jump (BitVec.ofNat 14 (fld x.t.lk 13 0))

/-! ### Ends, traps and control (R128, R134 to R136) -/

/-- NOP (R102). -/
def execNop (pcell slot : Nat) (s : State) : Out :=
  s.issue pcell slot .nop fun x => x.next

/-- END (R128): the strand ends. -/
def execEndStrand (pcell slot : Nat) (s : State) : Out :=
  s.issue pcell slot .endStrand fun x => x.s.endStrand x.pcell x.t

/-- ENDR (R128): the strand ends and its activation is complete. -/
def execEndr (pcell slot : Nat) (s : State) : Out :=
  s.issue pcell slot .endr fun x => x.endActivation

/-- BRK (R136): in an attached partition the strand stops before it, else it is a NOP; after a RESUME
or a STEP the strand passes it (R488). -/
def execBrk (pcell slot : Nat) (s : State) : Out :=
  s.issue pcell slot .brk fun x =>
    if x.t.dying then (x.s.dropStrand pcell x.t.flushMul).frameCheck pcell x.t.flow x.t.iteration
    else if x.s.attachedCell pcell ∧ ¬ x.t.passBrk then x.s.debugHold pcell slot x.t.flushMul
    else
      let t := { x.t.flushMul with passBrk := false, wait := .nothing }
      let u := { t with stepping := t.stepping && !x.t.passBrk }.advance x.ins.len none
      let s := x.s.settleStrand pcell slot u false
      let s := s.modCell pcell (fun c => { c with
        slots := c.slots.map (fun e => if e.2.uid = t.uid then
          (e.1, { e.2 with stepping := t.stepping }) else e) })
      s.pass pcell slot

/-- FENCEI (R134): earlier STIs are complete; every later instruction executes as written. -/
def execFencei (pcell slot : Nat) (s : State) : Out :=
  s.issue pcell slot .fencei fun x => { x with t := { x.t with stiWins := [] } }.next

/-- TRAP (R135, R160), with code imm10. -/
def execTrap (pcell slot : Nat) (s : State) : Out :=
  s.issue pcell slot .trap fun x => x.trap .trap 0 false (fld x.ins.imm 9 0)

/-! ### Repeats (R110, R111, R113) -/

/-- REP (R111), with the count in the instruction or in a register. -/
def execRep (pcell slot : Nat) (s : State) : Out :=
  s.issue pcell slot .rep fun x => x.startRepeat false

/-- REPU (R111, R113). -/
def execRepu (pcell slot : Nat) (s : State) : Out :=
  s.issue pcell slot .repu fun x => x.startRepeat true

end Sys2Proof.Machine
end

