-- ==== Sys2Proof/Machine/Service.lean ====
section
/-! DEFINITION. The service port (R463 to R467, R507): its frames as commands, its session, and its answers. -/

namespace Sys2Proof.Machine

/-! ### Frames and answers (R464) -/

/-- The service port serves a frame: the host domain is out of reset, and the port is connected. -/
def State.svcLive (s : State) : Bool := s.mode.hostRst && s.hor.svc.conn

/-- The service port's session is changed. -/
def State.modSvc (s : State) (f : Service → Service) : State :=
  { s with hor := { s.hor with svc := f s.hor.svc } }

/-- A frame is answered: its seq, cmd + 0x80, the status and the payload. -/
def State.svcAnswer (s : State) (seq cmd : Byte) (status : Nat) (payload : List Byte) : State :=
  s.modSvc (fun v => { v with
    answers := v.answers ++ [svcLine seq (cmd + 0x80) (BitVec.ofNat 8 status :: payload)] })

/-- A service command whose level does not exceed the session's runs; another is answered REFUSED. -/
def State.service (s : State) (seq cmd : Byte) (level : Nat) (f : State → Nat × List Byte × State) : Out :=
  .next <|
    if ¬ s.svcLive then s
    else if s.hor.svc.level.toNat < level then s.svcAnswer seq cmd stRefused []
    else
      let (st, bs, t) := f s
      t.svcAnswer seq cmd st bs

/-- A service command that reaches the field side is answered TIMEOUT where that does not answer (R467). -/
def State.onField (f : State → Nat × List Byte × State) (s : State) : Nat × List Byte × State :=
  if s.fieldAnswers then f s else (stTimeout, [], s)

/-- An answer of the command engine as a service frame carries it. -/
def Answer.frame (r : Answer × State) : Nat × List Byte × State := (r.1.status, r.1.data, r.2)

/-! ### Connection and session (R463, R466, R467) -/

/-- The names that the connection line gives the variant and the mode (R463, R474). -/
def Variant.name : Variant → List Byte
  | .ltm7256 => ascii "LTM7256-E"
  | .ltm7128 => ascii "LTM7128-E"
  | .ltm7064 => ascii "LTM7064-E"

def Mode.name : Mode → List Byte
  | .reset => ascii "RESET"
  | .test => ascii "TEST"
  | .link => ascii "LINK"
  | .load => ascii "LOAD"
  | .run => ascii "RUN"
  | .degraded => ascii "DEGRADED"
  | .halt => ascii "HALT"
  | .safe => ascii "SAFE"

/-- The connection line (R463, R498): variant, serial number, device number and mode. A module that has no device number
leaves it out (DESIGN CHOICE: log entry 159). -/
def State.connectLine (s : State) : List Byte :=
  ascii "TARGIFEL " ++ Variant.name s.variant ++ ascii " SN " ++ serialText Config.serial.toNat
    ++ (if s.regF aLnkDev 6 6 = 1 then ascii " DEV " ++ decText s.device else [])
    ++ ascii " MODE " ++ Mode.name s.mode.mode ++ [13, 10]

/-- USB_CONNECT (R463): the identification line is sent. A port that is not enabled stays detached. -/
def execUsbConnect (s : State) : Out :=
  .next <|
    if ¬ s.mode.hostRst ∨ s.regF aSvcCtrl 0 0 = 0 ∨ s.hor.svc.conn then s
    else s.modSvc (fun v => { v with conn := true, line := some s.connectLine })

/-- USB_DISCONNECT (R467). -/
def execUsbDisconnect (s : State) : Out := .next (if s.svcLive then s.detachUsb else s)

/-- SESSION_TIMEOUT (R467): 15 minutes have passed without a frame. -/
def execSessionTimeout (s : State) : Out := .next (if s.svcLive then s.endSession else s)

/-- LOCKOUT_END (R466). -/
def execLockoutEnd (s : State) : Out :=
  .next (if s.hor.svc.lockout then s.modSvc (fun v => { v with lockout := false, streak := 0 }) else s)

/-- LOGOUT (R465, R467). -/
def execLogout (seq : Byte) (s : State) : Out := s.service seq 0x04 0 fun s => (stOk, [], s.endSession)

/-! ### IDENT (R465, R480) -/

/-- The version word of the image in a slot. -/
def State.imageVersion (s : State) (b : Bool) : Word := (s.slotImage b).word 16

/-- The payload of IDENT (R465, R498): variant, serial number as it is printed, image versions, active slot, device number,
mode, zenith state. -/
def State.identity (s : State) : List Byte :=
  BitVec.ofNat 8 s.variant.bit :: (serialText Config.serial.toNat ++ leBytes 4 (s.imageVersion false).toNat
    ++ leBytes 4 (s.imageVersion true).toNat
    ++ [BitVec.ofNat 8 (b2n s.mode.activeB), BitVec.ofNat 8 s.device, BitVec.ofNat 8 s.mode.mode.code,
        BitVec.ofNat 8 s.zen.state.code])

/-- IDENT (R465). The image versions lie on the field side. -/
def execIdent (seq : Byte) (s : State) : Out :=
  s.service seq 0x01 0 (State.onField fun s => (stOk, s.identity, s))

/-! ### CHALLENGE and AUTH (R465, R466) -/

/-- CHALLENGE (R465, R466): a fresh nonce, which becomes the latest; refused during the lockout. -/
def execChallenge (seq : Byte) (s : State) : Out :=
  s.service seq 0x02 0 fun s =>
    if s.hor.svc.lockout then (stRefused, [], s)
    else
      let (i, s) := s.takeFresh
      let n := Config.nonce i
      (stOk, leBytes 16 n.toNat, s.modSvc (fun v => { v with nonce := some n }))

/-- Bytes 0 to 80 of the AUTH payload. -/
def authHead (p : AuthPayload) : List Byte :=
  digestBytes p.key ++ p.rights :: (leBytes 8 p.expiry.toNat ++ leBytes 8 p.serial.toNat ++ digestBytes p.signer)

/-- The expiry is none, or zenith is LOCKED or HOLDOVER and its count is below it. -/
def State.notExpired (s : State) (expiry : Nat) : Bool :=
  expiry == 0 || (!s.isLocal && decide (s.zen.count < expiry))

/-- The conditions of AUTH hold. -/
def State.authOk (s : State) (p : AuthPayload) : Bool :=
  match s.hor.svc.nonce with
  | none => false
  | some n =>
    (s.verify 1 p.signer (digestBytes (sha256 (authHead p))) p.signerSig).result == 1
      && Config.ed25519 p.key
        (digestBytes (sha256 (leBytes 16 n.toNat ++ leBytes 8 Config.serial.toNat))) p.ownSig
      && (p.serial == 0 || p.serial == Config.serial) && s.notExpired p.expiry.toNat

/-- A failed AUTH: SVC_AUTH, level 0, and after three in a row the lockout. -/
def State.authFailed (s : State) : State :=
  let s := (s.relayFree srcSvcAuth).addRegF aSvcStat 15 8 1
  s.modSvc (fun v => { v with
    level := 0, streak := v.streak + 1, lockout := v.lockout || decide (3 ≤ v.streak + 1) })

/-- AUTH (R466). The nonce is used by it. The status of a failed one is not stated: any but OK. -/
def execAuth (seq : Byte) (p : AuthPayload) (s : State) : Out :=
  s.service seq 0x03 0 fun s =>
    if p.rights = 0 ∨ 2 < p.rights.toNat then (stBadArg, [], s)
    else
      let ok := s.authOk p
      let s := s.modSvc (fun v => { v with nonce := none })
      if ok then
        (stOk, [p.rights], s.modSvc (fun v => { v with level := p.rights.setWidth 2, streak := 0 }))
      else
        let (i, s) := s.authFailed.takeFresh
        (1 + (Config.freeWord i).toNat % 7, [0], s)

/-! ### Reading (R376, R465, R507) -/

/-- The fault-log entry with a number, where its crc is good. -/
def State.logEntry (s : State) (seq : BitVec 16) : Option (List Byte) :=
  let (base, cap) := s.variant.faultLog
  let used := ((s.mem.mram.filter (fun c => base ≤ c.1 ∧ c.1 < base + cap * 32)).map
    (fun c => (c.1 - base) / 32)).eraseDups
  (used.map (fun i => mread s.mem.mram (base + i * 32) 32)).find? (fun bs =>
    decide (leNat (bs.drop 30) = (crc16 (bs.take 30)).toNat)
      && decide (BitVec.ofNat 16 (leNat ((bs.drop 22).take 2)) = seq))

/-- LOGREAD (R465): the entries of 1 to 7 numbers from the first. -/
def execLogread (seq : Byte) (first : BitVec 16) (count : Nat) (s : State) : Out :=
  s.service seq 0x10 1 fun s =>
    if count = 0 ∨ 7 < count then (stBadArg, [], s)
    else State.onField (fun s =>
      (stOk, ((upTo count).filterMap (fun k => s.logEntry (first + BitVec.ofNat 16 k))).flatten, s)) s

/-- Consecutive registers are read; a run that meets an error stops there with its status (R507). -/
def State.readRun : Nat → State → Nat → List Byte → Nat × List Byte × State
  | 0, s, _, acc => (stOk, acc, s)
  | n + 1, s, a, acc =>
    match s.hostAccess a none with
    | none => (stTimeout, acc, s)
    | some (st, v, t) =>
      if st = stOk then State.readRun n t (a + 4) (acc ++ leBytes 4 v.toNat) else (st, acc, t)

/-- REGREAD (R465, R507): 1 to 32 registers. -/
def execRegread (seq : Byte) (addr : BitVec 24) (count : Nat) (s : State) : Out :=
  s.service seq 0x11 1 fun s =>
    if count = 0 ∨ 32 < count then (stBadArg, [], s) else s.readRun count addr.toNat []

/-! ### Maintenance (R465, R469, R472) -/

/-- The service command SELFTEST (R465). -/
def execSvcSelftest (seq : Byte) (r : TestOutcome) (s : State) : Out :=
  s.service seq 0x20 2 (State.onField fun s =>
    let a := s.selfTest r
    (a.1.status, if a.1.status = stOk then leBytes 4 a.1.result.toNat else [], a.2))

/-- An image command of the service port: refused while SVC_CTRL.img is 0. -/
def State.svcImage (s : State) (seq cmd : Byte) (f : State → Nat × List Byte × State) : Out :=
  s.service seq cmd 2 fun s => if s.regF aSvcCtrl 1 1 = 0 then (stRefused, [], s) else State.onField f s

/-- IMG_BEGIN (R465). -/
def execImgBegin (seq : Byte) (len : Word) (s : State) : Out :=
  s.svcImage seq 0x30 fun s =>
    let r := s.imageOpen true len.toNat
    (r.1, [], r.2)

/-- IMG_BLOCK (R465): up to 224 bytes. -/
def execImgBlock (seq : Byte) (off : Word) (bytes : List Byte) (s : State) : Out :=
  s.svcImage seq 0x31 fun s =>
    if bytes = [] ∨ 224 < bytes.length then (stBadArg, [], s)
    else
      let r := s.imagePut true off.toNat bytes
      (r.1, [], r.2)

/-- IMG_END (R465). -/
def execImgEnd (seq : Byte) (s : State) : Out := s.svcImage seq 0x32 fun s => Answer.frame (s.imageClose true)

/-- The level that KEY_PROG needs: none while no key slot is programmed. -/
def State.keyLevel (s : State) : Nat := if (upTo 4).all (fun i => !(s.key i).prog) then 0 else 2

/-- KEY_PROG (R465, R472). -/
def execKeyProg (seq : Byte) (slot usage : BitVec 2) (digest : BitVec 256) (authz : SigBlock) (readBackOk : Bool)
    (s : State) : Out :=
  s.service seq 0x40 s.keyLevel fun s =>
    let r := s.programKey { slot := slot.toNat, usage := usage.toNat, digest, authz := some authz } readBackOk
    (r.1, [], r.2)

end Sys2Proof.Machine
end

