-- ==== Sys2Proof/Machine/Dispatch.lean ====
section
/-! DEFINITION. One arm per command: the meaning that the manual gives it. -/

namespace Sys2Proof.Machine

def exec (i : Instr) (s : State) : Host.Outcome State Fault Refusal :=
  match i with
  | .fieldRstNLow => Sys2Proof.Machine.execFieldRstNLow s
  | .fieldRstNHigh => Sys2Proof.Machine.execFieldRstNHigh s
  | .hostRstNLow => Sys2Proof.Machine.execHostRstNLow s
  | .hostRstNHigh => Sys2Proof.Machine.execHostRstNHigh s
  | .testEntry => Sys2Proof.Machine.execTestEntry s
  | .testComplete r => Sys2Proof.Machine.execTestComplete r s
  | .standaloneTimeout => Sys2Proof.Machine.execStandaloneTimeout s
  | .verifyDone => Sys2Proof.Machine.execVerifyDone s
  | .checkDone => Sys2Proof.Machine.execCheckDone s
  | .writeDone badStations => Sys2Proof.Machine.execWriteDone badStations s
  | .loadCommand o => Sys2Proof.Machine.execLoadCommand o s
  | .runCommand o => Sys2Proof.Machine.execRunCommand o s
  | .safeCommand o => Sys2Proof.Machine.execSafeCommand o s
  | .retestCommand o => Sys2Proof.Machine.execRetestCommand o s
  | .commit o => Sys2Proof.Machine.execCommit o s
  | .modeBootWrite v => Sys2Proof.Machine.execModeBootWrite v s
  | .attach => Sys2Proof.Machine.execAttach s
  | .detach => Sys2Proof.Machine.execDetach s
  | .haltAction => Sys2Proof.Machine.execHaltAction s
  | .resume => Sys2Proof.Machine.execResume s
  | .step => Sys2Proof.Machine.execStep s
  | .supplyExcursion r x => Sys2Proof.Machine.execSupplyExcursion r x s
  | .temperatureThreshold t => Sys2Proof.Machine.execTemperatureThreshold t s
  | .pllUnlock cloud => Sys2Proof.Machine.execPllUnlock cloud s
  | .referenceLoss => Sys2Proof.Machine.execReferenceLoss s
  | .faultReport r => Sys2Proof.Machine.execFaultReport r s
  | .brokenWire w => Sys2Proof.Machine.execBrokenWire w s
  | .fltPendWrite idx v => Sys2Proof.Machine.execFltPendWrite idx v s
  | .fltRecInfoWrite c v => Sys2Proof.Machine.execFltRecInfoWrite c v s
  | .fltSrcWrite n v => Sys2Proof.Machine.execFltSrcWrite n v s
  | .fltClearCounts => Sys2Proof.Machine.execFltClearCounts s
  | .restart p => Sys2Proof.Machine.execRestart p s
  | .faultNReadback => Sys2Proof.Machine.execFaultNReadback s
  | .timeMarker => Sys2Proof.Machine.execTimeMarker s
  | .syncResult => Sys2Proof.Machine.execSyncResult s
  | .syncTimeout => Sys2Proof.Machine.execSyncTimeout s
  | .holdoverExpiry => Sys2Proof.Machine.execHoldoverExpiry s
  | .zenCmdSet => Sys2Proof.Machine.execZenCmdSet s
  | .zenCmdStep => Sys2Proof.Machine.execZenCmdStep s
  | .discEnWrite v => Sys2Proof.Machine.execDiscEnWrite v s
  | .zenNowloRead => Sys2Proof.Machine.execZenNowloRead s
  | .timerTick n => Sys2Proof.Machine.execTimerTick n s
  | .sync m arrival departs => Sys2Proof.Machine.execSync m arrival departs s
  | .followUp m => Sys2Proof.Machine.execFollowUp m s
  | .delayReqSend departure => Sys2Proof.Machine.execDelayReqSend departure s
  | .delayReq port m b c => Sys2Proof.Machine.execDelayReq port m b c s
  | .delayResp m arrival => Sys2Proof.Machine.execDelayResp m arrival s
  | .captureEdge pin rising edge => Sys2Proof.Machine.execCaptureEdge pin rising edge s
  | .quadratureStep pin a b time => Sys2Proof.Machine.execQuadratureStep pin a b time s
  | .releaseToken => Sys2Proof.Machine.execReleaseToken s
  | .low pin => Sys2Proof.Machine.execLow pin s
  | .high pin => Sys2Proof.Machine.execHigh pin s
  | .toggle pin => Sys2Proof.Machine.execToggle pin s
  | .hiz pin => Sys2Proof.Machine.execHiz pin s
  | .pulse pin => Sys2Proof.Machine.execPulse pin s
  | .pulseEnd pin => Sys2Proof.Machine.execPulseEnd pin s
  | .duty pin => Sys2Proof.Machine.execDuty pin s
  | .pwmPeriodStart pin => Sys2Proof.Machine.execPwmPeriodStart pin s
  | .txb port => Sys2Proof.Machine.execTxb port s
  | .txh port => Sys2Proof.Machine.execTxh port s
  | .txend port => Sys2Proof.Machine.execTxend port s
  | .i2cStart port => Sys2Proof.Machine.execI2cStart port s
  | .readbackMismatch pin => Sys2Proof.Machine.execReadbackMismatch pin s
  | .tioCfgWrite pin v => Sys2Proof.Machine.execTioCfgWrite pin v s
  | .uartRxByte port b err brk => Sys2Proof.Machine.execUartRxByte port b err brk s
  | .frameEnd port e => Sys2Proof.Machine.execFrameEnd port e s
  | .txUnderrun port => Sys2Proof.Machine.execTxUnderrun port s
  | .deOff port => Sys2Proof.Machine.execDeOff port s
  | .i2cNack port => Sys2Proof.Machine.execI2cNack port s
  | .clockStretchTimeout port => Sys2Proof.Machine.execClockStretchTimeout port s
  | .echoMismatch port => Sys2Proof.Machine.execEchoMismatch port s
  | .barrierMessage toField ok => Sys2Proof.Machine.execBarrierMessage toField ok s
  | .barrierLaneLoss => Sys2Proof.Machine.execBarrierLaneLoss s
  | .heartbeatMissing => Sys2Proof.Machine.execHeartbeatMissing s
  | .setUpAccess addr write o => Sys2Proof.Machine.execSetUpAccess addr write o s
  | .frameReceive port body crc => Sys2Proof.Machine.execFrameReceive port body crc s
  | .replayRequest port seq => Sys2Proof.Machine.execReplayRequest port seq s
  | .errorRateCheck port => Sys2Proof.Machine.execErrorRateCheck port s
  | .portDown port => Sys2Proof.Machine.execPortDown port s
  | .trainingTimeout port => Sys2Proof.Machine.execTrainingTimeout port s
  | .electricalDetect port => Sys2Proof.Machine.execElectricalDetect port s
  | .laneLock port inverted => Sys2Proof.Machine.execLaneLock port inverted s
  | .laneDeskew port => Sys2Proof.Machine.execLaneDeskew port s
  | .rateNegotiation port partner => Sys2Proof.Machine.execRateNegotiation port partner s
  | .transmitEqualisation port margins => Sys2Proof.Machine.execTransmitEqualisation port margins s
  | .version port hi lo => Sys2Proof.Machine.execVersion port hi lo s
  | .enum n depth count => Sys2Proof.Machine.execEnum n depth count s
  | .enumRsp port used => Sys2Proof.Machine.execEnumRsp port used s
  | .delayCalibration => Sys2Proof.Machine.execDelayCalibration s
  | .regRd addr => Sys2Proof.Machine.execRegRd addr s
  | .regWr addr v => Sys2Proof.Machine.execRegWr addr v s
  | .doorbell bitmap => Sys2Proof.Machine.execDoorbell bitmap s
  | .pollTimer => Sys2Proof.Machine.execPollTimer s
  | .memCpl part => Sys2Proof.Machine.execMemCpl part s
  | .ringCfgEnWrite ring v => Sys2Proof.Machine.execRingCfgEnWrite ring v s
  | .notify ring => Sys2Proof.Machine.execNotify ring s
  | .completionWrite => Sys2Proof.Machine.execCompletionWrite s
  | .setupRead => Sys2Proof.Machine.execSetupRead s
  | .setupWrite => Sys2Proof.Machine.execSetupWrite s
  | .imageBegin => Sys2Proof.Machine.execImageBegin s
  | .imageBlock => Sys2Proof.Machine.execImageBlock s
  | .imageEnd => Sys2Proof.Machine.execImageEnd s
  | .imageStage => Sys2Proof.Machine.execImageStage s
  | .imageSequenceTimeout => Sys2Proof.Machine.execImageSequenceTimeout s
  | .memRead => Sys2Proof.Machine.execMemRead s
  | .memWrite => Sys2Proof.Machine.execMemWrite s
  | .setView => Sys2Proof.Machine.execSetView s
  | .keyView => Sys2Proof.Machine.execKeyView s
  | .slotView => Sys2Proof.Machine.execSlotView s
  | .selftest r => Sys2Proof.Machine.execSelftest r s
  | .keyProgram readBackOk => Sys2Proof.Machine.execKeyProgram readBackOk s
  | .injectEntry => Sys2Proof.Machine.execInjectEntry s
  | .extractToken => Sys2Proof.Machine.execExtractToken s
  | .extractDrop => Sys2Proof.Machine.execExtractDrop s
  | .usbConnect => Sys2Proof.Machine.execUsbConnect s
  | .usbDisconnect => Sys2Proof.Machine.execUsbDisconnect s
  | .sessionTimeout => Sys2Proof.Machine.execSessionTimeout s
  | .lockoutEnd => Sys2Proof.Machine.execLockoutEnd s
  | .ident seq => Sys2Proof.Machine.execIdent seq s
  | .challenge seq => Sys2Proof.Machine.execChallenge seq s
  | .auth seq p => Sys2Proof.Machine.execAuth seq p s
  | .logout seq => Sys2Proof.Machine.execLogout seq s
  | .logread seq first count => Sys2Proof.Machine.execLogread seq first count s
  | .regread seq addr count => Sys2Proof.Machine.execRegread seq addr count s
  | .svcSelftest seq r => Sys2Proof.Machine.execSvcSelftest seq r s
  | .imgBegin seq len => Sys2Proof.Machine.execImgBegin seq len s
  | .imgBlock seq off bytes => Sys2Proof.Machine.execImgBlock seq off bytes s
  | .imgEnd seq => Sys2Proof.Machine.execImgEnd seq s
  | .keyProg seq slot usage digest authz readBackOk => Sys2Proof.Machine.execKeyProg seq slot usage digest authz readBackOk s
  | .tokenAccept pcell ecc => Sys2Proof.Machine.execTokenAccept pcell ecc s
  | .latchSweep pcell => Sys2Proof.Machine.execLatchSweep pcell s
  | .prefetchMessage pcell => Sys2Proof.Machine.execPrefetchMessage pcell s
  | .preMatchedActivation pcell => Sys2Proof.Machine.execPreMatchedActivation pcell s
  | .agerVisit pcell ecc => Sys2Proof.Machine.execAgerVisit pcell ecc s
  | .spillAger cloud level => Sys2Proof.Machine.execSpillAger cloud level s
  | .purge at_ => Sys2Proof.Machine.execPurge at_ s
  | .strandStart pcell => Sys2Proof.Machine.execStrandStart pcell s
  | .preemption pcell => Sys2Proof.Machine.execPreemption pcell s
  | .strandResume pcell => Sys2Proof.Machine.execStrandResume pcell s
  | .divideComplete pcell slot => Sys2Proof.Machine.execDivideComplete pcell slot s
  | .responseArrival pcell => Sys2Proof.Machine.execResponseArrival pcell s
  | .lockGrant pcell => Sys2Proof.Machine.execLockGrant pcell s
  | .iterGrantMessage pcell => Sys2Proof.Machine.execIterGrantMessage pcell s
  | .boostApply pcell => Sys2Proof.Machine.execBoostApply pcell s
  | .pairAck pcell => Sys2Proof.Machine.execPairAck pcell s
  | .add pcell slot => Sys2Proof.Machine.execAdd pcell slot s
  | .sub pcell slot => Sys2Proof.Machine.execSub pcell slot s
  | .addi pcell slot => Sys2Proof.Machine.execAddi pcell slot s
  | .adds pcell slot => Sys2Proof.Machine.execAdds pcell slot s
  | .subs pcell slot => Sys2Proof.Machine.execSubs pcell slot s
  | .and pcell slot => Sys2Proof.Machine.execAnd pcell slot s
  | .or pcell slot => Sys2Proof.Machine.execOr pcell slot s
  | .xor pcell slot => Sys2Proof.Machine.execXor pcell slot s
  | .andi pcell slot => Sys2Proof.Machine.execAndi pcell slot s
  | .ori pcell slot => Sys2Proof.Machine.execOri pcell slot s
  | .xori pcell slot => Sys2Proof.Machine.execXori pcell slot s
  | .not pcell slot => Sys2Proof.Machine.execNot pcell slot s
  | .shl pcell slot => Sys2Proof.Machine.execShl pcell slot s
  | .shr pcell slot => Sys2Proof.Machine.execShr pcell slot s
  | .sar pcell slot => Sys2Proof.Machine.execSar pcell slot s
  | .shli pcell slot => Sys2Proof.Machine.execShli pcell slot s
  | .shri pcell slot => Sys2Proof.Machine.execShri pcell slot s
  | .sari pcell slot => Sys2Proof.Machine.execSari pcell slot s
  | .rol pcell slot => Sys2Proof.Machine.execRol pcell slot s
  | .ror pcell slot => Sys2Proof.Machine.execRor pcell slot s
  | .slt pcell slot => Sys2Proof.Machine.execSlt pcell slot s
  | .sltu pcell slot => Sys2Proof.Machine.execSltu pcell slot s
  | .slti pcell slot => Sys2Proof.Machine.execSlti pcell slot s
  | .min pcell slot => Sys2Proof.Machine.execMin pcell slot s
  | .max pcell slot => Sys2Proof.Machine.execMax pcell slot s
  | .minu pcell slot => Sys2Proof.Machine.execMinu pcell slot s
  | .maxu pcell slot => Sys2Proof.Machine.execMaxu pcell slot s
  | .abs pcell slot => Sys2Proof.Machine.execAbs pcell slot s
  | .abss pcell slot => Sys2Proof.Machine.execAbss pcell slot s
  | .neg pcell slot => Sys2Proof.Machine.execNeg pcell slot s
  | .clz pcell slot => Sys2Proof.Machine.execClz pcell slot s
  | .mov pcell slot => Sys2Proof.Machine.execMov pcell slot s
  | .sextb pcell slot => Sys2Proof.Machine.execSextb pcell slot s
  | .sexth pcell slot => Sys2Proof.Machine.execSexth pcell slot s
  | .zextb pcell slot => Sys2Proof.Machine.execZextb pcell slot s
  | .zexth pcell slot => Sys2Proof.Machine.execZexth pcell slot s
  | .movi pcell slot => Sys2Proof.Machine.execMovi pcell slot s
  | .movhi pcell slot => Sys2Proof.Machine.execMovhi pcell slot s
  | .movS pcell slot => Sys2Proof.Machine.execMovS pcell slot s
  | .moviS pcell slot => Sys2Proof.Machine.execMoviS pcell slot s
  | .addS pcell slot => Sys2Proof.Machine.execAddS pcell slot s
  | .subS pcell slot => Sys2Proof.Machine.execSubS pcell slot s
  | .addiS pcell slot => Sys2Proof.Machine.execAddiS pcell slot s
  | .subiS pcell slot => Sys2Proof.Machine.execSubiS pcell slot s
  | .beqzS pcell slot => Sys2Proof.Machine.execBeqzS pcell slot s
  | .bnezS pcell slot => Sys2Proof.Machine.execBnezS pcell slot s
  | .sendS pcell slot => Sys2Proof.Machine.execSendS pcell slot s
  | .mul pcell slot => Sys2Proof.Machine.execMul pcell slot s
  | .mulu pcell slot => Sys2Proof.Machine.execMulu pcell slot s
  | .macc pcell slot => Sys2Proof.Machine.execMacc pcell slot s
  | .maccs pcell slot => Sys2Proof.Machine.execMaccs pcell slot s
  | .div pcell slot => Sys2Proof.Machine.execDiv pcell slot s
  | .divu pcell slot => Sys2Proof.Machine.execDivu pcell slot s
  | .beq pcell slot => Sys2Proof.Machine.execBeq pcell slot s
  | .bne pcell slot => Sys2Proof.Machine.execBne pcell slot s
  | .blt pcell slot => Sys2Proof.Machine.execBlt pcell slot s
  | .bge pcell slot => Sys2Proof.Machine.execBge pcell slot s
  | .bltu pcell slot => Sys2Proof.Machine.execBltu pcell slot s
  | .bgeu pcell slot => Sys2Proof.Machine.execBgeu pcell slot s
  | .beqz pcell slot => Sys2Proof.Machine.execBeqz pcell slot s
  | .bnez pcell slot => Sys2Proof.Machine.execBnez pcell slot s
  | .bltz pcell slot => Sys2Proof.Machine.execBltz pcell slot s
  | .bgez pcell slot => Sys2Proof.Machine.execBgez pcell slot s
  | .bgtz pcell slot => Sys2Proof.Machine.execBgtz pcell slot s
  | .blez pcell slot => Sys2Proof.Machine.execBlez pcell slot s
  | .j pcell slot => Sys2Proof.Machine.execJ pcell slot s
  | .jr pcell slot => Sys2Proof.Machine.execJr pcell slot s
  | .call pcell slot => Sys2Proof.Machine.execCall pcell slot s
  | .callr pcell slot => Sys2Proof.Machine.execCallr pcell slot s
  | .ret pcell slot => Sys2Proof.Machine.execRet pcell slot s
  | .nop pcell slot => Sys2Proof.Machine.execNop pcell slot s
  | .endStrand pcell slot => Sys2Proof.Machine.execEndStrand pcell slot s
  | .endr pcell slot => Sys2Proof.Machine.execEndr pcell slot s
  | .brk pcell slot => Sys2Proof.Machine.execBrk pcell slot s
  | .fencei pcell slot => Sys2Proof.Machine.execFencei pcell slot s
  | .trap pcell slot => Sys2Proof.Machine.execTrap pcell slot s
  | .rep pcell slot => Sys2Proof.Machine.execRep pcell slot s
  | .repu pcell slot => Sys2Proof.Machine.execRepu pcell slot s
  | .ldw pcell slot => Sys2Proof.Machine.execLdw pcell slot s
  | .ldh pcell slot => Sys2Proof.Machine.execLdh pcell slot s
  | .ldhu pcell slot => Sys2Proof.Machine.execLdhu pcell slot s
  | .ldb pcell slot => Sys2Proof.Machine.execLdb pcell slot s
  | .ldbu pcell slot => Sys2Proof.Machine.execLdbu pcell slot s
  | .ldd pcell slot => Sys2Proof.Machine.execLdd pcell slot s
  | .stw pcell slot => Sys2Proof.Machine.execStw pcell slot s
  | .sth pcell slot => Sys2Proof.Machine.execSth pcell slot s
  | .stb pcell slot => Sys2Proof.Machine.execStb pcell slot s
  | .std pcell slot => Sys2Proof.Machine.execStd pcell slot s
  | .swp pcell slot => Sys2Proof.Machine.execSwp pcell slot s
  | .lck pcell slot => Sys2Proof.Machine.execLck pcell slot s
  | .tlck pcell slot => Sys2Proof.Machine.execTlck pcell slot s
  | .unl pcell slot => Sys2Proof.Machine.execUnl pcell slot s
  | .sti pcell slot => Sys2Proof.Machine.execSti pcell slot s
  | .stiH pcell slot => Sys2Proof.Machine.execStiH pcell slot s
  | .stiW pcell slot => Sys2Proof.Machine.execStiW pcell slot s
  | .stiWh pcell slot => Sys2Proof.Machine.execStiWh pcell slot s
  | .send pcell slot => Sys2Proof.Machine.execSend pcell slot s
  | .sendc pcell slot => Sys2Proof.Machine.execSendc pcell slot s
  | .sendcn pcell slot => Sys2Proof.Machine.execSendcn pcell slot s
  | .sendx pcell slot => Sys2Proof.Machine.execSendx pcell slot s
  | .sendt pcell slot => Sys2Proof.Machine.execSendt pcell slot s
  | .evs pcell slot => Sys2Proof.Machine.execEvs pcell slot s
  | .iter pcell slot => Sys2Proof.Machine.execIter pcell slot s
  | .spill at_ => Sys2Proof.Machine.execSpill at_ s
  | .recall cloud => Sys2Proof.Machine.execRecall cloud s
  | .fetch cloud => Sys2Proof.Machine.execFetch cloud s
  | .count pcell => Sys2Proof.Machine.execCount pcell s
  | .sweep cloud => Sys2Proof.Machine.execSweep cloud s
  | .enginePurge cloud => Sys2Proof.Machine.execEnginePurge cloud s
  | .flush cloud => Sys2Proof.Machine.execFlush cloud s
  | .evict pcell => Sys2Proof.Machine.execEvict pcell s
  | .moveEntry old new index => Sys2Proof.Machine.execMoveEntry old new index s
  | .moveSpill lid level index => Sys2Proof.Machine.execMoveSpill lid level index s
  | .moveState old new part off => Sys2Proof.Machine.execMoveState old new part off s
  | .moveDone old new => Sys2Proof.Machine.execMoveDone old new s
  | .copyBlock pcell istore off heads bytes => Sys2Proof.Machine.execCopyBlock pcell istore off heads bytes s
  | .readBlock pcell istore off => Sys2Proof.Machine.execReadBlock pcell istore off s
  | .viewSet pcell set pair => Sys2Proof.Machine.execViewSet pcell set pair s
  | .viewKey pcell flow iteration addr => Sys2Proof.Machine.execViewKey pcell flow iteration addr s
  | .viewSpill cloud cell flow iteration addr => Sys2Proof.Machine.execViewSpill cloud cell flow iteration addr s
  | .viewSlot pcell pair => Sys2Proof.Machine.execViewSlot pcell pair s
  | .dbgWrite pcell target rb where_ v head => Sys2Proof.Machine.execDbgWrite pcell target rb where_ v head s
  | .dbgCtrl pcell rb op => Sys2Proof.Machine.execDbgCtrl pcell rb op s
  | .setupRd addr => Sys2Proof.Machine.execSetupRd addr s
  | .setupWr addr v => Sys2Proof.Machine.execSetupWr addr v s
  | .bankLoad bank ecc => Sys2Proof.Machine.execBankLoad bank ecc s
  | .bankStore bank ecc => Sys2Proof.Machine.execBankStore bank ecc s
  | .blockLoad bank ecc => Sys2Proof.Machine.execBlockLoad bank ecc s
  | .blockStore bank => Sys2Proof.Machine.execBlockStore bank s
  | .setAliasStore bank ecc => Sys2Proof.Machine.execSetAliasStore bank ecc s
  | .clearAliasStore bank ecc => Sys2Proof.Machine.execClearAliasStore bank ecc s
  | .bankSwp bank ecc => Sys2Proof.Machine.execBankSwp bank ecc s
  | .bankLck bank ecc => Sys2Proof.Machine.execBankLck bank ecc s
  | .bankTlck at_ => Sys2Proof.Machine.execBankTlck at_ s
  | .bankUnl at_ => Sys2Proof.Machine.execBankUnl at_ s
  | .releaseAbandoned at_ => Sys2Proof.Machine.execReleaseAbandoned at_ s
  | .cancelWait at_ => Sys2Proof.Machine.execCancelWait at_ s
  | .reprioritiseWaiter at_ => Sys2Proof.Machine.execReprioritiseWaiter at_ s
  | .ownerGone at_ => Sys2Proof.Machine.execOwnerGone at_ s
  | .semaphoreAcquire => Sys2Proof.Machine.execSemaphoreAcquire s
  | .semaphoreRelease => Sys2Proof.Machine.execSemaphoreRelease s
  | .hostAcquire sem => Sys2Proof.Machine.execHostAcquire sem s
  | .hostRelease sem => Sys2Proof.Machine.execHostRelease sem s
  | .clearAbandon => Sys2Proof.Machine.execClearAbandon s
  | .forceRelease => Sys2Proof.Machine.execForceRelease s
  | .dramAccess ecc => Sys2Proof.Machine.execDramAccess ecc s
  | .mramAccess ecc => Sys2Proof.Machine.execMramAccess ecc s
  | .rollSegment engine bits => Sys2Proof.Machine.execRollSegment engine bits s
  | .dispatchEvent source => Sys2Proof.Machine.execDispatchEvent source s
  | .completionReport => Sys2Proof.Machine.execCompletionReport s
  | .abortReport => Sys2Proof.Machine.execAbortReport s
  | .frameFreeReport => Sys2Proof.Machine.execFrameFreeReport s
  | .prefetchTakenReport => Sys2Proof.Machine.execPrefetchTakenReport s
  | .purgeComplete => Sys2Proof.Machine.execPurgeComplete s
  | .iterRequest => Sys2Proof.Machine.execIterRequest s
  | .boost => Sys2Proof.Machine.execBoost s
  | .unboost => Sys2Proof.Machine.execUnboost s
  | .dspFselWrite v => Sys2Proof.Machine.execDspFselWrite v s
  | .flowCommit => Sys2Proof.Machine.execFlowCommit s
  | .disable => Sys2Proof.Machine.execDisable s
  | .clearFlags => Sys2Proof.Machine.execClearFlags s
  | .clearCounts => Sys2Proof.Machine.execClearCounts s
  | .seqSlotStart part => Sys2Proof.Machine.execSeqSlotStart part s
  | .slotAdmit pcell => Sys2Proof.Machine.execSlotAdmit pcell s
  | .frameBoundary part => Sys2Proof.Machine.execFrameBoundary part s
  | .armHandover part target => Sys2Proof.Machine.execArmHandover part target s
  | .armGap part target => Sys2Proof.Machine.execArmGap part target s
  | .cancel part => Sys2Proof.Machine.execCancel part s
  | .pairToken station => Sys2Proof.Machine.execPairToken station s
  | .pairPacket station cmpFault => Sys2Proof.Machine.execPairPacket station cmpFault s
  | .pairWindowTimeout station checker index => Sys2Proof.Machine.execPairWindowTimeout station checker index s
  | .stationResponse station => Sys2Proof.Machine.execStationResponse station s
  | .mirrorRecord pcell => Sys2Proof.Machine.execMirrorRecord pcell s
  | .checkerOperandTimeout pcell => Sys2Proof.Machine.execCheckerOperandTimeout pcell s
  | .trapNotice station => Sys2Proof.Machine.execTrapNotice station s
  | .debugStop station => Sys2Proof.Machine.execDebugStop station s
  | .replayRecord pcell => Sys2Proof.Machine.execReplayRecord pcell s
  | .flitHop sel index flips => Sys2Proof.Machine.execFlitHop sel index flips s
  | .creditReturn index => Sys2Proof.Machine.execCreditReturn index s
  | .creditTimeout index => Sys2Proof.Machine.execCreditTimeout index s
  | .responseTimeout from_ tag => Sys2Proof.Machine.execResponseTimeout from_ tag s
  | .stallTimeout h => Sys2Proof.Machine.execStallTimeout h s
  | .cldCtrlSlowWrite cloud v => Sys2Proof.Machine.execCldCtrlSlowWrite cloud v s
  | .cldCtrlKeepOnWrite cloud v => Sys2Proof.Machine.execCldCtrlKeepOnWrite cloud v s
  | .drainComplete cloud => Sys2Proof.Machine.execDrainComplete cloud s
  | .pllRelockDone cloud => Sys2Proof.Machine.execPllRelockDone cloud s
  | .parkIdle cloud => Sys2Proof.Machine.execParkIdle cloud s
  | .wakeComplete cloud => Sys2Proof.Machine.execWakeComplete cloud s
  | .powerUpComplete cloud => Sys2Proof.Machine.execPowerUpComplete cloud s
  | .prbCfgWrite probe v => Sys2Proof.Machine.execPrbCfgWrite probe v s
  | .rollStart => Sys2Proof.Machine.execRollStart s
  | .rollDrainDone => Sys2Proof.Machine.execRollDrainDone s
  | .rollDrainTimeout => Sys2Proof.Machine.execRollDrainTimeout s
  | .rollCopyDone => Sys2Proof.Machine.execRollCopyDone s
  | .rollTestDone passed macros => Sys2Proof.Machine.execRollTestDone passed macros s
  | .quietSpanStart => Sys2Proof.Machine.execQuietSpanStart s
  | .shadowCopyDone => Sys2Proof.Machine.execShadowCopyDone s
  | .undefinedEncoding pcell slot => Sys2Proof.Machine.execUndefinedEncoding pcell slot s
  | .sourceHealthy w => Sys2Proof.Machine.execSourceHealthy w s
  | .fieldSideTimeout => Sys2Proof.Machine.execFieldSideTimeout s

end Sys2Proof.Machine
end

