-- ==== Sys2Proof/Machine/Tick.lean ====
section
/-! DEFINITION. What a core cycle does while no command waits: time passes, and what the module holds for the host
goes out where there is room. -/

namespace Sys2Proof.Machine

/-- The ports of a live field I/O move what they hold: bytes into the rings, which the graph's consume words make room in,
and frame values to the dispatcher (R418, R420). -/
def State.movePorts (s : State) : State := if s.fieldLive then s.pumpPorts else s

/-- An idle cycle: zenith and the horizon counter advance (R378, R379, R383), the ports move what they hold (R420), the
trace buffer drains (R192), held extract entries and log records enter their rings (R461, R462), a due status word
is written (R445), and register messages that wait for the field side are performed once it answers (R442). -/
def State.tick (s : State) : State := s.coreCycle.movePorts.drainTrace.flushRings.writeStatus.serveWaiting

end Sys2Proof.Machine
end

