-- ==== Sys2Proof/WellFormed.lean ====
section
/-! DEFINITION. Which terms are commands of this hardware: each names units that some variant has, and its lists have
the lengths that the manual gives. -/

namespace Sys2Proof

/-- A macro that exists on some variant, with rows and columns of 32 KiB with check bits (R298). -/
def MacroFail.wf (m : MacroFail) : Bool :=
  decide (m.macroId < 1536) && m.bits.all (fun b => decide (b.row < 256 ∧ b.col < 1248))

/-- The cells and clouds of a test exist on some variant (R2). -/
def TestOutcome.wf (r : TestOutcome) : Bool :=
  r.cells.all (fun p => decide (p < 288)) && r.clouds.all (fun c => decide (c < 18)) && r.macros.all MacroFail.wf

/-- A report's source is one of 0 to 95 (R352). -/
def ReportSel.wf : ReportSel → Bool
  | .raised n _ => decide (n < 96)
  | .waiting => true
  | .collectorSelf => true

/-- A wire pair belongs to a source, or is the safe line (R349, R375). -/
def WireSel.wf : WireSel → Bool
  | .source n => decide (n < 96)
  | .safeLine => true
  | .readback pin => decide (pin < 64)

/-- The sender of a hop exists on some variant. -/
def HopSel.wf (h : HopSel) (index : Nat) : Bool :=
  match h with
  | .fromCell => decide (index < 288)
  | .request => decide (index < 288)
  | .answer => decide (index < 153 ∨ (160 ≤ index ∧ index < 178) ∨ 256 ≤ index)
  | .fromRoot => true
  | .egress c => decide (c < 18)
  | .ingress c => decide (c < 18)
  | .inFlight => true

/-- A holder of credits exists on some variant. -/
def Holder.wf : Holder → Bool
  | .cell p => decide (p < 288)
  | .egress c => decide (c < 18)
  | .ingress c => decide (c < 18)
  | .engine c => decide (c < 18)
  | .root => true

/-- A requester exists on some variant. -/
def Requester.wf : Requester → Bool
  | .cell p => decide (p < 288)
  | .station i => decide (i < 16)

/-- A command is well-formed. -/
def Instr.wf (i : Instr) : Bool :=
  match i with
  | .fieldRstNLow | .fieldRstNHigh | .hostRstNLow | .hostRstNHigh | .testEntry | .standaloneTimeout | .verifyDone
  | .checkDone | .loadCommand _ | .runCommand _ | .safeCommand _ | .retestCommand _ | .commit _ | .modeBootWrite _
  | .attach | .detach | .haltAction | .resume | .step | .supplyExcursion _ _ | .temperatureThreshold _
  | .referenceLoss | .fltClearCounts | .restart _ | .faultNReadback | .timeMarker | .syncResult | .syncTimeout
  | .holdoverExpiry | .zenCmdSet | .zenCmdStep | .discEnWrite _ | .zenNowloRead | .delayReqSend _ | .releaseToken
  | .barrierMessage _ _ | .barrierLaneLoss | .heartbeatMissing | .setUpAccess _ _ _ | .enum _ _ _
  | .delayCalibration | .regRd _ | .regWr _ _ | .doorbell _ | .pollTimer | .completionWrite | .setupRead
  | .setupWrite | .imageBegin | .imageBlock | .imageEnd | .imageStage | .imageSequenceTimeout | .memRead
  | .memWrite | .setView | .keyView | .slotView | .keyProgram _ | .injectEntry | .extractToken | .extractDrop
  | .usbConnect | .usbDisconnect | .sessionTimeout | .lockoutEnd | .ident _ | .challenge _ | .auth _ _ | .logout _
  | .imgBegin _ _ | .imgEnd _ | .keyProg _ _ _ _ _ _ | .setupRd _ | .setupWr _ _ | .semaphoreAcquire
  | .semaphoreRelease | .hostAcquire _ | .hostRelease _ | .clearAbandon | .forceRelease | .dramAccess _
  | .mramAccess _ | .completionReport | .abortReport | .frameFreeReport | .prefetchTakenReport | .purgeComplete
  | .iterRequest | .boost | .unboost | .dspFselWrite _ | .flowCommit | .disable | .clearFlags | .clearCounts
  | .creditReturn _ | .creditTimeout _ | .rollStart | .rollDrainDone | .rollDrainTimeout | .rollCopyDone
  | .quietSpanStart | .shadowCopyDone | .fieldSideTimeout =>
    true
  | .testComplete r | .faultReport r | .selftest r | .svcSelftest _ r =>
    r.wf
  | .writeDone badStations =>
    badStations.all (fun i => decide (i < 16))
  | .pllUnlock cloud =>
    (match cloud with
    | some c => decide (c < 18)
    | none => true)
  | .brokenWire w | .sourceHealthy w =>
    w.wf
  | .fltPendWrite i _ =>
    decide (i < 3)
  | .fltRecInfoWrite c _ =>
    decide (c < 3)
  | .fltSrcWrite n _ =>
    decide (n < 96)
  | .timerTick n =>
    decide (n < 16)
  | .sync m _ departs =>
    decide (m.kind = 1) && departs.all (fun d => decide (1 ≤ d.1 ∧ d.1 ≤ 3))
  | .followUp m =>
    decide (m.kind = 2)
  | .delayReq port m _ _ =>
    decide (1 ≤ port ∧ port ≤ 3) && decide (m.kind = 3)
  | .delayResp m _ =>
    decide (m.kind = 4)
  | .captureEdge pin _ _ | .quadratureStep pin _ _ _ | .low pin | .high pin | .toggle pin | .hiz pin | .pulse pin
  | .pulseEnd pin | .duty pin | .pwmPeriodStart pin | .readbackMismatch pin | .tioCfgWrite pin _ =>
    decide (pin < 64)
  | .txb port | .txh port | .txend port | .i2cStart port | .uartRxByte port _ _ _ | .frameEnd port _
  | .txUnderrun port | .deOff port | .i2cNack port | .clockStretchTimeout port | .echoMismatch port =>
    decide (port < 8)
  | .frameReceive port body _ =>
    decide (port ≤ 3 ∧ 8 ≤ body.length ∧ body.length ≤ 520)
  | .replayRequest port _ | .errorRateCheck port | .portDown port | .trainingTimeout port
  | .electricalDetect port | .laneLock port _ | .laneDeskew port | .rateNegotiation port _ | .version port _ _ =>
    decide (port ≤ 3)
  | .transmitEqualisation port margins =>
    decide (port ≤ 3 ∧ margins.length = 8)
  | .enumRsp port _ =>
    decide (1 ≤ port ∧ port ≤ 3)
  | .memCpl part =>
    decide (part.tag < 256 ∧ part.offset < 4096 ∧ part.bytes.length ≤ 480)
  | .ringCfgEnWrite ring _ | .notify ring =>
    decide (ring < 5)
  | .logread _ _ n | .regread _ _ n =>
    decide (n < 256)
  | .imgBlock _ _ bytes =>
    decide (bytes.length ≤ 236)
  | .tokenAccept pcell _ | .latchSweep pcell | .prefetchMessage pcell | .preMatchedActivation pcell
  | .agerVisit pcell _ | .purge { pcell, .. } | .strandStart pcell | .preemption pcell | .strandResume pcell
  | .responseArrival pcell | .lockGrant pcell | .iterGrantMessage pcell | .boostApply pcell | .pairAck pcell
  | .count pcell | .evict pcell | .viewKey pcell _ _ _ | .viewSlot pcell _ | .dbgWrite pcell _ _ _ _ _
  | .dbgCtrl pcell _ _ | .slotAdmit pcell | .mirrorRecord pcell | .checkerOperandTimeout pcell
  | .replayRecord pcell =>
    decide (pcell < 288)
  | .spillAger cloud level =>
    decide (cloud < 18 ∧ 2 ≤ level ∧ level ≤ 3)
  | .divideComplete pcell slot | .add pcell slot | .sub pcell slot | .addi pcell slot | .adds pcell slot
  | .subs pcell slot | .and pcell slot | .or pcell slot | .xor pcell slot | .andi pcell slot | .ori pcell slot
  | .xori pcell slot | .not pcell slot | .shl pcell slot | .shr pcell slot | .sar pcell slot | .shli pcell slot
  | .shri pcell slot | .sari pcell slot | .rol pcell slot | .ror pcell slot | .slt pcell slot | .sltu pcell slot
  | .slti pcell slot | .min pcell slot | .max pcell slot | .minu pcell slot | .maxu pcell slot | .abs pcell slot
  | .abss pcell slot | .neg pcell slot | .clz pcell slot | .mov pcell slot | .sextb pcell slot | .sexth pcell slot
  | .zextb pcell slot | .zexth pcell slot | .movi pcell slot | .movhi pcell slot | .movS pcell slot
  | .moviS pcell slot | .addS pcell slot | .subS pcell slot | .addiS pcell slot | .subiS pcell slot
  | .beqzS pcell slot | .bnezS pcell slot | .sendS pcell slot | .mul pcell slot | .mulu pcell slot
  | .macc pcell slot | .maccs pcell slot | .div pcell slot | .divu pcell slot | .beq pcell slot | .bne pcell slot
  | .blt pcell slot | .bge pcell slot | .bltu pcell slot | .bgeu pcell slot | .beqz pcell slot | .bnez pcell slot
  | .bltz pcell slot | .bgez pcell slot | .bgtz pcell slot | .blez pcell slot | .j pcell slot | .jr pcell slot
  | .call pcell slot | .callr pcell slot | .ret pcell slot | .nop pcell slot | .endStrand pcell slot
  | .endr pcell slot | .brk pcell slot | .fencei pcell slot | .trap pcell slot | .rep pcell slot
  | .repu pcell slot | .ldw pcell slot | .ldh pcell slot | .ldhu pcell slot | .ldb pcell slot | .ldbu pcell slot
  | .ldd pcell slot | .stw pcell slot | .sth pcell slot | .stb pcell slot | .std pcell slot | .swp pcell slot
  | .lck pcell slot | .tlck pcell slot | .unl pcell slot | .sti pcell slot | .stiH pcell slot | .stiW pcell slot
  | .stiWh pcell slot | .send pcell slot | .sendc pcell slot | .sendcn pcell slot | .sendx pcell slot
  | .sendt pcell slot | .evs pcell slot | .iter pcell slot | .undefinedEncoding pcell slot =>
    decide (pcell < 288 ∧ slot < 8)
  | .spill { cloud, .. } | .recall cloud | .fetch cloud | .sweep cloud | .enginePurge cloud | .flush cloud
  | .viewSpill cloud _ _ _ _ | .cldCtrlSlowWrite cloud _ | .cldCtrlKeepOnWrite cloud _ | .drainComplete cloud
  | .pllRelockDone cloud | .parkIdle cloud | .wakeComplete cloud | .powerUpComplete cloud =>
    decide (cloud < 18)
  | .moveEntry old new _ | .moveDone old new =>
    decide (old < 288 ∧ new < 288)
  | .moveSpill lid level _ =>
    decide (lid < 256 ∧ 2 ≤ level ∧ level ≤ 3)
  | .moveState old new part off =>
    decide (old < 288 ∧ new < 288 ∧ part < 16 ∧ off % 64 = 0)
  | .copyBlock pcell _ off _ bytes =>
    decide (pcell < 288 ∧ off % 64 = 0 ∧ bytes.length = 64)
  | .readBlock pcell _ off =>
    decide (pcell < 288 ∧ off % 64 = 0)
  | .viewSet pcell set _ =>
    decide (pcell < 288 ∧ set < 256)
  | .bankLoad bank _ | .bankStore bank _ | .blockLoad bank _ | .blockStore bank | .setAliasStore bank _
  | .clearAliasStore bank _ | .bankSwp bank _ | .bankLck bank _ | .bankTlck { bank, .. } | .bankUnl { bank, .. }
  | .releaseAbandoned { bank, .. } | .cancelWait { bank, .. } | .reprioritiseWaiter { bank, .. } | .ownerGone { bank, .. } =>
    decide (bank < 152)
  | .rollSegment engine _ =>
    decide (engine < 19)
  | .dispatchEvent source =>
    decide (1 ≤ source ∧ source ≤ 5)
  | .seqSlotStart part | .frameBoundary part | .armHandover part _ | .armGap part _ | .cancel part =>
    decide (part < 8)
  | .pairToken station | .pairPacket station _ | .pairWindowTimeout station _ _ | .stationResponse station
  | .trapNotice station | .debugStop station =>
    decide (station < 16)
  | .flitHop sel index flips =>
    sel.wf index && flips.all (fun e => decide (e.1 < 5))
  | .stallTimeout h =>
    h.wf
  | .responseTimeout from_ _ =>
    from_.wf
  | .prbCfgWrite probe _ =>
    decide (probe < 32)
  | .rollTestDone _ macros =>
    macros.all MacroFail.wf

end Sys2Proof
end

