-- ==== Sys2Proof/Safety.lean ====
section
/-! DEFINITION. The terms in which claims speak of the block: the canonical form of what a state stores, key slots that
stay as they are, the conditions under which the strand in a slot issues, and what an instruction that only writes a
register leaves. -/

namespace Sys2Proof.Safety

open Sys2Proof.Machine

/-! ### The whole state -/

/-- The canonical form: the stored registers, global memory, DRAM and MRAM list each key once, in rising order, and
nothing that an unlisted key reads as; and a revoked key slot is a programmed one (R471, R472). -/
structure Canonical (s : State) : Prop where
  regs    : twf regReset s.regs = true
  glob    : s.mem.glob.wf = true
  dram    : s.mem.dram.wf = true
  mram    : s.mem.mram.wf = true
  revoked : ∀ i, (s.key i).revoked = true → (s.key i).prog = true


/-- Field outputs stand as R369 and R399 say (R399, R475, R482): outside the modes in which the field I/O is configured no
TIO pin is driven, and nothing waits to drive one; the field I/O is not configured before a load has come to its sixth
step, and it is configured wherever a load is complete and wherever the module runs. -/
structure OutputsOff (s : State) : Prop where
  idle  : s.mode.mode = .reset ∨ s.mode.mode = .test ∨ s.mode.mode = .link → s.fio.ready = false
  ready : (s.mode.mode = .load ∧ s.mode.lstate = .done) ∨ s.running = true → s.fio.ready = true
  off   : s.mode.mode = .safe ∨ s.fio.ready = false →
    ∀ n, (s.pin n).drv = none ∧ (s.pin n).relQ = [] ∧ (s.pin n).pulse = none

/-! ### The strand in a slot issues (R138) -/

/-- The strand in a slot of a physical cell issues an instruction with this operation, and nothing stands in its way:
the cell and the slot exist, the strand waits for nothing, is not held and is the one whose turn it is (R139), the
instruction at its program counter
decodes to the operation and is fetched from no poisoned word, its stepped fields stay in the window, and no window word
it reads is poisoned. `x` is what
the instruction has at hand: the state, its strand, its fields and the values of its sources. -/
structure Issues (s : State) (pcell slot : Nat) (op : Opc) (x : Ctx) : Prop where
  cellOk : pcell < s.variant.pcells
  slotOk : slot < 8
  here   : x.s = s ∧ x.pcell = pcell ∧ x.slot = slot
  strand : (s.cell pcell).strand slot = some x.t
  ready  : s.mayIssue pcell slot x.t = true ∧ x.t.wait = .nothing
  code   : ∃ i, (s.cell pcell).decodeAt x.t = some i ∧ i.op = op ∧ s.fetchPoison pcell x.t i.len = none ∧ x.t.stepped i = some x.ins
  clean  : s.poisonHit pcell x.t x.ins = none
  right  : ¬ (x.ins.op.writesD = true ∧ 32 ≤ x.ins.rd ∧ x.ins.rd < 40 ∧ s.isPaired pcell = true)
  srcA   : x.a = s.readReg pcell slot x.t x.ins.rs1
  srcB   : x.b = s.readReg pcell slot x.t x.ins.rs2

/-- A strand, as it stands once its instruction is complete, goes on in its slot (R87, R123, R159, R488): it was not fired
as a single node, its activation is not stopped, no debugger steps it, and no FENCE stands at its program counter unless
a repeat goes on. -/
structure Continues (c : Cell) (u : Strand) : Prop where
  single   : u.single = false
  dying    : u.dying = false
  stepping : u.stepping = false
  noFence  : u.rep = true ∨ isFence (c.fetchWord u) = false

/-! ### Results of Jithar instructions (R103, R104) -/

/-- A number clamped to the signed 32-bit range (R104). -/
def clamp32 (z : Int) : Word := BitVec.ofInt 32 (max (-2147483648) (min 2147483647 z))

/-- The instructions that only write a register, by command and operation, with the value that each writes. -/
def arithmetic (pcell slot : Nat) : List (Instr × Opc × (Ctx → Word)) :=
   [(.add pcell slot, .add, fun x => x.a + x.b),
    (.sub pcell slot, .sub, fun x => x.a - x.b),
    (.addi pcell slot, .addi, fun x => x.a + x.ins.imm),
    (.adds pcell slot, .adds, fun x => clamp32 (x.a.toInt + x.b.toInt)),
    (.subs pcell slot, .subs, fun x => clamp32 (x.a.toInt - x.b.toInt)),
    (.and pcell slot, .and, fun x => x.a &&& x.b),
    (.or pcell slot, .or, fun x => x.a ||| x.b),
    (.xor pcell slot, .xor, fun x => x.a ^^^ x.b),
    (.andi pcell slot, .andi, fun x => x.a &&& x.ins.imm),
    (.ori pcell slot, .ori, fun x => x.a ||| x.ins.imm),
    (.xori pcell slot, .xori, fun x => x.a ^^^ x.ins.imm),
    (.not pcell slot, .not, fun x => ~~~x.a),
    (.shl pcell slot, .shl, fun x => BitVec.ofNat 32 (x.a.toNat * 2 ^ (x.b.toNat % 64))),
    (.shr pcell slot, .shr, fun x => BitVec.ofNat 32 (x.a.toNat / 2 ^ (x.b.toNat % 64))),
    (.sar pcell slot, .sar, fun x => BitVec.ofInt 32 (x.a.toInt / 2 ^ (x.b.toNat % 64))),
    (.shli pcell slot, .shli, fun x => BitVec.ofNat 32 (x.a.toNat * 2 ^ (x.ins.imm.toNat % 64))),
    (.shri pcell slot, .shri, fun x => BitVec.ofNat 32 (x.a.toNat / 2 ^ (x.ins.imm.toNat % 64))),
    (.sari pcell slot, .sari, fun x => BitVec.ofInt 32 (x.a.toInt / 2 ^ (x.ins.imm.toNat % 64))),
    (.rol pcell slot, .rol, fun x => BitVec.ofNat 32 (x.a.toNat * 2 ^ (x.b.toNat % 32) + x.a.toNat / 2 ^ (32 - x.b.toNat % 32))),
    (.ror pcell slot, .ror, fun x => BitVec.ofNat 32 (x.a.toNat / 2 ^ (x.b.toNat % 32) + x.a.toNat * 2 ^ (32 - x.b.toNat % 32))),
    (.slt pcell slot, .slt, fun x => if x.a.toInt < x.b.toInt then 1 else 0),
    (.sltu pcell slot, .sltu, fun x => if x.a.toNat < x.b.toNat then 1 else 0),
    (.slti pcell slot, .slti, fun x => if x.a.toInt < x.ins.imm.toInt then 1 else 0),
    (.min pcell slot, .min, fun x => BitVec.ofInt 32 (min x.a.toInt x.b.toInt)),
    (.max pcell slot, .max, fun x => BitVec.ofInt 32 (max x.a.toInt x.b.toInt)),
    (.minu pcell slot, .minu, fun x => BitVec.ofNat 32 (min x.a.toNat x.b.toNat)),
    (.maxu pcell slot, .maxu, fun x => BitVec.ofNat 32 (max x.a.toNat x.b.toNat)),
    (.abs pcell slot, .abs, fun x => BitVec.ofInt 32 |x.a.toInt|),
    (.abss pcell slot, .abss, fun x => clamp32 |x.a.toInt|),
    (.neg pcell slot, .neg, fun x => 0 - x.a),
    (.clz pcell slot, .clz, fun x => if x.a = 0 then 32 else BitVec.ofNat 32 (31 - x.a.toNat.log2)),
    (.mov pcell slot, .mov, fun x => x.a),
    (.sextb pcell slot, .sextb, fun x => (x.a.setWidth 8).signExtend 32),
    (.sexth pcell slot, .sexth, fun x => (x.a.setWidth 16).signExtend 32),
    (.zextb pcell slot, .zextb, fun x => x.a &&& 0xFF),
    (.zexth pcell slot, .zexth, fun x => x.a &&& 0xFFFF),
    (.movi pcell slot, .movi, fun x => x.ins.imm),
    (.movhi pcell slot, .movhi, fun x => BitVec.ofNat 32 (x.ins.imm.toNat * 65536 + (x.s.readReg x.pcell x.slot x.t x.ins.rd).toNat % 65536)),
    (.movS pcell slot, .movS, fun x => x.a),
    (.moviS pcell slot, .moviS, fun x => x.ins.imm),
    (.addS pcell slot, .addS, fun x => x.a + x.b),
    (.subS pcell slot, .subS, fun x => x.a - x.b),
    (.addiS pcell slot, .addiS, fun x => x.a + x.ins.imm),
    (.subiS pcell slot, .subiS, fun x => x.a - x.ins.imm)]

/-! ### Requests (R118, R239, R273) -/

/-- Between two states a strand's cell has queued one request to the unit that serves a place, under its lowest free
tag, which is outstanding for the strand. An unpaired cell's packet carries the request itself. -/
def Requests (s t : State) (x : Ctx) (l : Located) (op : Byte) (data : BitVec 64) (what : Pending) (ea : Word) : Prop :=
  ∃ tag p, (s.cell x.pcell).freeTag = some tag ∧
    (t.cell x.pcell).reqQ = (s.cell x.pcell).reqQ ++ [p] ∧
    (t.cell x.pcell).tags = (s.cell x.pcell).tags ++ [{ tag, head := BitVec.ofNat 16 p.routed.head16, uid := x.t.uid, what, ea, time := s.zen.count }] ∧
    (s.isPaired x.pcell = false → p.vc = .q ∧ (p.dcloud, p.dcell) = l.region.server.1 ∧
      ∃ r : Request, p.cargo = .plain (.request r) ∧ r.op = op ∧ r.data = data ∧ r.addr = l.region.server.2.2 ∧
        r.tag = BitVec.ofNat 6 tag)

/-! ### Messages to a cell (R274) -/

/-- A command is a view or a debugger's message to a physical cell, with any operands. -/
def inspects (pcell : Nat) (m : Instr) : Prop :=
  (∃ set pair, m = .viewSet pcell set pair) ∨ (∃ flow iteration addr, m = .viewKey pcell flow iteration addr) ∨
    (∃ pair, m = .viewSlot pcell pair) ∨ (∃ target rb w v head, m = .dbgWrite pcell target rb w v head) ∨
    (∃ rb op, m = .dbgCtrl pcell rb op)

/-- A command is a message to a physical cell, with any operands. -/
def messages (pcell : Nat) (m : Instr) : Prop :=
  inspects pcell m ∨ (∃ istore off, m = .readBlock pcell istore off) ∨
    (∃ istore off heads bytes, m = .copyBlock pcell istore off heads bytes)

/-- Between two states a bank has queued exactly one more answer: to this request's sender, under its tag, with this
status, data and body (R236, R270). -/
def BankAnswered (s t : State) (b : Nat) (r : Request) (status : Nat) (data : BitVec 64) (body : List Byte) : Prop :=
  ∃ p : Packet, ∃ a : Response, (t.bank b).answers = (s.bank b).answers ++ [p] ∧ p.cargo = .plain (.response a) ∧
    p.dcloud = r.rcloud ∧ p.dcell = r.rcell ∧ p.vc = .p ∧ a.tag = r.tag ∧ a.status = BitVec.ofNat 8 status ∧
    a.data = data ∧ a.body = body

/-- Between two states a root memory has queued exactly one more answer, as a bank does. -/
def RootAnswered (s t : State) (r : Request) (status : Nat) (data : BitVec 64) : Prop :=
  ∃ p : Packet, ∃ a : Response, t.mem.rootAns = s.mem.rootAns ++ [p] ∧ p.cargo = .plain (.response a) ∧
    p.dcloud = r.rcloud ∧ p.dcell = r.rcell ∧ a.tag = r.tag ∧ a.status = BitVec.ofNat 8 status ∧ a.data = data

/-- A bank serves a request: it exists and is powered, and the request is the oldest of the source whose turn it is
(R270, R271). -/
structure Serves (s : State) (b : Nat) (r : Request) (rest : List Request) : Prop where
  there : s.bankExists b = true
  on    : s.bankOn b = true
  turn  : ((s.bank b).nextRequest b).map Prod.snd = some r
  rest  : rest = (s.bank b).queue.erase r

/-- A request of the strand can be sent at once (R239, R317): a tag is free, and a paired strand has an output left and
fewer than two unacknowledged. -/
structure CanAsk (x : Ctx) : Prop where
  tag     : (x.s.cell x.pcell).freeTag.isSome
  acked   : x.unackedFull = false
  outputs : x.outputsSpent = false

end Sys2Proof.Safety
end

