-- ==== Sys2Proof/Certificates/Slice0/Obligations.lean ====
section
/-! DEFINITION. The statements that the provers settle, family by family of the commands. Each docstring says what its
statement says and names the rules it comes from. -/

open Sys2Proof Sys2Proof.Machine Sys2Proof.Safety

/-! ### The block as a whole -/

/-- A step with a command at the front of the queue is that command's effect on the state with the queue's rest,
whatever the command and the state: nothing is added around it. -/
def Obligations.StepRunsFrontCommand : Prop :=
  (∀ (c : Instr) (s : State), step { s with pending := c :: s.pending } = exec c s) ∧
  (∀ (c : Instr) (rest : List Instr) (s : State), s.pending = c :: rest →
    step s = exec c { s with pending := rest })

/-- The model's choice (log entry 2): a step on an empty queue is one core cycle. With no register message waiting for
the field side (R442), it answers a next state with the queue still empty and the mode as it was. With FIELD_RST_N low
zenith does not move. With FIELD_RST_N high and rate 0 the count rises by exactly 1 modulo 2^63, the fraction stays
(R379: a core cycle is 1 ns) and the core cycles go on being counted (log entry 142). The horizon counter rises by 1
exactly when HOST_RST_N is high. -/
def Obligations.IdleStepIsOneCoreCycle : Prop :=
  ∀ s : State, s.pending = [] → s.hor.waitRegs = [] → ∃ t, step s = .next t ∧ t.pending = [] ∧ t.mode = s.mode ∧
    (s.mode.fieldRst = false → t.zen = s.zen) ∧
    (s.mode.fieldRst = true → s.rate = 0 → s.zen.frac < 10 ^ 8 →
      t.zen = { s.zen with count := (s.zen.count + 1) % 2 ^ 63, cycle := s.zen.cycle + 1 }) ∧
    t.hor.hcount = s.hor.hcount + (if s.mode.hostRst then 1 else 0)

/-- Every step keeps the canonical form: from every state whose registers, global memory, DRAM and MRAM are canonical
and whose revoked key slots are programmed, a step that answers a next state answers one with the same properties,
whatever command it runs, or none. -/
def Obligations.StepKeepsCanonicalForm : Prop :=
  ∀ s t : State, Canonical s → step s = .next t → Canonical t

/-- A programmed key slot is never written again and a revocation is never undone (R468, R471, R472): no step, whatever
command it runs, changes the digest or the usage of a programmed slot, makes it blank, or clears a revocation. -/
def Obligations.StepNeverRewritesKeySlot : Prop :=
  ∀ (s t : State) (i : Nat), Canonical s → step s = .next t →
    ((s.key i).prog = true → (t.key i).prog = true ∧ (t.key i).digest = (s.key i).digest ∧
      (t.key i).usage = (s.key i).usage) ∧
    ((s.key i).revoked = true → (t.key i).revoked = true)

/-- The model's choice (log entry 1): every command completes. Each of the 345 constructors of Instr, with every operand
and in every state, answers a next state; no form faults and none is refused, and a command whose condition does not
hold answers a next state too. That state has the queue and the variant that the command found (the
fuses name the variant, R498), so that a step takes exactly one command, the front one. What each command does to the
rest of the state is said by the statements of its family. -/
def Obligations.EveryCommandCompletes : Prop :=
  (∀ (c : Instr) (s : State), ∃ t, exec c s = .next t) ∧
  (∀ (c : Instr) (s : State), Canonical s →
    ∃ t, exec c s = .next t ∧ Canonical t ∧ t.pending = s.pending ∧ t.variant = s.variant) ∧
  (∀ s : State, Canonical s → ∃ t, step s = .next t ∧ t.pending = s.pending.tail ∧ t.variant = s.variant)

/-- What reset leaves, as far as the manual gives it: the canonical form, an empty queue, mode RESET with both reset
pins low (R476), zenith UNLOCKED at count 0 (R378, R387), every set-up register at its reset value (R16), every field
output undriven (R399), no key slot programmed or revoked by the model, and every cell, cloud and bank empty. That
what the spec gives no reset value is 0 or empty is the model's choice (log entry 6). -/
def Obligations.ResetLeavesEverythingAtRest : Prop :=
  Canonical State.reset ∧ State.reset.pending = [] ∧ State.reset.mode.mode = .reset ∧
  State.reset.mode.fieldRst = false ∧ State.reset.mode.hostRst = false ∧
  State.reset.zen.state = .unlocked ∧ State.reset.zen.count = 0 ∧
  (∀ a, State.reset.reg a = regReset a) ∧ (∀ n, (State.reset.pin n).drv = none) ∧
  (∀ i, State.reset.key i = KeySlot.blank) ∧ (∀ p, State.reset.cell p = Cell.idle) ∧
  (∀ c, State.reset.cloud c = Cloud.idle) ∧ (∀ b, State.reset.bank b = Bank.idle)

/-! ### Resets, start-up and loading -/

/-- The reset pins (R16, R475, R476, R477). FIELD_RST_N low, outside RESET, answers mode RESET with cause 1: zenith,
cells, clouds, stations, sequencer, dispatcher and field-side registers are as after reset, no pin is driven, and
MRAM, DRAM, the key fuses and everything else of the horizon die but its log and status word stay. FIELD_RST_N high
only raises the pin. HOST_RST_N low, outside RESET, leaves the field side's mode, memories and cells, asserts
BAR_LINK, HOST_LOST and LNK_DOWN (R477), takes the barrier down, and keeps the key fuses. HOST_RST_N high with the
field side out of RESET brings the barrier up and ends BAR_LINK and HOST_LOST. That MODE_CAUSE and the counts of
starts stay over the reset, and that the loss of the link comes with the pin, are the model's choices (log entries 77
and 78). -/
def Obligations.ResetPinsResetTheirOwnSide : Prop :=
  (∀ s : State, s.mode.mode ≠ .reset → ∃ t, exec .fieldRstNLow s = .next t ∧
    t.mode.mode = .reset ∧ t.mode.fieldRst = false ∧ t.mode.hostRst = s.mode.hostRst ∧
    t.zen = Zenith.reset ∧ t.dsp = Dispatcher.reset ∧ t.cells = [] ∧ t.clouds = [] ∧ t.seq = [] ∧ t.pairs = [] ∧
    t.jet = Jetstream.reset ∧ t.mem.mram = s.mem.mram ∧ t.mem.dram = s.mem.dram ∧ t.hor.keys = s.hor.keys ∧
    t.hor.ports = s.hor.ports ∧ t.hor.rings = s.hor.rings ∧ t.hor.hcount = s.hor.hcount ∧
    (∀ n, (t.pin n).drv = none) ∧ t.regF aModeCause 31 16 = 1 ∧
    t.variant = s.variant ∧ t.pending = s.pending) ∧
  (∀ s : State, exec .fieldRstNHigh s = .next { s with mode := { s.mode with fieldRst := true } }) ∧
  (∀ s : State, s.mode.mode ≠ .reset → ∃ t, exec .hostRstNLow s = .next t ∧
    t.mode = { s.mode with hostRst := false } ∧ t.mem = s.mem ∧ t.cells = s.cells ∧ t.clouds = s.clouds ∧
    t.dsp = s.dsp ∧ t.seq = s.seq ∧ t.fio = s.fio ∧ t.zen.count = s.zen.count ∧ t.hor.keys = s.hor.keys ∧
    t.hor.cmdQ = [] ∧ t.hor.ports = [] ∧ t.bar.up = false ∧ t.bar.lost = true ∧
    srcBarLink ∈ t.flt.level ∧ srcHostLost ∈ t.flt.level ∧ srcLnkDown ∈ t.flt.level ∧
    (s.zen.state = .locked → t.zen.state = .holdover)) ∧
  (∀ s : State, s.mode.mode ≠ .reset → s.mode.hostRst = false → ∃ t, exec .hostRstNHigh s = .next t ∧
    t.mode = { s.mode with hostRst := true } ∧ t.bar.up = true ∧ t.bar.lost = false ∧
    srcBarLink ∉ t.flt.level ∧ srcHostLost ∉ t.flt.level ∧ t.mem = s.mem ∧ t.cells = s.cells ∧ t.zen = s.zen)

/-- TEST is entered from RESET exactly when FIELD_RST_N is high, the horizon die is out of reset and the core supply
is inside its window (R475, R476): the barrier is up, the start is a cold one, no cell is fenced, and cells and DRAM
are untouched until the tests write them; every sensor's condition that is still under way is asserted (R516, R517,
log entry 161). With the safe line broken, TEST is left for SAFE at once with no pin driven (R375, log entry 147). In
any other state the event changes nothing. Which event comes after which time is the sender's (log entries 77 and 78).
TEST ends in LINK, and in LOAD at once where the upstream port is up (R475, R479). A cold start has cleared DRAM,
global memory and every cell (R479); a RETEST keeps them as they were (R257, R485). Zenith and the field I/O's pins
are untouched. Outside TEST the event changes nothing. STANDALONE_TIMEOUT (R475) in LINK, with standalone boot enabled
and no partner on port 0, enters LOAD; otherwise it changes nothing. -/
def Obligations.StartUpGoesThroughTestAndLink : Prop :=
  (∀ s : State, s.mode.mode = .reset → s.mode.fieldRst = true → s.mode.hostRst = true → s.mode.coreLow = false →
    ∃ t, exec .testEntry s = .next t ∧ t.mode.start = 0 ∧ t.mode.retest = false ∧ t.bar.up = true ∧ t.rep.fenced = [] ∧
      (∀ x ∈ s.flt.sensed, x.1 ∈ t.flt.level) ∧ t.mem.dram = s.mem.dram ∧ t.zen = s.zen ∧
      (s.flt.safeLine = false → t.mode.mode = .test ∧ t.cells = s.cells ∧ t.mem.mram = s.mem.mram ∧ t.fio = s.fio) ∧
      (s.flt.safeLine = true → t.mode.mode = .safe ∧ (∀ n, (t.pin n).drv = none))) ∧
  (∀ s : State, (s.mode.mode ≠ .reset ∨ s.mode.fieldRst = false ∨ s.mode.hostRst = false ∨ s.mode.coreLow = true) →
    exec .testEntry s = .next s) ∧
  (∀ (r : TestOutcome) (s : State), s.mode.mode = .test → ∃ t, exec (.testComplete r) s = .next t ∧
    (t.mode.mode = .link ∨ t.mode.mode = .load) ∧
    (s.mode.retest = false → t.mem.dram = [] ∧ t.mem.glob = [] ∧ t.cells = []) ∧
    (s.mode.retest = true → t.mem.dram = s.mem.dram ∧ t.mem.glob = s.mem.glob ∧ t.cells = s.cells) ∧
    t.zen = s.zen ∧ t.fio = s.fio) ∧
  (∀ (r : TestOutcome) (s : State), s.mode.mode ≠ .test → exec (.testComplete r) s = .next s) ∧
  (∀ s : State, s.mode.mode = .link → s.mode.standalone = true → (s.link 0).partner = false →
    ∃ t, exec .standaloneTimeout s = .next t ∧ t.mode.mode = .load ∧
      t.mode.lstate = (if s.mode.autoload && s.slotValid s.mode.activeB then .verify else .wait) ∧
      t.mode.loaded = false ∧ t.cells = s.cells ∧ t.fio = s.fio) ∧
  (∀ s : State, (s.mode.mode ≠ .link ∨ s.mode.standalone = false ∨ (s.link 0).partner = true) →
    exec .standaloneTimeout s = .next s)

/-- The phases of LOAD (R482, R483, R484). VERIFY of a valid slot whose digest matches goes to CHECK and writes nothing
else. VERIFY of a slot that fails is refused with SEC_SIG and IMG_LOAD (R470, R484): SEC_STAT.result is 5 and SEC_SIG is
on its way over the barrier with the error's detail (log entry 82: with the horizon die in reset it is reported on the
field side alone), IMG_LOAD is under way to the collector, and a trial image falls back to VERIFY of the active slot
while the active slot's own image leaves the load REFUSED. CHECK of an image without a flaw
goes to WRITE and keeps the image's generation. WRITE_DONE in WRITE leaves the load complete: either the load state is
DONE, or the module runs. -/
def Obligations.LoadGoesThroughItsPhases : Prop :=
  (∀ s : State, s.mode.mode = .load → s.mode.lstate = .verify → s.slotValid s.mode.slotB = true →
    s.slotDigestOk s.mode.slotB = true →
    exec .verifyDone s = .next { s with mode := { s.mode with lstate := .check } }) ∧
  (∀ s : State, s.mode.mode = .load → s.mode.lstate = .verify →
    (s.slotValid s.mode.slotB && s.slotDigestOk s.mode.slotB) = false →
    ∃ t, exec .verifyDone s = .next t ∧ t.mode.mode = .load ∧ t.cells = s.cells ∧ t.fio = s.fio ∧
      t.mode.lstate = (if s.mode.trial then .verify else .refused) ∧
      (s.mode.trial = true → t.mode.slotB = s.mode.activeB ∧ t.mode.trial = false) ∧
      (s.mode.hostRst = true → t.regF aSecStat 2 0 = 5 ∧
        t.bar.toField = s.bar.toField ++ [.relay (BitVec.ofNat 32
          (srcSecSig + 128 + (5 + b2n (!s.slotValid s.mode.slotB) * 256) * 65536))]) ∧
      (s.mode.hostRst = false → ∃ r ∈ t.flt.inQ, r.source = srcSecSig) ∧
      (∃ r ∈ t.flt.inQ, r.source = srcImgLoad)) ∧
  (∀ s : State, s.mode.mode = .load → s.mode.lstate = .check →
    s.checkImage (s.slotImage s.mode.slotB) = none →
    exec .checkDone s = .next { s with mode := { s.mode with
      lstate := .write, gen := BitVec.ofNat 16 ((s.slotImage s.mode.slotB).half 12) } }) ∧
  (∀ (s : State) (f : Flaw), s.mode.mode = .load → s.mode.lstate = .check →
    s.checkImage (s.slotImage s.mode.slotB) = some f →
    ∃ t, exec .checkDone s = .next t ∧ t.mode.mode = .load ∧ t.cells = s.cells ∧ t.fio = s.fio ∧
      t.mode.lstate = (if s.mode.trial then .verify else .refused) ∧
      (∃ r ∈ t.flt.inQ, r.source = srcImgLoad)) ∧
  (∀ (bad : List Nat) (s : State), s.mode.mode = .load → s.mode.lstate = .write →
    ∃ t, exec (.writeDone bad) s = .next t ∧ t.mode.loaded = true ∧ (t.mode.lstate = .done ∨ t.running = true))

/-- The mode commands (R478, R484, R485, R490), accepted. LOAD goes to WAIT, or to VERIFY of the slot it names, a
trial exactly where that is not the active slot; outside LOAD it is a warm start, which stops every cell, halts
nothing and attaches nothing. RUN after a complete load runs. SAFE from LOAD, RUN, DEGRADED or HALT enters SAFE.
RETEST in LOAD enters TEST with the transparent test. COMMIT makes the trial slot active. Each answers status 0, and
given by the ring's command MODE (R455) at the head of the engine's queue each has the same effect and completes with
status OK. A write of MODE_BOOT takes standalone, autoload and autorun and nothing else of the mode unit but the
record's seq, and is not reported where its reserved bits are 0 (R15). -/
def Obligations.ModeCommandsTakeEffect : Prop :=
  (∀ (slot : BitVec 2) (s : State), s.fieldOn = true → s.loadAccepted = true → (s.mode.mode = .safe → s.fatal = false ∧ s.flt.safeLine = false) →
    (∀ b, s.loadSlot slot.toNat = some b → s.slotValid b = true) →
    ∃ t, exec (.loadCommand (.register slot)) s = .next t ∧ t.mode.mode = .load ∧ t.mode.loaded = false ∧
      t.regF aModeCmd 14 12 = 0 ∧
      (s.loadSlot slot.toNat = none → t.mode.lstate = .wait) ∧
      (∀ b, s.loadSlot slot.toNat = some b →
        t.mode.lstate = .verify ∧ t.mode.slotB = b ∧ t.mode.trial = decide (b ≠ s.mode.activeB)) ∧
      (s.mode.mode ≠ .load → t.mode.start = 2 ∧ t.mode.halted = 0 ∧ t.mode.attached = 0 ∧
        ∀ p, (t.cell p).stopped = true) ∧
      (∀ n, (t.pin n).drv = none)) ∧
  (∀ (slot : BitVec 2) (s : State), s.mode.mode = .load → s.mode.lstate = .done →
    ∃ t, exec (.runCommand (.register slot)) s = .next t ∧ t.running = true ∧ t.regF aModeCmd 14 12 = 0) ∧
  (∀ (slot : BitVec 2) (s : State), (s.mode.mode = .load ∨ s.running = true) →
    ∃ t, exec (.safeCommand (.register slot)) s = .next t ∧ t.mode.mode = .safe ∧ t.regF aModeCmd 14 12 = 0 ∧
      (∀ n, (t.pin n).drv = none)) ∧
  (∀ (slot : BitVec 2) (s : State), s.mode.mode = .load → s.loadAccepted = true →
    ∃ t, exec (.retestCommand (.register slot)) s = .next t ∧ t.mode.mode = .test ∧ t.mode.retest = true ∧
      t.mode.start = 1 ∧ t.regF aModeCmd 14 12 = 0 ∧ (∀ n, (t.pin n).drv = none)) ∧
  (∀ (slot : BitVec 2) (s : State), s.running = true → s.mode.trial = true →
    ∃ t, exec (.commit (.register slot)) s = .next t ∧ t.mode.activeB = s.mode.slotB ∧ t.mode.trial = false ∧
      t.mode.bootTrial = false ∧ t.mode.mode = s.mode.mode ∧ t.regF aModeCmd 14 12 = 0 ∧ t.cells = s.cells) ∧
  (∀ (s : State) (c : Command) (rest : List Command), s.fieldAnswers = true →
    s.command 0x10#8 = some (c, s.takeCommand rest) →
    (c.a0 = 1 → s.loadAccepted = true → (s.mode.mode = .safe → s.fatal = false ∧ s.flt.safeLine = false) →
      (∀ b, s.loadSlot (fld c.a1 1 0) = some b → s.slotValid b = true) →
      ∃ t, exec (.loadCommand .ring) s = .next t ∧ t.mode.mode = .load ∧ t.mode.loaded = false ∧
        (s.mode.mode ≠ .load → ∀ p, (t.cell p).stopped = true) ∧
        t.hor.cmdQ = rest ∧ t.hor.cplQ.map (fun x => x.status) = [0#8]) ∧
    (c.a0 = 2 → s.mode.mode = .load → s.mode.lstate = .done → ∃ t, exec (.runCommand .ring) s = .next t ∧
      t.running = true ∧ t.hor.cmdQ = rest ∧ t.hor.cplQ.map (fun x => x.status) = [0#8]) ∧
    (c.a0 = 3 → (s.mode.mode = .load ∨ s.running = true) → ∃ t, exec (.safeCommand .ring) s = .next t ∧
      t.mode.mode = .safe ∧ t.hor.cmdQ = rest ∧ t.hor.cplQ.map (fun x => x.status) = [0#8]) ∧
    (c.a0 = 4 → s.mode.mode = .load → s.loadAccepted = true → ∃ t, exec (.retestCommand .ring) s = .next t ∧
      t.mode.mode = .test ∧ t.mode.retest = true ∧ t.hor.cmdQ = rest ∧
      t.hor.cplQ.map (fun x => x.status) = [0#8]) ∧
    (c.a0 = 5 → s.running = true → s.mode.trial = true → ∃ t, exec (.commit .ring) s = .next t ∧
      t.mode.activeB = s.mode.slotB ∧ t.mode.trial = false ∧ t.hor.cmdQ = rest ∧
      t.hor.cplQ.map (fun x => x.status) = [0#8])) ∧
  (∀ (v : Word) (s : State), s.fieldOn = true →
    ∃ t, exec (.modeBootWrite v) s = .next t ∧
      t.mode = { s.mode with
        standalone := v.getLsbD 8, autoload := v.getLsbD 9, autorun := v.getLsbD 10
        bootSeq := s.mode.bootSeq + 1 } ∧
      t.cells = s.cells ∧ t.regs = s.regs ∧ (v &&& w32 (rsvBits aModeBoot) = 0 → t.flt = s.flt))

/-- A mode command that the mode does not accept is refused (R485, R497): LOAD while an image is being verified,
checked or written, or in TEST or LINK; LOAD out of SAFE with a fatal fault pending or the safe line broken (R375, log
entry 147); LOAD of a slot that is not valid;
RUN anywhere but after a complete load; SAFE in TEST, LINK or SAFE; RETEST outside LOAD; COMMIT while nothing runs, or
with no trial loaded. The mode unit, cells, pins and memories stay,
MODE_CMD.status holds the reason, and exactly one report of MODE_BAD is under way to the collector. The ring's command
MODE with such an op changes no mode either and completes with REFUSED. -/
def Obligations.RefusedModeCommandsChangeNoMode : Prop :=
  (∀ (c : Instr) (slot : BitVec 2) (st : Nat) (s : State), s.fieldOn = true →
    ((c = .loadCommand (.register slot) ∧ s.loadAccepted = false ∧ st = 1) ∨
     (c = .loadCommand (.register slot) ∧ s.mode.mode = .safe ∧ (s.fatal = true ∨ s.flt.safeLine = true) ∧ st = 2) ∨
     (c = .loadCommand (.register slot) ∧ s.loadAccepted = true ∧
       (s.mode.mode = .safe → s.fatal = false ∧ s.flt.safeLine = false) ∧
       (∃ b, s.loadSlot slot.toNat = some b ∧ s.slotValid b = false) ∧ st = 3) ∨
     (c = .runCommand (.register slot) ∧ ¬ (s.mode.mode = .load ∧ s.mode.lstate = .done) ∧ st = 1) ∨
     (c = .safeCommand (.register slot) ∧ s.mode.mode ≠ .load ∧ s.running = false ∧ st = 1) ∨
     (c = .retestCommand (.register slot) ∧ s.mode.mode ≠ .load ∧ st = 1) ∨
     (c = .commit (.register slot) ∧ s.running = false ∧ st = 1) ∨
     (c = .commit (.register slot) ∧ s.running = true ∧ s.mode.trial = false ∧ st = 4)) →
    ∃ t, exec c s = .next t ∧ t.mode = s.mode ∧ t.cells = s.cells ∧ t.fio = s.fio ∧ t.mem = s.mem ∧
      t.regF aModeCmd 14 12 = st ∧ ∃ r, t.flt = { s.flt with inQ := putReport r s.flt.inQ } ∧ r.source = srcModeBad) ∧
  (∀ (x : Instr) (s : State) (c : Command) (rest : List Command), s.fieldAnswers = true →
    s.command 0x10#8 = some (c, s.takeCommand rest) →
    ((c.a0 = 1 ∧ x = .loadCommand .ring ∧ (s.loadAccepted = false ∨
        (s.mode.mode = .safe ∧ (s.fatal = true ∨ s.flt.safeLine = true)) ∨
        (∃ b, s.loadSlot (fld c.a1 1 0) = some b ∧ s.slotValid b = false))) ∨
     (c.a0 = 2 ∧ x = .runCommand .ring ∧ ¬ (s.mode.mode = .load ∧ s.mode.lstate = .done)) ∨
     (c.a0 = 3 ∧ x = .safeCommand .ring ∧ s.mode.mode ≠ .load ∧ s.running = false) ∨
     (c.a0 = 4 ∧ x = .retestCommand .ring ∧ s.mode.mode ≠ .load) ∨
     (c.a0 = 5 ∧ x = .commit .ring ∧ (s.running = false ∨ s.mode.trial = false))) →
    ∃ t, exec x s = .next t ∧ t.mode = s.mode ∧ t.cells = s.cells ∧ t.fio = s.fio ∧ t.mem = s.mem ∧
      t.hor.cmdQ = rest ∧ t.hor.cplQ.map (fun x => x.status) = [4#8] ∧
      ∃ r, t.flt = { s.flt with inQ := putReport r s.flt.inQ } ∧ r.source = srcModeBad)

/-- The debug actions of the ring (R486, R487, R488), for a command at the head of the engine's queue that the engine
takes. ATTACH of a used partition with dbg, while the module runs, sets its attached bit. DETACH, HALT and RESUME act
on an attached partition: DETACH clears its bit; HALT of a Dynamic partition halts it and enters HALT, and of a
Scheduled one asks its sequencer to halt; RESUME clears the partition's halted bit. STEP moves a stopped strand of a
cell that is no checker from the debug list to the end of the resume list, to run one instruction past its stop. Each
answers one completion, with status OK. -/
def Obligations.DebugActionsTakeEffect : Prop :=
  ∀ (s : State) (c : Command) (rest : List Command), s.fieldAnswers = true → s.hor.cmdQ = c :: rest →
    s.command 0x18#8 = some (c, s.takeCommand rest) →
    (c.a0 = 1 → (s.partition (fld c.a1 2 0)).used = true → (s.partition (fld c.a1 2 0)).dbg = true →
      s.running = true → ∃ t, exec .attach s = .next t ∧
        t.mode = { s.mode with attached := s.mode.attached ||| (1 : BitVec 8) <<< fld c.a1 2 0 } ∧
        t.cells = s.cells ∧ t.hor.cmdQ = rest ∧ t.hor.cplQ.map (fun x => x.status) = [0#8]) ∧
    (c.a0 = 2 → s.attachedPart (fld c.a1 2 0) = true → ∃ t, exec .detach s = .next t ∧
        t.attachedPart (fld c.a1 2 0) = false ∧ t.mode.halted.getLsbD (fld c.a1 2 0) = false ∧
        t.hor.cmdQ = rest ∧ t.hor.cplQ.map (fun x => x.status) = [0#8]) ∧
    (c.a0 = 3 → s.attachedPart (fld c.a1 2 0) = true → ∃ t, exec .haltAction s = .next t ∧
        (s.running = true → (s.partition (fld c.a1 2 0)).sched = false →
          t.mode.mode = .halt ∧ t.mode.halted.getLsbD (fld c.a1 2 0) = true) ∧
        ((s.partition (fld c.a1 2 0)).sched = true → (t.part (fld c.a1 2 0)).haltAsk = true) ∧
        t.cells = s.cells ∧ t.hor.cmdQ = rest ∧ t.hor.cplQ.map (fun x => x.status) = [0#8]) ∧
    (c.a0 = 4 → s.attachedPart (fld c.a1 2 0) = true → ∃ t, exec .resume s = .next t ∧
        t.mode.halted.getLsbD (fld c.a1 2 0) = false ∧ t.mode.attached = s.mode.attached ∧
        t.hor.cmdQ = rest ∧ t.hor.cplQ.map (fun x => x.status) = [0#8]) ∧
    (c.a0 = 5 → fld c.a1 8 0 < s.variant.pcells → s.checks (fld c.a1 8 0) = false →
      ((s.cell (fld c.a1 8 0)).stopped? (BitVec.ofNat 14 (fld c.a2 13 0))).isSome = true →
      ∃ t u, exec .step s = .next t ∧ t.mode = s.mode ∧
        (s.cell (fld c.a1 8 0)).stopped? (BitVec.ofNat 14 (fld c.a2 13 0)) = some u ∧
        (t.cell (fld c.a1 8 0)).resume = (s.cell (fld c.a1 8 0)).resume ++
          [{ u with passBrk := isBrk ((s.cell (fld c.a1 8 0)).fetchWord u), stepping := true, wait := .nothing }] ∧
        (∀ x ∈ (t.cell (fld c.a1 8 0)).debugList, x.uid ≠ u.uid) ∧
        t.hor.cmdQ = rest ∧ t.hor.cplQ.map (fun x => x.status) = [0#8])


/-! ### Faults -/

/-- The collector takes the report that comes first among those that wait (R350, R351, R354); one that a unit raises now
comes after those of earlier cycles and, in its own cycle, after those of lower sources (R350, R357). Where the
reaction is LOG, the source's pending bit is set, the report leaves the queue, the mode, the cells, the field I/O and
zenith stay, and the class's record, where it was empty, holds the report's address, syndrome and FLT_REC_INFO word.
Where the reaction is SAFE, the module enters SAFE and no pin is driven (R354, R370). A collector whose copies disagree
(R375) enters SAFE from every mode but RESET and SAFE. In RESET a report changes nothing (R356). -/
def Obligations.CollectorTakesReports : Prop :=
  (∀ (s : State) (q : FaultIn) (rest : List FaultIn) (d : Details), s.mode.mode ≠ .reset →
    s.flt.inQ = q :: rest → q.source < 96 → q.wire = false → q.details = some d →
    s.reactionOf q.source d false = 0 →
    ∃ t, exec (.faultReport .waiting) s = .next t ∧ t.pending? q.source = true ∧ t.flt.inQ = rest ∧
      t.mode = s.mode ∧ t.cells = s.cells ∧ t.fio = s.fio ∧ t.zen = s.zen ∧
      (s.regF (aFltRecInfo (srcClass q.source)) 31 31 = 0 →
        t.reg (aFltRecAddr (srcClass q.source)) = d.addr ∧ t.reg (aFltRecSyn (srcClass q.source)) = d.syn ∧
        t.reg (aFltRecInfo (srcClass q.source)) = infoWord q.source false d.master d.access 0 (srcClass q.source))) ∧
  (∀ (s : State) (n : Nat) (d : Details), s.mode.mode ≠ .reset → n < 96 → s.flt.inQ = [] →
    (s.raisedEffect n d).reactionOf n (raisedDetails n d) false = 4 →
    ∃ t, exec (.faultReport (.raised n d)) s = .next t ∧ t.mode.mode = .safe ∧ t.pending? n = true ∧
      ∀ k, (t.pin k).drv = none) ∧
  (∀ (s : State) (n : Nat) (d : Details) (q : FaultIn) (rest : List FaultIn) (e : Details), s.mode.mode ≠ .reset →
    n < 96 → s.flt.inQ = q :: rest → ¬ (q.time = s.zen.count ∧ n < q.source) → q.source < 96 → q.wire = false →
    q.details = some e → (s.raisedEffect n d).reactionOf q.source e false = 0 →
    ∃ t, exec (.faultReport (.raised n d)) s = .next t ∧ t.pending? q.source = true ∧ t.mode = s.mode ∧
      t.flt.inQ = putReport
        { source := n, time := s.zen.count, details := some (raisedDetails n d), wire := false } rest) ∧
  (∀ s : State, s.mode.mode ≠ .reset → s.mode.mode ≠ .safe → srcFltSelf ∉ s.flt.level →
    ∃ t, exec (.faultReport .collectorSelf) s = .next t ∧ t.mode.mode = .safe ∧ ∀ k, (t.pin k).drv = none) ∧
  (∀ (r : ReportSel) (s : State), s.mode.mode = .reset → exec (.faultReport r) s = .next s)

/-- The module's own sensors and watched lines (R349, R352, R368, R475), with the field side out of RESET. A supply
outside its window asserts its source until it is inside again, and the core supply held below its window leads to
RESET. The temperature asserts TEMP_WARN and TEMP_CRIT exactly above their thresholds. A PLL out of lock and a lost
reference assert their sources. FAULT_N reading back the other level asserts FAULTN_RB. A broken wire makes its source
count as asserting; where the source does not react and no report came before, it is pending. A broken safe line leads
to SAFE and stays broken until it is healthy again. A wire that is healthy again stops counting; the barrier's own
sources end where both dies are out of reset. In RESET the begin of a supply's excursion is remembered (log entry
161). -/
def Obligations.SensorsAssertTheirSources : Prop :=
  (∀ (r : Rail) (n : Nat) (s : State), s.mode.mode ≠ .reset →
    ((r = .core ∧ n = srcVmonCore) ∨ (r = .io ∧ n = srcVmonIo) ∨ (r = .dram ∧ n = srcVmonDram)) →
    (∃ t, exec (.supplyExcursion r .above) s = .next t ∧ n ∈ t.flt.level ∧ t.mode = s.mode ∧ t.regs = s.regs) ∧
    (∃ t, exec (.supplyExcursion r .below) s = .next t ∧ n ∈ t.flt.level ∧ t.mode = s.mode ∧ t.regs = s.regs) ∧
    (∃ t, exec (.supplyExcursion r .inside) s = .next t ∧ n ∉ t.flt.level ∧ t.mode.mode = s.mode.mode)) ∧
  (∀ (r : Rail) (n : Nat) (s : State), s.mode.mode = .reset → n ∉ s.flt.level →
    ((r = .core ∧ n = srcVmonCore) ∨ (r = .io ∧ n = srcVmonIo) ∨ (r = .dram ∧ n = srcVmonDram)) →
    ∃ t, exec (.supplyExcursion r .above) s = .next t ∧ t.mode = s.mode ∧ t.flt.level = s.flt.level ∧
      ∃ x ∈ t.flt.sensed, x.1 = n) ∧
  (∀ s : State, s.mode.mode ≠ .reset →
    ∃ t, exec (.supplyExcursion .core .belowHeld) s = .next t ∧ t.mode.mode = .reset ∧ t.mode.coreLow = true) ∧
  (∀ (v : BitVec 8) (s : State), s.mode.mode ≠ .reset →
    ∃ t, exec (.temperatureThreshold v) s = .next t ∧ t.flt.temp = v ∧ t.mode = s.mode ∧
      (srcTempWarn ∈ t.flt.level ↔ (s.regF aFltTemp 15 8 : Int) < v.toInt) ∧
      (srcTempCrit ∈ t.flt.level ↔ (s.regF aFltTemp 23 16 : Int) < v.toInt)) ∧
  (∀ s : State, s.mode.mode ≠ .reset →
    (∃ t, exec (.pllUnlock none) s = .next t ∧ srcPllCore ∈ t.flt.level ∧ t.mode = s.mode ∧ t.clouds = s.clouds) ∧
    (∃ t, exec .referenceLoss s = .next t ∧ srcRefClk ∈ t.flt.level ∧ t.mode = s.mode ∧ t.zen = s.zen)) ∧
  (∀ (c : Nat) (s : State), s.mode.mode ≠ .reset → c < s.variant.clouds → (s.cloud c).pllLock = true →
    (s.cloud c).relock = false → ∃ t, exec (.pllUnlock (some c)) s = .next t ∧ srcPllCloud ∈ t.flt.level ∧
      (t.cloud c).pllLock = false ∧ ∀ d, d ≠ c → t.cloud d = s.cloud d) ∧
  (∀ (s : State) (b : Bool), s.faultN = some b → ∃ t, exec .faultNReadback s = .next t ∧
    srcFaultnRb ∈ t.flt.level ∧ t.fio.faultExt = some (!b) ∧ t.mode = s.mode) ∧
  (∀ (n : Nat) (s : State), s.mode.mode ≠ .reset → n < 96 → n ∉ s.flt.wires → s.flt.inQ = [] →
    s.reactionOf n { master := masterNone, access := accNone, addr := 0, syn := 0 } true = 0 →
    ∃ t, exec (.brokenWire (.source n)) s = .next t ∧ t.flt.wires = s.flt.wires ++ [n] ∧ t.pending? n = true ∧
      t.asserting n = true ∧ t.mode = s.mode) ∧
  (∀ s : State, s.mode.mode ≠ .reset → s.mode.mode ≠ .safe →
    ∃ t, exec (.brokenWire .safeLine) s = .next t ∧ t.mode.mode = .safe ∧ t.flt.safeLine = true ∧ ∀ k, (t.pin k).drv = none) ∧
  (∀ (n : Nat) (s : State), ∃ t, exec (.sourceHealthy (.source n)) s = .next t ∧ n ∉ t.flt.wires ∧
    (n ≤ 8 → n ∉ t.flt.level) ∧ t.mode = s.mode ∧ t.cells = s.cells ∧
    ((n = srcBarLink ∨ n = srcHostLost) → s.mode.fieldRst = true → s.mode.hostRst = true → n ∉ t.flt.level)) ∧
  (∀ s : State, exec (.sourceHealthy .safeLine) s = .next { s with flt := { s.flt with safeLine := false } })

/-- The fault registers (R352, R353, R373, R374). A write of FLT_PEND clears exactly the bits written as 1 whose
source does not assert. A 1 written to the valid bit of FLT_REC_INFO clears the whole record and its MORE where no bit
of the class is pending, after which the record captures the next report of its class, and any other write changes
nothing. FLT_SRC takes a permitted reaction outside RUN, DEGRADED, HALT and SAFE, and no other. CLEAR_COUNTS makes
every count 0 and keeps the rest of each FLT_SRC. Nothing else of the state changes, but that a write of FLT_REC_INFO
or FLT_SRC with a reserved bit set is reported (R15). While the loader checks or writes an image none of these, and no
RESTART, has an effect (R505). -/
def Obligations.FaultRegistersClearAsWritten : Prop :=
  (∀ (idx : Nat) (v : Word) (s : State), idx < 3 → s.hostWrites (aFltPend idx) = true →
    ∃ t, exec (.fltPendWrite idx v) s = .next t ∧ t = { s with regs := t.regs } ∧
      (∀ j, j < 32 → (t.reg (aFltPend idx)).getLsbD j =
        ((s.reg (aFltPend idx)).getLsbD j && !(v.getLsbD j && !s.asserting (idx * 32 + j)))) ∧
      ∀ a, a ≠ aFltPend idx → t.reg a = s.reg a) ∧
  (∀ (c : Nat) (v : Word) (s : State), c < 3 → s.hostWrites (aFltRecInfo c) = true →
    (v.getLsbD 31 = true → s.pendClass c = false →
      ∃ t, exec (.fltRecInfoWrite c v) s = .next t ∧ t = { s with regs := t.regs, flt := t.flt } ∧
        (v &&& w32 (rsvBits (aFltRecInfo c)) = 0 → t.flt = s.flt) ∧
        t.reg (aFltRecTlo c) = 0 ∧ t.reg (aFltRecThi c) = 0 ∧ t.reg (aFltRecInfo c) = 0 ∧
        t.reg (aFltRecAddr c) = 0 ∧ t.reg (aFltRecSyn c) = 0 ∧ t.reg (aFltRecMore c) = 0 ∧
        ∀ q rest d, t.flt.inQ = q :: rest → q.source < 96 → q.wire = false → srcClass q.source = c → q.details = some d →
          t.reactionOf q.source d false = 0 → ∃ u, exec (.faultReport .waiting) t = .next u ∧
            u.reg (aFltRecAddr c) = d.addr ∧ u.reg (aFltRecSyn c) = d.syn ∧ u.regF (aFltRecInfo c) 31 31 = 1) ∧
    ((v.getLsbD 31 = false ∨ s.pendClass c = true) → ∃ t, exec (.fltRecInfoWrite c v) s = .next t ∧
      t = { s with flt := t.flt } ∧ (v &&& w32 (rsvBits (aFltRecInfo c)) = 0 → t = s))) ∧
  (∀ (n : Nat) (v : Word) (s : State), n < 96 → s.hostWrites (aFltSrc n) = true →
    (s.running = false → s.mode.mode ≠ .safe → srcAllows n (fld v 2 0) = true →
      ∃ t, exec (.fltSrcWrite n v) s = .next t ∧ t = { s with regs := t.regs, flt := t.flt } ∧
        (v &&& w32 (rsvBits (aFltSrc n)) = 0 → t.flt = s.flt) ∧
        t.regF (aFltSrc n) 2 0 = fld v 2 0 ∧ ∀ a, a ≠ aFltSrc n → t.reg a = s.reg a) ∧
    ((s.running = true ∨ s.mode.mode = .safe) → exec (.fltSrcWrite n v) s = .next s) ∧
    (srcAllows n (fld v 2 0) = false → ∃ t, exec (.fltSrcWrite n v) s = .next t ∧ t = { s with flt := t.flt } ∧
      (v &&& w32 (rsvBits (aFltSrc n)) = 0 → t = s))) ∧
  (∀ s : State, s.hostWrites aFltCmd = true → ∃ t, exec .fltClearCounts s = .next t ∧ t = { s with regs := t.regs } ∧
    ∀ n, n < 96 → t.regF (aFltSrc n) 31 16 = 0 ∧ t.regF (aFltSrc n) 15 0 = s.regF (aFltSrc n) 15 0) ∧
  (∀ (idx : Nat) (v : Word) (p : BitVec 3) (s : State), s.mode.mode = .load →
    (s.mode.lstate = .check ∨ s.mode.lstate = .write) →
    ∀ c ∈ ([.fltPendWrite idx v, .fltRecInfoWrite idx v, .fltSrcWrite idx v, .fltClearCounts, .restart p] : List Instr),
      exec c s = .next s)

/-- RESTART (R362, R363) of a partition p. It is accepted where p is FAULTED, none of its pairs is in MISMATCH or
BROKEN, every logical cell of it is placed and FLT_STAT.fatal is 0: the partition's fault ends, the status is 0, the
matching stores of a Dynamic partition's cells hold no token, and a Scheduled partition enters WAIT, or HALTED where
it is halted. It is refused where the partition is not FAULTED, one of its pairs is in MISMATCH or BROKEN, one of its
cells is unplaced, or fatal is 1: nothing changes but FLT_CMD, whose status is not 0. -/
def Obligations.RestartEndsAPartitionsFault : Prop :=
  ∀ (p : BitVec 3) (s : State), s.hostWrites aFltCmd = true →
    (s.flt.faulted.getLsbD p.toNat = true →
      (∀ q ∈ s.pairs?, s.partOf q.2.2.1 = some p.toNat → s.pairState q.1 q.2.1 = 1) →
      (∀ l, l < s.variant.lcells → (s.partition p.toNat).cells.getLsbD l = true → s.placeOf l ≠ none) →
      s.fatal = false →
      ∃ t, exec (.restart p) s = .next t ∧ t.flt.faulted.getLsbD p.toNat = false ∧ t.regF aFltCmd 14 12 = 0 ∧
        (∀ q, q ≠ p.toNat → t.flt.faulted.getLsbD q = s.flt.faulted.getLsbD q) ∧
        ((s.partition p.toNat).sched = false → ∀ pc ∈ s.cellsOf p.toNat, (t.cell pc).store = []) ∧
        ((s.partition p.toNat).sched = true →
          (t.part p.toNat).state = if s.mode.halted.getLsbD p.toNat then .halted else .wait)) ∧
    (s.flt.faulted.getLsbD p.toNat = false ∨
      (∃ q ∈ s.pairs?, s.partOf q.2.2.1 = some p.toNat ∧ s.pairState q.1 q.2.1 ≠ 1) ∨
      (∃ l, l < s.variant.lcells ∧ (s.partition p.toNat).cells.getLsbD l = true ∧ s.placeOf l = none) ∨
      s.fatal = true →
      ∃ t, exec (.restart p) s = .next t ∧ t = { s with regs := t.regs } ∧ t.regF aFltCmd 14 12 ≠ 0 ∧
        t.regF aFltCmd 10 8 = p.toNat ∧ ∀ a, a ≠ aFltCmd → t.reg a = s.reg a)


/-! ### Zenith -/

/-- SYNC_RESULT (R385, R386, R387, R390), with a result at the head of the queue. A result without its Follow_Up, with
the seq of the latest one, or more than 1 s off in LOCKED or HOLDOVER is discarded: zenith keeps its count, rate,
state and offset. Any other result with disc_en = 0 only sets the offset. With disc_en = 1: UNLOCKED becomes
ACQUIRING; an offset above 1000 ns, outside RUN, DEGRADED and HALT or at most 1 s, steps the count by it where the new
count is in range; LOCKED with at most 50 ns stays LOCKED at its count; a third result in a row above 50 ns leaves
LOCKED for ACQUIRING; a sixteenth result in a row of at most 8 ns makes ACQUIRING LOCKED; a fourth of at most 50 ns
makes HOLDOVER LOCKED. That the result that enters ACQUIRING counts by the rules of ACQUIRING, too, is inferred (log
entry 92). -/
def Obligations.SyncResultsMoveZenith : Prop :=
  ∀ (s : State) (r : SyncRes) (rest : List SyncRes) (off : Int), s.zen.syncQ = r :: rest → off = r.t2z - r.master →
    ((r.complete = false ∨ s.zen.lastSeq = some r.seq ∨
        ((s.zen.state = .locked ∨ s.zen.state = .holdover) ∧ 1000000000 < off.natAbs)) →
      ∃ t, exec .syncResult s = .next t ∧ t.zen = { s.zen with syncQ := rest } ∧ t.rate = s.rate ∧ t.mode = s.mode) ∧
    (r.complete = true → s.zen.lastSeq ≠ some r.seq →
        ¬ ((s.zen.state = .locked ∨ s.zen.state = .holdover) ∧ 1000000000 < off.natAbs) →
      (s.regF aZenCtrl 0 0 = 0 → ∃ t, exec .syncResult s = .next t ∧ t.rate = s.rate ∧
        t.zen = { s.zen with syncQ := rest, offset := some off, lastSeq := some r.seq, lastSync := s.zen.count }) ∧
      (s.regF aZenCtrl 0 0 = 1 → ∃ t, exec .syncResult s = .next t ∧ t.zen.syncQ = rest ∧ t.zen.offset = some off ∧
        (s.zen.state = .unlocked → t.zen.state = .acquiring) ∧
        ((s.zen.state = .unlocked ∨ s.zen.state = .acquiring) → 1000 < off.natAbs →
          (s.running = false ∨ off.natAbs ≤ 1000000000) → 0 ≤ (s.zen.count : Int) - off →
          (s.zen.count : Int) - off < 2 ^ 63 → (t.zen.count : Int) = s.zen.count - off ∧ t.zen.state = .acquiring) ∧
        (off.natAbs ≤ 1000 → t.zen.count = s.zen.count) ∧
        (s.zen.state = .locked → off.natAbs ≤ 50 → t.zen.state = .locked ∧ t.zen.run = 0) ∧
        (s.zen.state = .locked → 50 < off.natAbs → 2 ≤ s.zen.run → t.zen.state = .acquiring) ∧
        (s.zen.state = .acquiring → off.natAbs ≤ 8 → 15 ≤ s.zen.run → t.zen.state = .locked) ∧
        (s.zen.state = .holdover → off.natAbs ≤ 50 → 3 ≤ s.zen.run → t.zen.state = .locked)))

/-- The timeouts and register commands of zenith. SYNC_TIMEOUT (R387) makes ACQUIRING UNLOCKED and LOCKED HOLDOVER,
and changes no other state; HOLDOVER_EXPIRY makes HOLDOVER UNLOCKED; neither moves the count. SET, in UNLOCKED or with
disc_en = 0, and STEP with an offset known, move the count to the value in ZEN_SET and to the count less the offset
(R386, R390), and STEP ends a slew at the largest rate; each reports status 0 with done set. A SET that is not allowed
answers 1, one out of range 2, a STEP without an offset 3, and none of these moves the count. disc_en written 0
outside RUN, DEGRADED and HALT makes zenith UNLOCKED, and a hold of 0 is stored as 1 (R387, R397). A read of ZEN_NOWLO
captures the count (R381). -/
def Obligations.ZenithCommandsAndTimeouts : Prop :=
  (∀ s : State, (∃ t, exec .syncTimeout s = .next t ∧ t.zen.count = s.zen.count ∧
      (s.zen.state = .acquiring → t.zen.state = .unlocked) ∧ (s.zen.state = .locked → t.zen.state = .holdover)) ∧
    (s.zen.state = .unlocked ∨ s.zen.state = .holdover → exec .syncTimeout s = .next s) ∧
    (s.zen.state = .holdover → ∃ t, exec .holdoverExpiry s = .next t ∧ t.zen.state = .unlocked ∧
      t.zen.count = s.zen.count) ∧
    (s.zen.state ≠ .holdover → exec .holdoverExpiry s = .next s)) ∧
  (∀ (s : State) (n : Nat), s.hostWrites aZenCmd = true → n = (s.reg aZenSethi).toNat * 2 ^ 32 + (s.reg aZenSetlo).toNat →
    ((s.zen.state = .unlocked ∨ s.regF aZenCtrl 0 0 = 0) → n < 2 ^ 63 →
      ∃ t, exec .zenCmdSet s = .next t ∧ t.zen.count = n ∧ t.zen.state = s.zen.state ∧
        t.regF aZenCmd 9 8 = 0 ∧ t.regF aZenCmd 15 15 = 1) ∧
    ((s.zen.state = .unlocked ∨ s.regF aZenCtrl 0 0 = 0) → 2 ^ 63 ≤ n →
      ∃ t, exec .zenCmdSet s = .next t ∧ t.zen = s.zen ∧ t.regF aZenCmd 9 8 = 2) ∧
    (s.zen.state ≠ .unlocked → s.regF aZenCtrl 0 0 ≠ 0 →
      ∃ t, exec .zenCmdSet s = .next t ∧ t.zen = s.zen ∧ t.regF aZenCmd 9 8 = 1)) ∧
  (∀ s : State, s.hostWrites aZenCmd = true →
    (∀ off, s.zen.offset = some off → 0 ≤ (s.zen.count : Int) - off → (s.zen.count : Int) - off < 2 ^ 63 →
      ∃ t, exec .zenCmdStep s = .next t ∧ (t.zen.count : Int) = s.zen.count - off ∧
        t.zen.farOff = false ∧ t.regF aZenCmd 9 8 = 0) ∧
    (s.zen.offset = none → ∃ t, exec .zenCmdStep s = .next t ∧ t.zen = s.zen ∧ t.regF aZenCmd 9 8 = 3) ∧
    (∀ v : Word, s.hostWrites aZenCtrl = true → s.running = false → fld v 0 0 = 0 → ∃ t, exec (.discEnWrite v) s = .next t ∧
      t.zen.state = .unlocked ∧ t.regF aZenCtrl 0 0 = 0 ∧ t.zen.count = s.zen.count) ∧
    (∀ v : Word, s.hostWrites aZenCtrl = true → s.running = true → ∃ t, exec (.discEnWrite v) s = .next t ∧ t.zen = s.zen ∧
      t.regF aZenCtrl 0 0 = s.regF aZenCtrl 0 0 ∧
      t.regF aZenCtrl 15 8 = (if fld v 15 8 = 0 then 1 else fld v 15 8)) ∧
    exec .zenNowloRead s = .next { s with zen := { s.zen with captured := s.zen.count } })

/-- TIMER_TICK (R394, R395) of an enabled timer of a loaded module whose next tick is due: the timer goes on to the
next tick. The event of the tick, with the tick number as its value and the tick's own line time, is posted to the
dispatcher's timer queue where that has room, and is held where it has none; while one is held, a further tick is lost
and counted in ZEN_TMR_STAT. A timer that is not enabled or not due, and a module not loaded, leave everything as it
is. -/
def Obligations.TimerTicksPostEventsOrAreHeld : Prop :=
  ∀ (n : Nat) (s : State), n < 16 →
    (s.timerOn n = true → s.mode.loaded = true → s.tickTime n (s.timer n).next ≤ s.zen.count →
      ∃ t, exec (.timerTick n) s = .next t ∧ (t.timer n).next = (s.timer n).next + 1 ∧ t.mode = s.mode ∧
        t.cells = s.cells ∧ t.zen.count = s.zen.count ∧
        ((s.timer n).pending = none → s.eventRoom 4 = true →
          tget (fun _ => []) t.dsp.events 4 = tget (fun _ => []) s.dsp.events 4 ++
            [s.tickEvent n (s.timer n).next (s.tickTime n (s.timer n).next) s.isLocal] ∧ t.regs = s.regs) ∧
        ((s.timer n).pending = none → s.eventRoom 4 = false → t.dsp = s.dsp ∧
          (t.timer n).pending = some ((s.timer n).next, s.tickTime n (s.timer n).next, s.isLocal)) ∧
        ((s.timer n).pending ≠ none → (t.timer n).pending = (s.timer n).pending ∧ t.dsp = s.dsp ∧
          t.regF (aZenTmrStat n) 15 0 = min 65535 (s.regF (aZenTmrStat n) 15 0 + 1))) ∧
    ((s.timerOn n = false ∨ s.mode.loaded = false ∨ s.zen.count < s.tickTime n (s.timer n).next) →
      exec (.timerTick n) s = .next s)

/-- The timing messages (R382, R383, R384, R396, R437). With the barrier up the field side sends one marker in each
millisecond of the count, with the count as it is sent. With HOST_RST_N high: a Sync is kept with its arrival and
departures, each a multiple of the horizon counter's 2 ns; a Follow_Up takes the Sync with its seq out of the kept
ones, and where port 0 is at step 9 the sync result crosses the barrier (before the first marker its zenith time is a
free value, log entry 146); a Delay_Req goes out of port 0 when it is at step 8 or 9, and its departure is kept under
the next seq; a Delay_Req from downstream is answered on its port with arrival b and corr (c - b) in 2^-16 ns; a
Delay_Resp to a kept request gives the delay ((d - a) - (c - b)) / 2 as the newest of at most 16 results. -/
def Obligations.TimingMessagesAreKeptAndAnswered : Prop :=
  (∀ s : State, s.mode.fieldRst = true → s.bar.up = true → s.zen.count / 1000000 ≠ s.zen.marked →
    ∃ t, exec .timeMarker s = .next t ∧ t.bar.toHost = s.bar.toHost ++ [.marker s.zen.count] ∧
      t.zen = { s.zen with marked := s.zen.count / 1000000 } ∧ t.hor = s.hor ∧ exec .timeMarker t = .next t) ∧
  (∀ (m : TimingMsg) (a : BitVec 64) (ds : List (Nat × BitVec 64)) (s : State), s.mode.hostRst = true → m.kind = 1 →
    ∃ t, exec (.sync m a ds) s = .next t ∧ t.hor.syncs = [(m.seq, evenTime a, ds.map (fun (d : Nat × BitVec 64) => (d.1, evenTime d.2)))] ∧
      t.zen = s.zen ∧ t.cells = s.cells) ∧
  (∀ (m : TimingMsg) (a : BitVec 64) (ds : List (Nat × BitVec 64)) (s : State), s.mode.hostRst = true → m.kind = 2 →
    s.hor.syncs = [(m.seq, a, ds)] →
    ∃ t, exec (.followUp m) s = .next t ∧ t.hor.syncs = [] ∧ t.zen = s.zen ∧
      (s.regF (aLnkStat 0) 3 0 ≠ 9 → t.bar = s.bar) ∧
      (s.regF (aLnkStat 0) 3 0 = 9 → s.toZenith a.toNat = none → ∃ r, t.bar.toField = s.bar.toField ++ [.syncResult r] ∧
        r.seq = m.seq ∧ r.complete = true ∧ r.master = (m.time.toNat : Int) + m.corr.toInt / 65536 + s.dlink) ∧
      (∀ z, s.regF (aLnkStat 0) 3 0 = 9 → s.toZenith a.toNat = some z → t.bar.toField = s.bar.toField ++ [.syncResult
        { seq := m.seq, master := (m.time.toNat : Int) + m.corr.toInt / 65536 + s.dlink, t2z := z, complete := true }])) ∧
  (∀ (d : BitVec 64) (s : State), s.mode.hostRst = true → (s.regF (aLnkStat 0) 3 0 = 8 ∨ s.regF (aLnkStat 0) 3 0 = 9) →
    ∃ t, exec (.delayReqSend d) s = .next t ∧ t.hor.delays = s.hor.delays ++ [(s.hor.delaySeq, evenTime d)] ∧
      t.hor.delaySeq = s.hor.delaySeq + 1 ∧ (t.link 0).txSeq = (s.link 0).txSeq + 1 ∧ t.regs = s.regs) ∧
  (∀ (k : Nat) (m : TimingMsg) (b c : BitVec 64) (s : State), 1 ≤ k → k ≤ s.variant.dsports → s.mode.hostRst = true →
    m.kind = 3 → ∃ t f, exec (.delayReq k m b c) s = .next t ∧ (t.link k).txSeq = (s.link k).txSeq + 1 ∧
      (t.link k).sent.getLast? = some f ∧ f.type = 0x10#8 ∧ f.seq = (s.link k).txSeq ∧ f.payload = timingBytes
        { kind := 4, seq := m.seq, origin := BitVec.ofNat 16 s.device, time := evenTime b
          corr := (evenTime c - evenTime b) * 65536 }) ∧
  (∀ (m : TimingMsg) (d a : BitVec 64) (s : State), s.mode.hostRst = true → m.kind = 4 →
    s.hor.delays.find? (fun q => q.1 = m.seq) = some (m.seq, a) →
    ∃ t, exec (.delayResp m d) s = .next t ∧
      t.hor.dlinks = (((evenTime d - a).toInt - m.corr.toInt / 65536) / 2 :: s.hor.dlinks).take 16 ∧
      (∀ q ∈ t.hor.delays, q.1 ≠ m.seq) ∧ t.zen = s.zen ∧
      (s.mode.mode ≠ .reset → t.regF aZenDelay 15 0 = sat 0xFFFF t.dlink.toNat) ∧
      (s.mode.mode = .reset → t.regs = s.regs))


/-! ### The field side -/

/-- No field output is driven outside the modes that drive them (R369, R370, R399): from every state in which the field
I/O is configured where a load is complete or the module runs, is not configured in RESET, TEST and LINK, and in which
in SAFE and wherever it is not configured no TIO pin is driven and no release waits, every step leaves such a state,
whatever command it runs, or none. -/
def Obligations.StepNeverDrivesOutputsOutsideRun : Prop :=
  ∀ s t : State, OutputsOff s → step s = .next t → OutputsOff t

/-- CAPTURE_EDGE and QUADRATURE_STEP (R403, R404, R406) on a live field I/O, for an edge not later than zenith's
count. A level that a pin does not hold for TIO_CFG.filt times 4 ns, and a level that the filter has passed already,
are no edge: nothing is captured. An enabled edge of a capture pin with an empty FIFO, while the dispatcher's input
queue has room, is posted to that queue with the pin's flow and the edge's flag, value and time at 2 ns resolution;
with no room it waits in the FIFO; with the FIFO full it is lost and counted. A quadrature transition of one of the
two pins changes TIO_QCNT by exactly one, up or down (a free value says which, log entry 11); transitions of both pins
within one capture interval of 2 ns leave the count as it was before the interval, and are counted once in TIO_STAT.
That a lost edge is counted in TIO_STAT.ovr alone is inferred (log entry 95). -/
def Obligations.CapturesBecomeEvents : Prop :=
  (∀ (pin time held : Nat) (up : Bool) (s : State), pin < s.variant.pins →
    (s.passesFilter pin held = false ∨ (s.pin pin).stable = up) →
    ∃ t, exec (.captureEdge pin up ⟨time, held⟩) s = .next t ∧ (t.pin pin).ext = some up ∧ t.regs = s.regs ∧
      t.dsp = s.dsp ∧ t.flt = s.flt ∧ (t.pin pin).capQ = (s.pin pin).capQ ∧ (t.pin pin).stable = (s.pin pin).stable) ∧
  (∀ (pin time held : Nat) (up : Bool) (s : State), pin < s.variant.pins → s.fieldLive = true → s.pinFunc pin = 1 →
    s.regF (aTioCfg pin) (if up then 3 else 4) (if up then 3 else 4) = 1 → time ≤ s.zen.count →
    s.regF (aTioCfg pin) 31 24 * 4 ≤ held → (s.pin pin).stable ≠ up →
    ∃ t, exec (.captureEdge pin up ⟨time, held⟩) s = .next t ∧ (t.pin pin).ext = some up ∧ (t.pin pin).stable = up ∧
      t.mode = s.mode ∧ t.cells = s.cells ∧ t.mem = s.mem ∧
      ((s.pin pin).capQ = [] → s.eventRoom 1 = true → (t.pin pin).capQ = [] ∧
        ∃ e, t.events 1 = s.events 1 ++ [e] ∧ e.time = time - time % 2 ∧ e.value = BitVec.ofNat 32 (time - time % 2) ∧
          e.flow = BitVec.ofNat 12 (s.regF (aTioFlow pin) 11 0) ∧
          e.flag = BitVec.ofNat 5 (if up then s.regF (aTioCfg pin) 9 5 else s.regF (aTioCfg pin) 14 10)) ∧
      (s.eventRoom 1 = false → (s.pin pin).capQ.length < 16 → t.events 1 = s.events 1 ∧
        (t.pin pin).capQ = (s.pin pin).capQ ++ [{ time := time - time % 2, local_ := s.isLocal, rising := up, count := none }]) ∧
      (16 ≤ (s.pin pin).capQ.length → (t.pin pin).capQ = (s.pin pin).capQ ∧ t.dsp = s.dsp ∧
        t.regF (aTioStat pin) 31 24 = min 255 (s.regF (aTioStat pin) 31 24 + 1))) ∧
  (∀ (pin time : Nat) (a b : Bool) (s : State) (iv : QuadInterval), pin < s.variant.pins → pin % 2 = 0 →
    s.fieldLive = true → s.pinFunc pin = 4 → time ≤ s.zen.count → iv = s.quadInterval pin time → iv.bad = false →
    ∃ t, exec (.quadratureStep pin a b time) s = .next t ∧ (t.pin pin).quadA = a ∧ (t.pin pin).quadB = b ∧
      t.mode = s.mode ∧
      ((a = (s.pin pin).quadA ∧ b ≠ (s.pin pin).quadB) ∨ (a ≠ (s.pin pin).quadA ∧ b = (s.pin pin).quadB) →
        ¬ (a ≠ iv.a ∧ b ≠ iv.b) →
        t.reg (aTioQcnt pin) = s.reg (aTioQcnt pin) + 1 ∨ t.reg (aTioQcnt pin) = s.reg (aTioQcnt pin) - 1) ∧
      ((a ≠ (s.pin pin).quadA ∨ b ≠ (s.pin pin).quadB) → a ≠ iv.a → b ≠ iv.b → t.reg (aTioQcnt pin) = iv.count ∧
        t.regF (aTioStat pin) 31 24 = min 255 (s.regF (aTioStat pin) 31 24 + 1)))

/-- RELEASE_TOKEN (R370, R392, R408, R410): the token at the head of the field I/O's queue leaves the queue whatever
becomes of it. In SAFE, or with the field I/O not configured (log entry 98), nothing else changes. A release that the
lock state does not permit is counted in ZEN_CNT, reported as ZEN_REL_REFUSED and queued nowhere. An action or parameter
that is not accepted, and a pin action for a pin of a FAULTED partition, is counted in TIO_ACNT. A pin action with less
than 40 ns left is late: reported as TIO_LATE, counted, and with lpol 0 discarded. One with room in the pin's queue
enters it with its time, action and parameter, and no register changes; a seventeenth is reported as TIO_QFULL and not
queued. A serial action whose time is still to come waits for it at its port. -/
def Obligations.ReleaseTokensAreCheckedAndQueued : Prop :=
  ∀ (s : State) (tok : Token) (sender : Nat) (rest : List (Token × Nat)) (action pin param : Nat) (R : Int),
    s.fio.inQ = (tok, sender) :: rest → action = fld tok.value 11 8 → pin = fld tok.value 5 0 →
    param = fld tok.value 31 16 → R = releaseTime s.zen.count tok.stamp tok.value →
    (s.fieldLive = false → exec .releaseToken s = .next { s with fio := { s.fio with inQ := rest } }) ∧
    (s.fieldLive = true → s.mode.mode ≠ .reset → s.releaseAllowed tok.flow = false →
      ∃ t r, exec .releaseToken s = .next t ∧ t.fio = { s.fio with inQ := rest } ∧ t.mode = s.mode ∧
        t.cells = s.cells ∧ t.regF (aZenCnt 5) 31 0 = min (2 ^ 32 - 1) (s.regF (aZenCnt 5) 31 0 + 1) ∧
        t.flt.inQ = putReport r s.flt.inQ ∧ r.source = srcZenRelRefused) ∧
    (s.fieldLive = true → s.releaseAllowed tok.flow = true →
      (s.actionOk action pin param = false ∨ (action ≤ 5 ∧ s.pinFaulted pin = true)) →
      ∃ t, exec .releaseToken s = .next t ∧ t.fio = { s.fio with inQ := rest } ∧ t.flt = s.flt ∧
        t.regF aTioAcnt 15 0 = min 65535 (s.regF aTioAcnt 15 0 + 1)) ∧
    (s.fieldLive = true → s.mode.mode ≠ .reset → s.releaseAllowed tok.flow = true → s.actionOk action pin param = true →
      action ≤ 5 → s.pinFaulted pin = false →
      (R < (s.zen.count : Int) + 40 → s.regF (aTioCfg pin) 15 15 = 0 →
        ∃ t r, exec .releaseToken s = .next t ∧ t.fio = { s.fio with inQ := rest } ∧
          t.regF aTioAcnt 31 16 = min 65535 (s.regF aTioAcnt 31 16 + 1) ∧
          t.flt.inQ = putReport r s.flt.inQ ∧ r.source = srcTioLate) ∧
      ((s.zen.count : Int) + 40 ≤ R → ∃ t, exec .releaseToken s = .next t ∧ t.fio.inQ = rest ∧ t.regs = s.regs ∧
        t.zen = s.zen ∧
        (16 ≤ (s.pin pin).relQ.length → t.pin pin = s.pin pin ∧
          ∃ r, t.flt.inQ = putReport r s.flt.inQ ∧ r.source = srcTioQfull) ∧
        ((s.pin pin).relQ.length < 16 → t.flt = s.flt ∧ (∀ n, n ≠ pin → t.pin n = s.pin n) ∧
          (t.pin pin).relQ.length = (s.pin pin).relQ.length + 1 ∧
          ∃ r ∈ (t.pin pin).relQ, r.action = BitVec.ofNat 4 action ∧ r.param = BitVec.ofNat 16 param ∧
            r.flow = tok.flow ∧ r.time = R))) ∧
    (s.fieldLive = true → s.releaseAllowed tok.flow = true → s.actionOk action pin param = true → 5 < action →
      (s.zen.count : Int) < R → ∃ t, exec .releaseToken s = .next t ∧ t.fio.inQ = rest ∧ t.regs = s.regs ∧
        t.flt = s.flt ∧ t.fio.pins = s.fio.pins ∧ (t.port pin).tx = (s.port pin).tx ∧
        (t.port pin).relQ.length = (s.port pin).relQ.length + 1 ∧
        ∃ r ∈ (t.port pin).relQ, r.action = BitVec.ofNat 4 action ∧ r.param = BitVec.ofNat 16 param ∧ r.time = R)

/-- The pin actions at their release time (R409, R411, R412), for a due and permitted release at the head of the pin's
queue: LOW, HIGH and TOGGLE drive the pin low, high and to the other level and end a running pulse; HIZ releases the pin
and stops its PWM; PULSE drives the opposite of the level before it (before the running pulse, where one runs), for
param times 4 ns from the release time, and PULSE_END restores that level; DUTY waits for the next PWM period. The
release leaves the queue; the pin keeps the cycle of a change of its level, and a readback failure that the change ends
is over (R413); no other pin, register, cell or memory changes. -/
def Obligations.PinActionsDriveThePin : Prop :=
  (∀ (pin : Nat) (s : State) (r : Release) (rest : List Release) (p : Pin), pin < s.variant.pins → s.fieldLive = true →
    (s.pin pin).relQ = r :: rest → r.time ≤ s.zen.count → s.releaseAllowed r.flow = true →
    p = (s.pin pin).settled s.zen.cycle { s.pin pin with relQ := rest } →
    ∀ (c : Instr) (code : Nat) (q : Pin) (before : Level), r.action.toNat = code →
      before = (p.pulse.map PulseRun.before).getD p.drv →
      ((c = .low pin ∧ code = 0 ∧ q = { p with drv := some false, pulse := none }) ∨
       (c = .high pin ∧ code = 1 ∧ q = { p with drv := some true, pulse := none }) ∨
       (c = .toggle pin ∧ code = 2 ∧ q = { p with drv := some (!(p.drv.getD false)), pulse := none }) ∨
       (c = .hiz pin ∧ code = 3 ∧ q = { p with drv := none, pulse := none, pwmOn := false, dutyAt := none }) ∨
       (c = .pulse pin ∧ code = 4 ∧ q = { p with
          drv := some (!(before.getD false)), pulse := some { before, ends := r.time.toNat + r.param.toNat * 4 } }) ∨
       (c = .duty pin ∧ code = 5 ∧ q = { p with dutyAt := some (r.param.toNat, r.time.toNat) })) →
      ∃ t, exec c s = .next t ∧ t.pin pin = p.settled s.zen.cycle q ∧ (∀ n, n ≠ pin → t.pin n = s.pin n) ∧
        t.regs = s.regs ∧ t.flt = s.flt ∧ t.dsp = s.dsp ∧ t.cells = s.cells ∧ t.mem = s.mem ∧ t.zen = s.zen) ∧
  (∀ (pin : Nat) (s : State), pin < s.variant.pins →
    ((s.pin pin).pulse = none → exec (.pulseEnd pin) s = .next s) ∧
    ∀ q : PulseRun, (s.pin pin).pulse = some q → ∃ t, exec (.pulseEnd pin) s = .next t ∧ t.regs = s.regs ∧
      (q.ends ≤ s.zen.count →
        t.pin pin = (s.pin pin).settled s.zen.cycle { s.pin pin with drv := q.before, pulse := none }) ∧
      (s.zen.count < q.ends → t = s))

/-- PWM, readback and the pin's configuration (R411, R412, R413). At the first count of a period, a running PWM pin of a
partition that is not FAULTED is low for duty 0 or period 0, high for duty 0xFFFF, and else high until its share of the
period has passed; a DUTY whose time has come is taken first, and starts a pin that HIZ has stopped. A period starts
once. A driven pin that reads back the other level, 3 µs after the last change of its level, asserts TIO_READBACK (log
entry 145), until the levels agree again. A write of TIO_CFG in RUN, DEGRADED or HALT changes only filt, flvl and init,
and no pin; elsewhere a change of func discards the pin's releases and its pulse. -/
def Obligations.PwmReadbackAndPinConfiguration : Prop :=
  (∀ (pin len start : Nat) (s : State), pin < s.variant.pins → s.fieldLive = true → s.running = true →
    s.pinFunc pin = 3 → s.pinFaulted pin = false → len = s.regF (aTioPwm pin) 31 0 * 4 →
    start = (if len = 0 then s.zen.count else s.zen.count / len * len) →
    ((s.pin pin).pwmAt = some start → exec (.pwmPeriodStart pin) s = .next s) ∧
    ((s.pin pin).pwmAt ≠ some start → ∃ t, exec (.pwmPeriodStart pin) s = .next t ∧ t.regs = s.regs ∧
      (∀ n, n ≠ pin → t.pin n = s.pin n) ∧ (t.pin pin).pwmAt = some start ∧
      (∀ d R, (s.pin pin).dutyAt = some (d, R) → R ≤ start →
        (t.pin pin).duty = d ∧ (t.pin pin).dutyAt = none ∧ (t.pin pin).pwmOn = true) ∧
      ((s.pin pin).dutyAt = none → (t.pin pin).duty = (s.pin pin).duty ∧ (t.pin pin).pwmOn = (s.pin pin).pwmOn) ∧
      ((t.pin pin).pwmOn = false → (t.pin pin).drv = (s.pin pin).drv) ∧
      ((t.pin pin).pwmOn = true →
        (len = 0 ∨ (t.pin pin).duty = 0 → (t.pin pin).drv = some false) ∧
        (len ≠ 0 → (t.pin pin).duty = 0xFFFF → (t.pin pin).drv = some true) ∧
        (len ≠ 0 → (t.pin pin).duty ≠ 0 → (t.pin pin).duty ≠ 0xFFFF → (t.pin pin).drv = some true ∧
          (t.pin pin).pulse = some { before := some false, ends := start + len * (t.pin pin).duty / 65536 })))) ∧
  (∀ (pin : Nat) (b : Bool) (s : State), pin < s.variant.pins → s.mode.mode ≠ .reset → (s.pin pin).drv = some b →
    ((s.pin pin).drvAt + 3000 ≤ s.zen.cycle → ∃ t, exec (.readbackMismatch pin) s = .next t ∧
      srcTioReadback ∈ t.flt.level ∧ (t.pin pin).rb = true ∧ (t.pin pin).drv = some b ∧ t.regs = s.regs) ∧
    (s.zen.cycle < (s.pin pin).drvAt + 3000 → exec (.readbackMismatch pin) s = .next s) ∧
    ((s.pin pin).rb = true → ∃ t, exec (.sourceHealthy (.readback pin)) s = .next t ∧ (t.pin pin).rb = false ∧
      (t.pin pin).ext = none ∧ t.regs = s.regs ∧
      (t.fio.pins.all (fun e => !e.2.rb) = true → srcTioReadback ∉ t.flt.level))) ∧
  (∀ (pin : Nat) (v : Word) (s : State), pin < s.variant.pins → s.hostWrites (aTioCfg pin) = true →
    (s.running = true → ∃ t, exec (.tioCfgWrite pin v) s = .next t ∧ t.fio = s.fio ∧
      t.regF (aTioCfg pin) 31 24 = fld v 31 24 ∧ t.regF (aTioCfg pin) 19 18 = fld v 19 18 ∧
      t.regF (aTioCfg pin) 17 16 = fld v 17 16 ∧ t.regF (aTioCfg pin) 15 0 = s.regF (aTioCfg pin) 15 0 ∧
      t.regF (aTioCfg pin) 23 20 = s.regF (aTioCfg pin) 23 20) ∧
    (s.running = false → ∃ t, exec (.tioCfgWrite pin v) s = .next t ∧ t.reg (aTioCfg pin) = v &&& 0xFF7FFFFF#32 ∧
      (fld v 2 0 ≠ s.regF (aTioCfg pin) 2 0 → (t.pin pin).relQ = [] ∧ (t.pin pin).pulse = none) ∧
      (fld v 2 0 = s.regF (aTioCfg pin) 2 0 → t.fio = s.fio)))

/-- The serial actions (R409, R416, R417) at the head of a live port's queue, due and permitted. With room in the 256-byte
FIFO, as it stands after what has been sent by then (log entry 144), TXB appends its byte, TXH its two bytes, low byte
first, TXEND the frame-end marker and I2C_START its address phase, the action leaves the queue, and a UART's DE is high
for a byte. Where the FIFO has no room the action is discarded and reported as TIO_QFULL. -/
def Obligations.SerialActionsFillTheFifo : Prop :=
  ∀ (port : Nat) (s : State) (r : Release) (rest : List Release), port < s.variant.sports → s.fieldLive = true →
    s.portOn port = true → (s.port port).relQ = r :: rest → r.time ≤ s.zen.count → s.releaseAllowed r.flow = true →
    ∀ (c : Instr) (code : Nat) (es : List TxEntry), r.action.toNat = code →
      ((c = .txb port ∧ code = 8 ∧ es = [.byte (r.param.setWidth 8)]) ∨
       (c = .txh port ∧ code = 9 ∧ es = [.byte (r.param.setWidth 8), .byte ((r.param >>> 8).setWidth 8)]) ∨
       (c = .txend port ∧ code = 10 ∧ es = [.txend]) ∨
       (c = .i2cStart port ∧ code = 11 ∧ es = [.i2cStart r.param])) →
      ((s.portNow port).tx.length + es.length ≤ 256 →
        ∃ t, exec c s = .next t ∧ (t.port port).tx = (s.portNow port).tx ++ es ∧ (t.port port).relQ = rest ∧
          (t.port port).rx = (s.port port).rx ∧ (∀ q, q ≠ port → t.port q = s.port q) ∧
          (code < 10 → s.regF (aSpCfg port) 2 1 = 1 → (t.port port).de = true) ∧
          t.fio.pins = s.fio.pins ∧ t.regs = s.regs ∧ t.flt = s.flt ∧ t.mem = s.mem ∧ t.cells = s.cells) ∧
      (256 < (s.portNow port).tx.length + es.length → s.mode.mode ≠ .reset →
        ∃ t x, exec c s = .next t ∧ (t.port port).tx = (s.port port).tx ∧ (t.port port).relQ = rest ∧
          t.flt.inQ = putReport x s.flt.inQ ∧ x.source = srcTioQfull ∧ t.fio.pins = s.fio.pins ∧ t.regs = s.regs)

/-- The serial port's events (R416, R417, R418, R420, R421) on a live field I/O and an enabled port, whose FIFO stands
as what has been sent by then leaves it (log entry 144). A byte that the port's mode expects, with its receive FIFO
empty and nothing that holds it, is written to the receive ring in global memory at once; the 2,047th of a UART frame
ends the frame; a UART byte that finds the FIFO full is lost and counted. TXEND at the head of the FIFO ends an SPI
frame one bit time after its last clock, where each byte sent has brought one back, and an I²C write; the last byte of
an I²C read ends it; SP_CFG.gap bit times of idle end a UART frame. An open SPI or I²C frame whose FIFO has stayed
empty for 8 bit times is reported once and stays open; DE goes low after SP_CFG.deoff bit times; a missing I²C
acknowledge ends the frame, skips the FIFO to the next marker and is reported; a clock stretch beyond its time, and an
echo that differs, assert SP_BUS, and the echo ends the transmission. The rows of the table that stand for bits and
bytes sent are read as log entry 97 says. -/
def Obligations.SerialEventsEndFramesAndReport : Prop :=
  ∀ (port mode bit : Nat) (s : State) (q : SerialPort), port < s.variant.sports → s.fieldLive = true →
    s.portOn port = true → s.mode.mode ≠ .reset → mode = s.regF (aSpCfg port) 2 1 → bit = s.bitTime port →
    q = s.portNow port →
    (∀ (b : Byte) (err brk : Bool), q.expects mode = true →
      (q.rx = [] → s.portHeld port = false → ¬ (mode = 1 ∧ q.len = 2046) →
        ∃ t, exec (.uartRxByte port b err brk) s = .next t ∧ (t.port port).rx = [] ∧
          (t.port port).written = (s.port port).written + 1 ∧ (t.port port).len = q.len + 1 ∧
          mget t.mem.glob (s.ringBase port + (s.port port).written.toNat % s.ringSize port) =
            (if s.dataBits port = 7 then b &&& 0x7F#8 else b) ∧
          (∀ a, a ≠ s.ringBase port + (s.port port).written.toNat % s.ringSize port →
            mget t.mem.glob a = mget s.mem.glob a)) ∧
      (q.rx.length < 64 → mode = 1 → q.len = 2046 → ∃ t, exec (.uartRxByte port b err brk) s = .next t ∧
        (t.port port).busy = false ∧ (t.port port).len = 0) ∧
      (64 ≤ q.rx.length → mode = 1 → ∃ t, exec (.uartRxByte port b err brk) s = .next t ∧
        (t.port port).rx = (s.port port).rx ∧ t.mem = s.mem ∧
        t.regF (aSpStat port) 31 16 = min 65535 (s.regF (aSpStat port) 31 16 + 1) ∧
        (q.lostRun = false → ∃ r ∈ t.flt.inQ, r.source = srcSpOvr))) ∧
    (∀ es, q.busy = true → q.tx = .txend :: es →
      (mode = 0 ∧ q.len = q.sent ∧ q.txAt + bit ≤ s.zen.cycle) ∨ (mode = 2 ∧ q.reading = 0) →
      ∃ t, exec (.frameEnd port .txend) s = .next t ∧ (t.port port).busy = false ∧ (t.port port).len = 0 ∧
        (t.port port).tx = es ∧ t.mode = s.mode) ∧
    (q.busy = true → mode = 2 → q.reading ≠ 0 → q.len = q.reading →
      ∃ t, exec (.frameEnd port .readDone) s = .next t ∧ (t.port port).busy = false ∧ (t.port port).len = 0 ∧
        (t.port port).reading = 0 ∧ t.mode = s.mode) ∧
    (q.busy = true → mode = 1 → q.len ≠ 0 →
      q.rxAt + (if s.regF (aSpCfg port) 31 26 = 0 then 2 else s.regF (aSpCfg port) 31 26) * bit ≤ s.zen.cycle →
      ∃ t, exec (.frameEnd port .idle) s = .next t ∧ (t.port port).busy = false ∧ (t.port port).len = 0 ∧
        (t.port port).tx = (s.port port).tx) ∧
    (q.busy = true → mode ≠ 1 → q.tx = [] → q.reading = 0 → q.under = false → q.txAt + 8 * bit ≤ s.zen.cycle →
      ∃ t r, exec (.txUnderrun port) s = .next t ∧ (t.port port).busy = true ∧ t.flt.inQ = putReport r s.flt.inQ ∧
        r.source = srcSpUnder ∧ (t.port port).under = true ∧ t.regs = s.regs) ∧
    (mode = 1 → q.de = true → q.tx = [] → q.txAt + s.regF (aSpCfg port) 25 22 * bit ≤ s.zen.cycle →
      ∃ t, exec (.deOff port) s = .next t ∧ (t.port port).de = false ∧ t.flt = s.flt ∧ t.regs = s.regs) ∧
    (q.busy = true → mode = 2 →
      ∃ t, exec (.i2cNack port) s = .next t ∧ (t.port port).busy = false ∧ (t.port port).len = 0 ∧
        (t.port port).tx = skipToMarker q.tx ∧ ∃ r ∈ t.flt.inQ, r.source = srcSpNack) ∧
    (mode = 2 → ∃ t, exec (.clockStretchTimeout port) s = .next t ∧ srcSpBus ∈ t.flt.level ∧
      t.fio = s.fio) ∧
    (mode = 1 → s.regF (aSpCfg port) 21 21 = 1 → (s.port port).de = true →
      ∃ t, exec (.echoMismatch port) s = .next t ∧ srcSpBus ∈ t.flt.level ∧ (t.port port).de = false ∧
        (t.port port).tx = [])


/-! ### The barrier and the Powyn ports -/

/-- The barrier's messages and losses (R384, R423, R425, R473). The front message of a direction of a barrier that is
up leaves its queue when its check passes, and has its effect: a sync result joins zenith's queue, a marker is paired
with the horizon counter's time, of 2 ns resolution, less the barrier delay, newest of at most 16 (log entry 99 names
the messages that cross inside the commands that send them). A message whose check fails is reported as BAR_CRC and
stays, except after three further tries, when it is discarded. Lanes out of lock take the barrier down and assert
BAR_LINK; a missing heartbeat asserts HOST_LOST and LNK_DOWN; neither changes the mode. -/
def Obligations.BarrierMessagesCrossOrAreRetried : Prop :=
  (∀ (s : State) (r : SyncRes) (rest : List BarMsg), s.bar.up = true → s.bar.toField = .syncResult r :: rest →
    ∃ t, exec (.barrierMessage true true) s = .next t ∧ t.bar.toField = rest ∧ t.zen.syncQ = s.zen.syncQ ++ [r] ∧
      t.bar.triesF = 0 ∧ t.flt = s.flt) ∧
  (∀ (s : State) (z : Nat) (rest : List BarMsg), s.bar.up = true → s.bar.toHost = .marker z :: rest →
    ∃ t, exec (.barrierMessage false true) s = .next t ∧ t.bar.toHost = rest ∧
      t.hor.markers = ((z, s.hor.hcount / 2 * 2 - Config.barDelay) :: s.hor.markers).take 16 ∧ t.zen = s.zen) ∧
  (∀ (s : State) (m : BarMsg) (rest : List BarMsg), s.bar.up = true → s.mode.mode ≠ .reset →
    s.bar.toField = m :: rest →
    ∃ t, exec (.barrierMessage true false) s = .next t ∧ t.zen = s.zen ∧ t.mode = s.mode ∧
      (∃ r, t.flt = { s.flt with inQ := putReport r s.flt.inQ } ∧ r.source = srcBarCrc) ∧
      t.bar = { s.bar with
        toField := (if 3 ≤ s.bar.triesF then rest else m :: rest)
        triesF := (if 3 ≤ s.bar.triesF then 0 else s.bar.triesF + 1) }) ∧
  (∀ s : State, s.bar.up = true → s.mode.mode ≠ .reset → ∃ t, exec .barrierLaneLoss s = .next t ∧ t.bar.up = false ∧
    srcBarLink ∈ t.flt.level ∧ t.mode = s.mode ∧ t.zen = s.zen ∧ t.cells = s.cells) ∧
  (∀ s : State, s.bar.lost = false → s.mode.mode ≠ .reset → ∃ t, exec .heartbeatMissing s = .next t ∧
    t.bar.lost = true ∧ srcHostLost ∈ t.flt.level ∧ srcLnkDown ∈ t.flt.level ∧ t.mode = s.mode ∧
    t.cells = s.cells ∧ (s.zen.state = .locked → t.zen.state = .holdover))

/-- Set-up accesses (R14, R15, R381, R442, R443, R502, R507). A host's read by the barrier port changes nothing but
what a read of ZEN_NOWLO captures; so does the service port's read, and a register message that reads. A host's write
of FLT_CTRL outside RUN, DEGRADED, HALT and SAFE, while the loader does not own the address, stores the word's
writable fields and keeps the others, and a set-up write to an address that is not a multiple of 4 is answered and
changes no register. REG_RD and REG_WR need the upstream port up; each is answered with a REG_RSP at once where the
horizon die or a field side that answers can take it, after the messages that wait, and REG_RD changes no mode, cell,
memory or field-side register. While the command ring is enabled an address outside the horizon block is answered
REFUSED. A message that meets no field side waits. -/
def Obligations.SetUpAccessesReadAndWriteRegisters : Prop :=
  (∀ (a : BitVec 24) (s : State), atHorizon a.toNat = false → s.fieldAnswers = true →
    exec (.setUpAccess a none .host) s =
      .next (if a.toNat = aZenNowlo then { s with zen := { s.zen with captured := s.zen.count } } else s) ∧
    exec (.setUpAccess a none .service) s = exec (.setUpAccess a none .host) s) ∧
  (∀ (v : Word) (s : State), s.fieldAnswers = true → s.running = false → s.mode.mode ≠ .safe →
    s.loaderOwns aFltCtrl = false → ∃ t, exec (.setUpAccess (BitVec.ofNat 24 aFltCtrl) (some v) .host) s = .next t ∧
      t.regF aFltCtrl 0 0 = fld v 0 0 ∧ t.regF aFltCtrl 1 1 = fld v 1 1 ∧ t.regF aFltCtrl 15 8 = fld v 15 8 ∧
      (∀ b, b ≠ aFltCtrl → t.reg b = s.reg b) ∧ t.mode = s.mode ∧ t.cells = s.cells) ∧
  (∀ (a : BitVec 24) (s : State), s.mode.hostRst = true → s.upstreamUp = true →
    (s.hor.waitRegs = [] → (s.regF (aRingCfg 0) 8 8 = 0 ∨ inHorizonBlock a.toNat = true) →
      (s.fieldAnswers = true ∨ atHorizon a.toNat = true) →
      (∃ t, exec (.regRd a) s = .next t ∧ t.mode = s.mode ∧ t.regs = s.regs ∧ t.mem = s.mem ∧ t.cells = s.cells ∧
        t.hor.waitRegs = [] ∧ t.hor.outbox.length = s.hor.outbox.length + 1) ∧
      (∀ v : Word, a.toNat = aFltCtrl → s.running = false → s.mode.mode ≠ .safe → s.loaderOwns aFltCtrl = false →
        ∃ t, exec (.regWr a v) s = .next t ∧ t.regF aFltCtrl 0 0 = fld v 0 0 ∧ t.mode = s.mode ∧
          t.hor.outbox.length = s.hor.outbox.length + 1)) ∧
    (s.regF (aRingCfg 0) 8 8 = 1 → inHorizonBlock a.toNat = false → ∀ w : Option Word,
      ∃ t f, exec (match w with | none => .regRd a | some v => .regWr a v) s = .next t ∧ t.regs = s.regs ∧
        t.mode = s.mode ∧ t.hor.waitRegs = s.hor.waitRegs ∧ t.hor.outbox = s.hor.outbox ++ [f] ∧ f.type = 0x03#8 ∧
        f.payload.take 9 = leBytes 4 a.toNat ++ leBytes 4 (w.getD 0).toNat ++ [4#8]) ∧
    (s.regF (aRingCfg 0) 8 8 = 0 → s.fieldAnswers = false → atHorizon a.toNat = false →
      exec (.regRd a) s = .next { s with hor := { s.hor with waitRegs := s.hor.waitRegs ++ [(a, none)] } } ∧
      ∀ v : Word, exec (.regWr a v) s =
        .next { s with hor := { s.hor with waitRegs := s.hor.waitRegs ++ [(a, some v)] } }) ∧
    (∀ b : BitVec 24, s.hor.waitRegs = [(b, none)] → s.regF (aRingCfg 0) 8 8 = 0 → s.fieldAnswers = true →
      ∃ t, exec (.regRd a) s = .next t ∧ t.regs = s.regs ∧ t.mode = s.mode ∧ t.hor.waitRegs = [] ∧
        t.hor.outbox.length = s.hor.outbox.length + 2)) ∧
  (∀ (a : BitVec 24) (v : Word) (s : State), a.toNat % 4 ≠ 0 → s.mode.hostRst = true → s.upstreamUp = true →
    s.hor.waitRegs = [] → ∃ t, exec (.regWr a v) s = .next t ∧ t.regs = s.regs ∧ t.mode = s.mode ∧
      t.hor.outbox.length = s.hor.outbox.length + 1)

/-- Training of a present port with HOST_RST_N high (R432, R433, R434, R435): electrical detection of an enabled port
takes step 0 or 1 to 2, lane lock 2 to 3 keeping the inverted lanes, deskew 3 to 4 at the lowest rate and to 5 above
it, rate negotiation 4 to 5 at the lowest rate and else back to 2 with the rate of both sides, equalisation 5 to 6
with the best preset, and VERSION 6 to 7 with the highest common version of 5 and 4, or to 10 without one. In any
other step each changes nothing. -/
def Obligations.TrainingGoesStepByStep : Prop :=
  ∀ (k : Nat) (s : State), k ≤ s.variant.dsports → s.mode.hostRst = true →
    (s.portStep k ≤ 1 → s.portEnabled k = true → ∃ t, exec (.electricalDetect k) s = .next t ∧ t.portStep k = 2 ∧
      (t.link k).partner = true) ∧
    (∀ inv : BitVec 2, s.portStep k = 2 → ∃ t, exec (.laneLock k inv) s = .next t ∧ t.portStep k = 3 ∧
      t.regF (aLnkStat k) 9 8 = inv.toNat ∧ t.hor = s.hor) ∧
    (s.portStep k = 3 → ∃ t, exec (.laneDeskew k) s = .next t ∧
      t.portStep k = (if s.regF (aLnkStat k) 13 12 = 0 then 4 else 5) ∧ t.hor = s.hor) ∧
    (∀ r : BitVec 2, s.portStep k = 4 → ∃ t rate, exec (.rateNegotiation k r) s = .next t ∧
      rate = min (min 2 (s.regF aLnkCtrl 1 0)) (min 2 r.toNat) ∧ t.regF (aLnkStat k) 13 12 = rate ∧
      t.portStep k = (if rate = 0 then 5 else 2)) ∧
    (∀ ms : List Nat, s.portStep k = 5 → ∃ t, exec (.transmitEqualisation k ms) s = .next t ∧ t.portStep k = 6 ∧
      t.regF (aLnkStat k) 23 20 = bestPreset (ms.take 8) 0 0 0 ∧ (t.link k).txSeq = (s.link k).txSeq + 1) ∧
    (∀ hi lo : BitVec 4, s.portStep k = 6 → ∃ t, exec (.version k hi lo) s = .next t ∧
      (lo.toNat ≤ 5 → 5 ≤ hi.toNat → t.portStep k = 7 ∧ t.regF (aLnkStat k) 19 16 = 5) ∧
      (lo.toNat ≤ 4 → hi.toNat = 4 → t.portStep k = 7 ∧ t.regF (aLnkStat k) 19 16 = 4) ∧
      (hi.toNat < 4 ∨ 5 < lo.toNat → t.portStep k = 10)) ∧
    (∀ (inv r : BitVec 2) (ms : List Nat) (hi lo : BitVec 4),
      (s.portStep k ≠ 2 → exec (.laneLock k inv) s = .next s) ∧ (s.portStep k ≠ 3 → exec (.laneDeskew k) s = .next s) ∧
      (s.portStep k ≠ 4 → exec (.rateNegotiation k r) s = .next s) ∧
      (s.portStep k ≠ 5 → exec (.transmitEqualisation k ms) s = .next s) ∧
      (s.portStep k ≠ 6 → exec (.version k hi lo) s = .next s))

/-- Frames and the loss of a port (R428, R429, R431, R432, R438, R473). The bytes of a frame spell it: header, payload of
whole 32-byte blocks and CRC-32. With the port at step 6 or above, a frame with a bad crc is counted and asked for again
(log entry 100 says under which seq), and takes no sequence number; a good one is acknowledged. One in order is delivered
and takes the next number, and with it the frames that came early; one that is ahead waits for those before it; one that
was delivered already changes nothing more. A frame for another device, downward, is sent on by the port whose range
holds the device, where that port is up; one of an unknown type, or for a device in no range, is counted as discarded. A
replay request for a kept frame sends it again, and the ninth for the same frame retrains the port from step 1; so does,
as the model's choice (log entries 100 and 101), one for a frame no longer kept. A port that loses lock retrains. A
training step that times out tries the next lower rate in steps 2 and 3, and else retrains. The crc failures of a second
above LNK_ERRTH are relayed as LNK_ERR, and the count starts again. -/
def Obligations.FramesAreKeptInOrderAndPortsRetrain : Prop :=
  (∀ f : Frame, f.payload.length % 32 = 0 → f.payload.length ≤ 512 → frameOf (frameBody f) (crc32 (frameBody f)) = some f) ∧
  ∀ (k : Nat) (s : State), k ≤ s.variant.dsports → s.mode.hostRst = true →
    (∀ (bs : List Byte) (crc : Word), s.portStep k < 6 → exec (.frameReceive k bs crc) s = .next s) ∧
    (6 ≤ s.portStep k →
      (∀ (bs : List Byte) (crc : Word), frameOf bs crc = none → ∃ t q, exec (.frameReceive k bs crc) s = .next t ∧
        (t.link k).rxSeq = (s.link k).rxSeq ∧ (t.link k).fails = (s.link k).fails + 1 ∧
        (t.link k).line = (s.link k).line ++ [.askReplay q] ∧
        (q = frameSeq bs ∨ q = (s.link k).rxSeq) ∧
        t.regF (aLnkErr k) 15 0 = min 65535 (s.regF (aLnkErr k) 15 0 + 1)) ∧
      (∀ (bs : List Byte) (crc : Word) (f : Frame), frameOf bs crc = some f → f.seq = (s.link k).rxSeq →
        (knownType f.type = true → f.isLocal = true →
          ((s.link k).early = [] → ∃ t, exec (.frameReceive k bs crc) s = .next t ∧ t.regs = s.regs ∧
            (t.link k).rxSeq = (s.link k).rxSeq + 1 ∧ (t.link k).line = (s.link k).line ++ [.ack f.seq]) ∧
          (∀ g : Frame, (s.link k).early = [g] → g.seq = f.seq + 1 → knownType g.type = true → g.isLocal = true →
            ∃ t, exec (.frameReceive k bs crc) s = .next t ∧ t.regs = s.regs ∧
              (t.link k).rxSeq = (s.link k).rxSeq + 2 ∧ (t.link k).early = [])) ∧
        (∀ j : Nat, (s.link k).early = [] → knownType f.type = true → f.isLocal = false → f.up = false →
          (s.regF aLnkDev 6 6 = 0 ∨ f.dst.toNat ≠ s.device) → j ≠ k → s.rangePort f.dst.toNat = some j →
          s.portStep j = 9 → ∃ t, exec (.frameReceive k bs crc) s = .next t ∧
            (t.link j).txSeq = (s.link j).txSeq + 1 ∧
            (t.link j).line = (s.link j).line ++ [.frame { f with seq := (s.link j).txSeq }] ∧
            (t.link j).sent.getLast? = some { f with seq := (s.link j).txSeq }) ∧
        ((s.link k).early = [] → (knownType f.type = false ∨ (f.isLocal = false ∧ f.up = false ∧
            (s.regF aLnkDev 6 6 = 0 ∨ f.dst.toNat ≠ s.device) ∧ s.rangePort f.dst.toNat = none)) →
          ∃ t, exec (.frameReceive k bs crc) s = .next t ∧ (t.link k).rxSeq = (s.link k).rxSeq + 1 ∧
            t.regF (aLnkErr k) 15 0 = min 65535 (s.regF (aLnkErr k) 15 0 + 1))) ∧
      (∀ (bs : List Byte) (crc : Word) (f : Frame), frameOf bs crc = some f → f.seq ≠ (s.link k).rxSeq →
        ∃ t, exec (.frameReceive k bs crc) s = .next t ∧ t.regs = s.regs ∧ (t.link k).rxSeq = (s.link k).rxSeq ∧
          (t.link k).line = (s.link k).line ++ [.ack f.seq] ∧
          (t.link k).early = (if (f.seq - (s.link k).rxSeq).toNat < 64 ∧ ∀ g ∈ (s.link k).early, g.seq ≠ f.seq
            then (s.link k).early ++ [f] else (s.link k).early)) ∧
      (∀ (q : BitVec 16) (f : Frame), (s.link k).sent.find? (fun f => f.seq = q) = some f →
        ∃ t, exec (.replayRequest k q) s = .next t ∧
          ((s.link k).replaySeq = q → (s.link k).replays < 8 → (t.link k).replays = (s.link k).replays + 1 ∧
            (t.link k).line = (s.link k).line ++ [.frame f] ∧ t.regs = s.regs) ∧
          ((s.link k).replaySeq ≠ q → (t.link k).replays = 1 ∧ (t.link k).replaySeq = q ∧
            (t.link k).line = (s.link k).line ++ [.frame f] ∧ t.regs = s.regs) ∧
          ((s.link k).replaySeq = q → 8 ≤ (s.link k).replays → t.portStep k = 1)) ∧
      (∀ q : BitVec 16, (∀ f ∈ (s.link k).sent, f.seq ≠ q) →
        ∃ t, exec (.replayRequest k q) s = .next t ∧ t.portStep k = 1 ∧
          t.regF (aLnkErr k) 23 16 = min 255 (s.regF (aLnkErr k) 23 16 + 1))) ∧
    (2 ≤ s.portStep k → ∃ t, exec (.portDown k) s = .next t ∧ t.portStep k = 1 ∧ (t.link k).sent = [] ∧
      (t.link k).txSeq = 0 ∧ (t.link k).rxSeq = 0 ∧ (t.link k).early = [] ∧
      t.regF (aLnkErr k) 23 16 = min 255 (s.regF (aLnkErr k) 23 16 + 1) ∧ t.mode = s.mode) ∧
    (∀ r, (s.portStep k = 2 ∨ s.portStep k = 3) → s.regF (aLnkStat k) 13 12 = r + 1 →
      ∃ t, exec (.trainingTimeout k) s = .next t ∧ t.regF (aLnkStat k) 13 12 = r ∧
        t.portStep k = (if r = 0 then 5 else 2)) ∧
    ((s.portStep k = 4 ∨ s.portStep k = 5 ∨ s.portStep k = 6 ∨ s.portStep k = 8 ∨
        ((s.portStep k = 2 ∨ s.portStep k = 3) ∧ s.regF (aLnkStat k) 13 12 = 0)) →
      ∃ t, exec (.trainingTimeout k) s = .next t ∧ t.portStep k = 1) ∧
    (∃ t, exec (.errorRateCheck k) s = .next t ∧ (t.link k).fails = 0 ∧ t.regs = s.regs ∧
      (s.regF aLnkErrth 15 0 < (s.link k).fails → t.bar.toField.length = s.bar.toField.length + 1) ∧
      ((s.link k).fails ≤ s.regF aLnkErrth 15 0 → t.bar = s.bar))

/-- Enumeration and calibration (R436, R437, R440, R441, R473). ENUM at step 7 or 9 gives the module the number offered, at
one depth more, and, with no downstream port ready, answers the parent with 1 number used and takes port 0 from step 7
to 8; at step 9 port 0 stays there. With port 1 ready and a number left for it, port 1 is sent ENUM with the next number.
ENUM_RSP for the port that was asked keeps the range it used and takes that port to step 9; where the port alone, or the
module with the number that it had, joins again (log entry 140), the port's range stays. DELAY_CALIBRATION at step 8 with 16
results takes port 0 to step 9 and ends LNK_DOWN by a relay word; with fewer it changes nothing. -/
def Obligations.EnumerationNumbersTheChain : Prop :=
  (∀ (n : BitVec 7) (depth : BitVec 4) (count : BitVec 7) (s : State), s.mode.hostRst = true →
    (s.portStep 0 = 7 ∨ s.portStep 0 = 9) → n.toNat ≤ 63 →
    (s.regF aLnkDev 6 6 = 0 ∨ s.regF aLnkDev 5 0 = n.toNat) →
    (∀ k, 1 ≤ k → k ≤ s.variant.dsports → s.enumReady k = false) →
    ∃ t, exec (.enum n depth count) s = .next t ∧ t.regF aLnkDev 5 0 = n.toNat ∧ t.regF aLnkDev 6 6 = 1 ∧
      t.regF aLnkDev 10 8 = (depth.toNat + 1) % 8 ∧ t.portStep 0 = (if s.portStep 0 = 7 then 8 else 9) ∧
      t.hor.enumAt = none ∧ (t.link 0).txSeq = (s.link 0).txSeq + 1) ∧
  (∀ (n : BitVec 7) (depth : BitVec 4) (count : BitVec 7) (s : State), s.mode.hostRst = true →
    (s.portStep 0 = 7 ∨ s.portStep 0 = 9) → n.toNat ≤ 62 → 2 ≤ count.toNat → s.regF aLnkDev 6 6 = 0 →
    (depth.toNat + 1) % 8 ≠ 5 → 1 ≤ s.variant.dsports → s.enumReady 1 = true →
    ∃ t, exec (.enum n depth count) s = .next t ∧ t.regF aLnkDev 5 0 = n.toNat ∧ t.portStep 0 = s.portStep 0 ∧
      (t.link 1).txSeq = (s.link 1).txSeq + 1 ∧ t.hor.enumAt = some
        { port := 1, next := n.toNat + 1, fin := min 64 (n.toNat + count.toNat), used := 1, rejoin := false }) ∧
  (∀ (k : Nat) (used : BitVec 7) (s : State) (e : EnumRun), k ≤ s.variant.dsports → k ≠ 0 → s.mode.hostRst = true →
    s.hor.enumAt = some e → e.port = k →
    (e.rejoin = true → s.portStep k ≠ 9 → ∃ t, exec (.enumRsp k used) s = .next t ∧ t.portStep k = 9 ∧
      t.reg (aLnkRange (k - 1)) = s.reg (aLnkRange (k - 1)) ∧
      ((∀ j, 1 ≤ j → j ≤ s.variant.dsports → j ≠ k → s.portStep j ≠ 7) → t.hor.enumAt = none)) ∧
    ((∀ j, 1 ≤ j → j ≤ s.variant.dsports → j ≠ k → s.portStep j ≠ 7) →
      (∀ j, k < j → j ≤ s.variant.dsports → s.portStep j = 0) →
      (e.rejoin = false → e.keep = false → s.portStep k = 7 → e.next < 64 →
        ∃ t, exec (.enumRsp k used) s = .next t ∧ t.regF (aLnkRange (k - 1)) 5 0 = e.next ∧
          t.regF (aLnkRange (k - 1)) 14 8 = used.toNat ∧ t.portStep k = 9 ∧ t.hor.enumAt = none) ∧
      (e.rejoin = false → e.keep = true → s.portStep k = 7 →
        ∃ t, exec (.enumRsp k used) s = .next t ∧ t.reg (aLnkRange (k - 1)) = s.reg (aLnkRange (k - 1)) ∧
          t.portStep k = 9 ∧ t.hor.enumAt = none))) ∧
  (∀ s : State, s.mode.hostRst = true → s.portStep 0 = 8 → 16 ≤ s.hor.dlinks.length →
    ∃ t, exec .delayCalibration s = .next t ∧ t.portStep 0 = 9 ∧ t.upstreamUp = true ∧
      (s.mode.mode = .link → t.mode.mode = .load) ∧
      ∃ w, .relay w ∈ t.bar.toField ∧ fld w 6 0 = srcLnkDown ∧ fld w 7 7 = 0) ∧
  (∀ s : State, (s.mode.hostRst = false ∨ s.portStep 0 ≠ 8 ∨ s.hor.dlinks.length < 16) →
    exec .delayCalibration s = .next s)


/-! ### Rings, commands and the service port -/

/-- The ring engine (R444, R445, R446, R447, R448, R449, R450, R451), with HOST_RST_N high and the upstream port up. A
doorbell, or the poll timer, starts a read of the page when none is outstanding; a doorbell during one asks for one more.
A MEM_CPL whose bytes do not yet fill its MEM_RD is kept. Once a read is filled: the page's words are kept, each index
that keeps R447 becomes its ring's host index, and one that breaks it stops the ring; entries of the command ring join
the command engine's queue; entries of the inject ring join those fetched; a host buffer joins the command at the head.
An error stops its ring with code 3, that of a host buffer the command ring (log entry 158: tags). A NOTIFY that is due is
sent once. A held completion is written to ring 3 where that has room, with the phase of its lap in byte 63, and the
producer index rises by one. -/
def Obligations.RingEngineServesThePage : Prop :=
  ∀ s : State, s.mode.hostRst = true → s.upstreamUp = true →
    (∀ b : Byte, s.hor.reading = false → ∃ t, exec (.doorbell b) s = .next t ∧ t.hor.reading = true ∧
      t.hor.outbox.length = s.hor.outbox.length + 1 ∧ t.regs = s.regs) ∧
    (∀ b : Byte, s.hor.reading = true → exec (.doorbell b) s = .next { s with hor := { s.hor with again := true } }) ∧
    (s.hor.reading = false → ∃ t, exec .pollTimer s = .next t ∧ t.hor.reading = true ∧
      t.hor.outbox.length = s.hor.outbox.length + 1) ∧
    (s.hor.reading = true → exec .pollTimer s = .next s) ∧
    (∀ (tag off : Nat) (bs : List Byte) (q : HostRead), s.hor.reads.find? (fun q => q.tag = tag) = some q →
      off + bs.length ≤ q.got.length → (putBytes q.got off bs).all (fun x => x.isSome) = false →
      ∃ t, exec (.memCpl ⟨tag, off, 0, bs⟩) s = .next t ∧ t = { s with hor := { s.hor with reads := t.hor.reads } } ∧
        t.hor.reads.length = s.hor.reads.length) ∧
    (∀ (tag off : Nat) (bs full : List Byte) (q : HostRead), s.hor.reads.find? (fun q => q.tag = tag) = some q →
      off + bs.length ≤ q.got.length → (putBytes q.got off bs).all (fun x => x.isSome) = true →
      full = (putBytes q.got off bs).filterMap id →
      (tag = 5 → s.hor.again = false → full.length = 24 →
        ∃ t, exec (.memCpl ⟨tag, off, 0, bs⟩) s = .next t ∧ t.hor.page = wordsOf 6 full ∧ t.hor.reading = false ∧
          ∀ r, r < 5 → s.ringOn r = true →
            (s.indexBad r ((wordsOf 6 full).getD r 0) = false → (t.ring r).host = (wordsOf 6 full).getD r 0) ∧
            (s.indexBad r ((wordsOf 6 full).getD r 0) = true → t.regF (aRingStat r) 0 0 = 1)) ∧
      (tag = 0 → s.ringOn 0 = true → full.length / 64 = ((s.ring 0).asked - (s.reg (aRingIdx 0) + w32 s.heldCommands)).toNat →
        (s.hor.cmdQ ≠ [] ∨ ∀ e ∈ entriesOf (full.length / 64) full,
          (Command.ofBytes e).malformed = none ∧ (Command.ofBytes e).outOfRange = false) →
        ∃ t, exec (.memCpl ⟨tag, off, 0, bs⟩) s = .next t ∧
          t.hor.cmdQ = s.hor.cmdQ ++ (entriesOf (full.length / 64) full).map Command.ofBytes) ∧
      (tag = 1 → s.ringOn 1 = true →
        full.length / 64 = ((s.ring 1).asked - (s.reg (aRingIdx 1) + w32 (s.ring 1).fetched.length)).toNat →
        ∃ t, exec (.memCpl ⟨tag, off, 0, bs⟩) s = .next t ∧
          (t.ring 1).fetched = (s.ring 1).fetched ++ entriesOf (full.length / 64) full) ∧
      (∀ (c : Command) (rest : List Command), tag = 6 → s.hor.cmdQ = c :: rest → c.buffer = [] →
        full.length = c.reads → ∃ t, exec (.memCpl ⟨tag, off, 0, bs⟩) s = .next t ∧
          t.hor.cmdQ = { c with data := c.data ++ full } :: rest ∧ t.regs = s.regs)) ∧
    (∀ (tag off : Nat) (st : Byte) (bs : List Byte), st ≠ 0 →
      (∀ r, ((tag = r ∧ r < 5) ∨ (tag = 6 ∧ r = 0)) → ∃ t, exec (.memCpl ⟨tag, off, st, bs⟩) s = .next t ∧
        t.regF (aRingStat r) 0 0 = 1 ∧ t.regF (aRingStat r) 5 4 = 3 ∧
        t.hor = { s.hor with reads := s.hor.reads.filter (fun q => q.tag ≠ tag) }) ∧
      (tag = 5 → s.hor.again = false → ∃ t, exec (.memCpl ⟨tag, off, st, bs⟩) s = .next t ∧ t.hor.reading = false ∧
        t.hor.page = s.hor.page ∧ t.regs = s.regs)) ∧
    (∀ r, r < 5 → r ∈ s.hor.notifyDue → ∃ t, exec (.notify r) s = .next t ∧ r ∉ t.hor.notifyDue ∧
      t.hor.outbox.length = s.hor.outbox.length + 1 ∧ t.regs = s.regs) ∧
    (∀ (c : Completion) (rest : List Completion) (k : Nat), s.hor.cplQ = c :: rest → s.ringRoom 3 = true →
      k = (s.reg (aRingIdx 3)).toNat →
      ∃ t e, exec .completionWrite s = .next t ∧ t.reg (aRingIdx 3) = s.reg (aRingIdx 3) + 1 ∧
        (c.counts = true → t.reg (aRingIdx 0) = s.reg (aRingIdx 0) + 1) ∧
        (3, k, e) ∈ t.hor.written ∧ e.take 60 = c.entry.take 60 ∧
        e.getD 63 0 = (if k / s.ringLen 3 % 2 = 0 then 0x80#8 else 0#8))

/-- Enabling and disabling a ring (R450). Written with en = 1 and lsize 4 to 16, a ring is enabled and not stopped, with
nothing fetched, and rings 0, 1 and 3 stand at index 0; the command ring's waiting commands are dropped, but the one in
progress, which counts no more for its index. Written with en = 1 and an lsize outside that range, RING_CFG changes
nothing, but that a reserved bit set is reported (R15). Written with en = 0, the ring is disabled and keeps its index, and
of the command ring's entries the one in progress alone finishes. -/
def Obligations.RingsAreEnabledAndDisabled : Prop :=
  ∀ (r : Nat) (v : Word) (s : State) (now : List Command), r < 5 → s.mode.hostRst = true →
    now = (if s.hor.cplQ = [] then s.hor.cmdQ.take 1 else []) →
    (fld v 8 8 = 1 → 4 ≤ fld v 4 0 → fld v 4 0 ≤ 16 → ∃ t, exec (.ringCfgEnWrite r v) s = .next t ∧
      t.ringOn r = true ∧ (t.ring r).fetched = [] ∧ (r ≠ 2 → r ≠ 4 → t.reg (aRingIdx r) = 0) ∧
      (r = 0 → t.hor.cmdQ = now.map (fun c => { c with old := true })) ∧
      (s.regF (aRingCfg r) 8 8 = 0 → t.regF (aRingCfg r) 4 0 = fld v 4 0)) ∧
    (fld v 8 8 = 1 → (fld v 4 0 < 4 ∨ 16 < fld v 4 0) → ∃ t, exec (.ringCfgEnWrite r v) s = .next t ∧
      t = { s with flt := t.flt } ∧ (v &&& w32 (rsvBits (aRingCfg r)) = 0 → t = s)) ∧
    (fld v 8 8 = 0 → ∃ t, exec (.ringCfgEnWrite r v) s = .next t ∧ t.ringOn r = false ∧
      t.reg (aRingIdx r) = s.reg (aRingIdx r) ∧ (t.ring r).fetched = [] ∧ (r = 0 → t.hor.cmdQ = now))

/-- The image and set-up commands of the ring (R455, R458, R469, R491), at the head of the engine's queue and taken by
it, with the field side answering. Each completes once, with the status and effect below, and leaves the queue. A
set-up read completes with the register's status and value. IMAGE_BEGIN of a length that fits, with no sequence open
and no trial, opens a sequence and makes the inactive slot invalid. IMAGE_BLOCK that follows the last one writes its
bytes into the inactive slot, and no other byte of MRAM. IMAGE_END closes the sequence: a verified image makes the
slot valid, and one that fails leaves it as it is, with status 6; the slot and the digest stand in the completion's
data. A revocation image whose revocation is allowed revokes the key slot and makes no slot valid (R471). IMAGE_STAGE
of a schedule that passes its checks stages it. A sequence times out. -/
def Obligations.ImageCommandsBuildTheInactiveSlot : Prop :=
  (∀ (s : State) (c : Command) (rest : List Command) (u : State), s.fieldAnswers = true → s.hor.cmdQ = c :: rest →
    u = s.takeCommand rest →
    (s.command 0x01#8 = some (c, u) → atHorizon c.a0.toNat = false → ∃ t x, exec .setupRead s = .next t ∧
      t.hor.cmdQ = rest ∧ t.hor.cplQ = [x] ∧ x.id = c.id ∧ x.status = BitVec.ofNat 8 (u.setupRead c.a0.toNat).1 ∧
      x.result = (u.setupRead c.a0.toNat).2 ∧ t.regs = s.regs ∧ t.cells = s.cells ∧ t.mem = s.mem) ∧
    (s.command 0x02#8 = some (c, u) → c.a0.toNat = aFltCtrl → s.running = false → s.mode.mode ≠ .safe →
      s.loaderOwns aFltCtrl = false → ∃ t x, exec .setupWrite s = .next t ∧ t.hor.cmdQ = rest ∧ t.hor.cplQ = [x] ∧
      x.status = 0#8 ∧ t.regF aFltCtrl 0 0 = fld c.a1 0 0 ∧ ∀ b, b ≠ aFltCtrl → t.reg b = s.reg b) ∧
    (s.command 0x20#8 = some (c, u) → s.hor.image = none → s.mode.trial = false → c.a0 ≠ 0 →
      c.a0.toNat ≤ (s.variant.slot false).2 → ∃ t x, exec .imageBegin s = .next t ∧ t.hor.cmdQ = rest ∧
      t.hor.cplQ = [x] ∧ x.status = 0#8 ∧ t.hor.image = some { service := false, next := 0, total := c.a0.toNat } ∧
      t.slotValid (!s.mode.activeB) = false ∧ t.slotValid s.mode.activeB = s.slotValid s.mode.activeB) ∧
    (∀ q : ImageSeq, s.command 0x21#8 = some (c, u) → s.hor.image = some q → q.service = false → c.a1 ≠ 0 →
      c.a1.toNat ≤ 4096 → c.a0.toNat = q.next → q.next + c.a1.toNat ≤ q.total → srcVmonCore ∉ s.flt.level →
      ∃ t x base, exec .imageBlock s = .next t ∧ base = (s.variant.slot (!s.mode.activeB)).1 + q.next ∧
      t.hor.cmdQ = rest ∧ t.hor.cplQ = [x] ∧ x.status = 0#8 ∧
      t.hor.image = some { q with next := q.next + c.a1.toNat } ∧
      (∀ i, i < c.a1.toNat → mget t.mem.mram (base + i) = c.buffer.getD i 0) ∧
      (∀ a, a < base ∨ base + c.a1.toNat ≤ a → mget t.mem.mram a = mget s.mem.mram a)) ∧
    (∀ (q : ImageSeq) (v : Verdict), s.command 0x22#8 = some (c, u) → s.hor.image = some q → q.service = false →
      v = u.imageVerdict q (s.slotImage (!s.mode.activeB)) →
      ∃ t x, exec .imageEnd s = .next t ∧ t.hor.cmdQ = rest ∧ t.hor.cplQ = [x] ∧ t.hor.image = none ∧
      (v.result = 1 → x.status = 0#8 → x.data = leBytes 4 (b2n (!s.mode.activeB)) ++ digestBytes
        (sha256 (mread s.mem.mram (s.variant.slot (!s.mode.activeB)).1 (q.total - 96)))) ∧
      (v.result = 1 → (s.slotImage (!s.mode.activeB)).byte 5 ≠ 2 → x.status = 0#8 ∧
        t.slotValid (!s.mode.activeB) = true) ∧
      (v.result = 1 → (s.slotImage (!s.mode.activeB)).byte 5 = 2 →
        ((s.slotImage (!s.mode.activeB)).revokes s.variant q.total = none → x.status = 6#8 ∧ t.hor.keys = s.hor.keys ∧
          t.mode = s.mode ∧ t.regF aSecStat 2 0 = 6) ∧
        (∀ k, (s.slotImage (!s.mode.activeB)).revokes s.variant q.total = some k → u.mayRevoke k v.slot = true →
          x.status = 0#8 ∧ x.result.toNat = k ∧ (t.key k).revoked = true ∧ t.mode = s.mode) ∧
        (∀ k, (s.slotImage (!s.mode.activeB)).revokes s.variant q.total = some k → u.mayRevoke k v.slot = false →
          x.status = 6#8 ∧ t.hor.keys = s.hor.keys ∧ t.mode = s.mode)) ∧
      (v.result ≠ 1 → x.status = 6#8 ∧ t.mode = s.mode ∧ t.mem = s.mem ∧ t.regF aSecStat 2 0 = v.result % 8)) ∧
    (∀ (p : Nat) (g : Img) (y : Section), s.command 0x23#8 = some (c, u) → p = c.a0.toNat → p < 8 → s.running = true →
      s.mode.trial = false → s.slotValid (!s.mode.activeB) = true → (s.partition p).sched = true →
      (s.part p).armed = none → g = s.slotImage (!s.mode.activeB) →
      g.checkLayout (s.variant.slot (!s.mode.activeB)).2 = none → g.schedOf p = some y → u.mayStage g y p = true →
      ∃ t x, exec .imageStage s = .next t ∧ t.hor.cmdQ = rest ∧ t.hor.cplQ = [x] ∧ x.status = 0#8 ∧
        (t.part p).staged = some (g.sched y).hdr ∧ (t.part p).bankB = (s.part p).bankB ∧ t.mode = s.mode)) ∧
  (∀ s : State, exec .imageSequenceTimeout s = .next { s with hor := { s.hor with image := none } })

/-- The memory, view, self-test and key commands of the ring (R80, R163, R252, R256, R272, R455, R457, R465, R472), taken by
the engine. MEM_READ of a range that exists and holds no poisoned word completes with its bytes and changes no memory (what
a pending activation's entry in the pool or the overflow area holds is a free value, log entry 33); a poisoned word, or a
cloud that is off, in test or fenced, is answered ACCESS; a draining cloud is waited for, and a parked one is woken.
MEM_WRITE to global memory at or above the reserved part, to DRAM and to the user part of MRAM writes exactly its bytes,
and one that R457 restricts is refused wherever its unit is. The views complete with their records and change no cell.
SELFTEST in SAFE completes and leaves the mode. KEY_PROGRAM with every slot blank programs the slot with the digest and
usage; with the slot programmed already it is refused and leaves the fuses. -/
def Obligations.MemoryViewAndKeyCommandsComplete : Prop :=
  ∀ (s : State) (c : Command) (rest : List Command) (u : State), s.hor.cmdQ = c :: rest → u = s.takeCommand rest →
    (s.command 0x30#8 = some (c, u) → s.fieldAnswers = true → s.rangeStatus c.range = 0 →
      (∀ k, c.range.cloud = some k → (s.cloud k).state = .run) →
      ((∀ n, c.range.poisonNo = some n → ∀ w ∈ c.range.words, s.poisoned n w = false) →
        ∃ t x, exec .memRead s = .next t ∧ t.hor.cmdQ = rest ∧ t.hor.cplQ = [x] ∧ x.status = 0#8 ∧
          x.buffer.length = c.range.len ∧
          (∀ i, i < c.range.len → s.hiddenByte c.range.space (c.range.off + i) = false →
            x.buffer.getD i 0 = (s.readRange c.range).getD i 0) ∧
          t.mem = s.mem ∧ t.cells = s.cells ∧ t.clouds = s.clouds) ∧
      (∀ n w, c.range.poisonNo = some n → w ∈ c.range.words → s.poisoned n w = true →
        ∃ t x, exec .memRead s = .next t ∧ t.hor.cmdQ = rest ∧ t.hor.cplQ = [x] ∧ x.status = 5#8 ∧ t.mem = s.mem)) ∧
    (∀ k, s.command 0x30#8 = some (c, u) → s.fieldAnswers = true → s.rangeStatus c.range = 0 → c.range.cloud = some k →
      ((s.cloud k).state = .drain → exec .memRead s = .next s) ∧
      ((s.cloud k).state = .parked → ∃ t, exec .memRead s = .next t ∧ (t.cloud k).state = .waking ∧
        t.hor.cmdQ = s.hor.cmdQ ∧ t.mem = s.mem) ∧
      (((s.cloud k).state = .off ∨ (s.cloud k).state = .test ∨ (s.cloud k).state = .fenced) →
        ∃ t x, exec .memRead s = .next t ∧ t.hor.cmdQ = rest ∧ t.hor.cplQ = [x] ∧ x.status = 5#8 ∧ t.mem = s.mem)) ∧
    (s.command 0x31#8 = some (c, u) → s.fieldAnswers = true → s.rangeStatus c.range = 0 →
      s.writeStatus? c.range ≠ 0 → ∃ t x, exec .memWrite s = .next t ∧ t.hor.cmdQ = rest ∧ t.hor.cplQ = [x] ∧
        x.status = BitVec.ofNat 8 (s.writeStatus? c.range) ∧ t.mem = s.mem ∧ t.cells = s.cells ∧ t.clouds = s.clouds) ∧
    (s.command 0x31#8 = some (c, u) → s.fieldAnswers = true → s.rangeStatus c.range = 0 →
      s.writeStatus? c.range = 0 → srcVmonCore ∉ s.flt.level →
      ∀ m : State → Memory, ((c.range.space = 3 ∧ m = fun z => z.mem.glob) ∨ (c.range.space = 4 ∧ m = fun z => z.mem.dram) ∨
        (c.range.space = 5 ∧ m = fun z => z.mem.mram)) →
      ∃ t x, exec .memWrite s = .next t ∧ t.hor.cmdQ = rest ∧ t.hor.cplQ = [x] ∧ x.status = 0#8 ∧
        (∀ i, i < c.range.len → mget (m t) (c.range.off + i) = c.buffer.getD i 0) ∧
        (∀ a, a < c.range.off ∨ c.range.off + c.range.len ≤ a → mget (m t) a = mget (m s) a) ∧
        t.cells = s.cells ∧ t.clouds = s.clouds) ∧
    (∀ (i : Instr) (op : Byte) (pc : Nat) (bs : List Byte), s.command op = some (c, u) → s.fieldAnswers = true →
      (s.cloud (pc / 16)).state = .run → s.checks pc = false →
      ((i = .setView ∧ op = 0x32#8 ∧ pc = c.a0.toNat ∧ pc < s.variant.pcells ∧ c.a1.toNat < 256 ∧
          bs = u.setView pc c.a1.toNat) ∨
       (i = .keyView ∧ op = 0x33#8 ∧ c.a0.toNat < s.variant.lcells ∧ s.placeOf c.a0.toNat = some pc ∧
          bs = (u.keyView pc (BitVec.ofNat 12 (fld c.a1 11 0)) (BitVec.ofNat 16 (fld c.a2 15 0))
            (BitVec.ofNat 14 (fld c.a1 25 12))).flatten) ∨
       (i = .slotView ∧ op = 0x34#8 ∧ pc = c.a0.toNat ∧ pc < s.variant.pcells ∧ bs = u.slotView pc)) →
      ∃ t x, exec i s = .next t ∧ t.hor.cmdQ = rest ∧ t.hor.cplQ = [x] ∧ x.status = 0#8 ∧ x.buffer = bs ∧
        t.cells = s.cells ∧ t.clouds = s.clouds ∧ t.mem = s.mem ∧ t.mode = s.mode) ∧
    (∀ r : TestOutcome, s.command 0x40#8 = some (c, u) → s.fieldAnswers = true → s.mode.mode = .safe →
      ∃ t x, exec (.selftest r) s = .next t ∧ t.hor.cmdQ = rest ∧ t.hor.cplQ = [x] ∧ x.status = 0#8 ∧
        t.mode = s.mode ∧ t.fio = s.fio) ∧
    (s.command 0x50#8 = some (c, u) → c.a0.toNat < 16 → fld c.a0 3 2 ≠ 0 →
      ((∀ i, i < 4 → (s.key i).prog = false) → s.running = false →
        ∃ t x, exec (.keyProgram true) s = .next t ∧ t.hor.cmdQ = rest ∧ t.hor.cplQ = [x] ∧ x.status = 0#8 ∧
          (t.key (fld c.a0 1 0)).prog = true ∧ (t.key (fld c.a0 1 0)).digest = bytesDigest (c.data.take 32) ∧
          (t.key (fld c.a0 1 0)).usage.toNat = fld c.a0 3 2 ∧
          ∀ i, i ≠ fld c.a0 1 0 → t.key i = s.key i) ∧
      ((s.key (fld c.a0 1 0)).prog = true → ∀ ok, ∃ t x, exec (.keyProgram ok) s = .next t ∧ t.hor.cmdQ = rest ∧
        t.hor.cplQ = [x] ∧ x.status = 4#8 ∧ ∀ i, t.key i = s.key i))

/-- With the field side not answering and HOST_RST_N high, the register message that waits longest, and else a command at
the head that needs the field side, is answered with TIMEOUT at FIELD_SIDE_TIMEOUT (R442): a REG_RSP with that status
leaves by the upstream port, or the command completes with it. With a field side that answers again, nothing times out,
and the register messages that wait are performed, there and in an idle step. -/
def Obligations.UnansweredAccessesTimeOut : Prop :=
  (∀ (s : State) (a : BitVec 24) (w : Option Word) (ws : List (BitVec 24 × Option Word)), s.fieldAnswers = false →
    s.mode.hostRst = true → s.hor.waitRegs = (a, w) :: ws → ∃ t, exec .fieldSideTimeout s = .next t ∧
      t.hor.waitRegs = ws ∧ t.hor.cmdQ = s.hor.cmdQ ∧ t.regs = s.regs ∧ t.mode = s.mode ∧
      (s.upstreamUp = true → ∃ f, t.hor.outbox = s.hor.outbox ++ [f] ∧ f.type = 0x03#8 ∧
        f.payload.take 9 = leBytes 4 a.toNat ++ leBytes 4 (w.getD 0).toNat ++ [7#8])) ∧
  (∀ (s : State) (c : Command) (rest : List Command), s.fieldAnswers = false → s.mode.hostRst = true →
    s.hor.waitRegs = [] → s.hor.cmdQ = c :: rest → c.onHorizon = false →
    s.command c.op = some (c, s.takeCommand rest) → ∃ t x, exec .fieldSideTimeout s = .next t ∧ t.hor.cmdQ = rest ∧
      t.hor.cplQ = [x] ∧ x.id = c.id ∧ x.status = 7#8 ∧ t.mode = s.mode ∧ t.cells = s.cells) ∧
  (∀ s : State, s.fieldAnswers = true → s.hor.waitRegs = [] → exec .fieldSideTimeout s = .next s) ∧
  (∀ (s : State) (a : BitVec 24), s.fieldAnswers = true → s.upstreamUp = true → s.hor.waitRegs = [(a, none)] →
    (∃ t, exec .fieldSideTimeout s = .next t ∧ t.hor.waitRegs = [] ∧ t.regs = s.regs ∧
      t.hor.outbox.length = s.hor.outbox.length + 1) ∧
    (s.pending = [] → ∃ t, step s = .next t ∧ t.hor.waitRegs = []))

/-- The inject and extract rings (R449, R459, R460, R461, R496). A malformed entry at the head of an enabled inject
ring is skipped, with RING_STAT code 2. A well-formed event entry whose dispatcher queue has room becomes an event of
source 3 with its flow, flag and value. A token entry whose tag fits its flow, and for which the barrier port has a
credit, is launched at the root towards its cell; one whose tag does not fit launches nothing and is reported as
IFC_VER. While the dispatcher holds source 3 no entry is taken. The oldest token at the barrier port takes the next
sequence number and becomes an extract entry that is written or held; with 64 held it stays. With xdrop set and no
room the oldest held entry is dropped and counted. -/
def Obligations.InjectAndExtractEntries : Prop :=
  (∀ (s : State) (e : List Byte) (rest : List (List Byte)), (s.ring 1).fetched = e :: rest → s.ringOn 1 = true →
    (∀ x, tfind s.dsp.holding 3 = some x → exec .injectEntry s = .next s) ∧
    (tfind s.dsp.holding 3 = none → injectBad e = true → ∃ t, exec .injectEntry s = .next t ∧ (t.ring 1).fetched = rest ∧
      t.regF (aRingStat 1) 5 4 = 2 ∧ t.reg (aRingIdx 1) = s.reg (aRingIdx 1) + 1 ∧ t.dsp = s.dsp ∧ t.jet = s.jet) ∧
    (tfind s.dsp.holding 3 = none → injectBad e = false → s.fieldAnswers = true → s.dspOn = true →
      entryNat e 0 1 = 1 → s.eventRoom 3 = true → ∃ t, exec .injectEntry s = .next t ∧
      (t.ring 1).fetched = rest ∧ t.events 3 = s.events 3 ++ [injectEvent e] ∧ t.jet = s.jet ∧
      t.reg (aRingIdx 1) = s.reg (aRingIdx 1) + 1) ∧
    (∀ (tok : Token) (d : BitVec 5 × BitVec 4), tfind s.dsp.holding 3 = none → injectBad e = false →
      s.fieldAnswers = true → s.dspOn = true → entryNat e 0 1 = 2 → tok = Token.ofNat (entryNat e 16 16) →
      s.tagOk tok.flow.toNat (entryNat e 2 2) = true → s.injectCredit tok.cell.toNat = true →
      s.tokenRoute tok.cell.toNat = some d → ∃ t p, exec .injectEntry s = .next t ∧ (t.ring 1).fetched = rest ∧
        t.jet.rootOut = s.jet.rootOut ++ [p] ∧ p.cargo = .plain (.token tok) ∧ (p.dcloud, p.dcell) = s.outwardDest tok.cell.toNat ∧ p.vc = .t ∧
        t.reg (aRingIdx 1) = s.reg (aRingIdx 1) + 1) ∧
    (tfind s.dsp.holding 3 = none → injectBad e = false → s.fieldAnswers = true → s.dspOn = true →
      entryNat e 0 1 = 2 → s.tagOk (Token.ofNat (entryNat e 16 16)).flow.toNat (entryNat e 2 2) = false →
      ∃ t r, exec .injectEntry s = .next t ∧ (t.ring 1).fetched = rest ∧ t.jet = s.jet ∧ t.dsp = s.dsp ∧
        t.flt.inQ = putReport r s.flt.inQ ∧ r.source = srcIfcVer)) ∧
  (∀ (s : State) (tok : Token) (rest : List Token), s.bar.inQ = tok :: rest →
    (s.fieldOn = true → s.bar.extractQ.length < 64 → ∃ t, exec .extractToken s = .next t ∧ t.bar.inQ = rest ∧
      t.bar.xseq = s.bar.xseq + 1 ∧
      (s.ringRoom 2 = false → t.bar.extractQ = s.bar.extractQ ++ [s.extractEntry tok] ∧ t.hor = s.hor) ∧
      (s.ringRoom 2 = true → s.bar.extractQ = [] → t.bar.extractQ = [] ∧
        t.reg (aRingIdx 2) = s.reg (aRingIdx 2) + 1)) ∧
    (64 ≤ s.bar.extractQ.length → exec .extractToken s = .next s)) ∧
  (∀ (s : State) (e : List Byte) (rest : List (List Byte)), s.bar.extractQ = e :: rest → s.ringRoom 2 = false →
    s.regF (aRingCfg 2) 9 9 = 1 → ∃ t, exec .extractDrop s = .next t ∧ t.bar.extractQ = rest ∧
      t.regF (aRingStat 2) 31 16 = min 65535 (s.regF (aRingStat 2) 31 16 + 1) ∧ t.hor = s.hor)

/-- The service session (R463, R464, R465, R466, R467). A connection of an enabled port sends the identification line; a
disconnection ends the session, as the session timeout and LOGOUT do, and an image sequence of the service port with it
(log entry 115). CHALLENGE outside the lockout makes a new nonce the latest. An AUTH whose conditions hold gives the
session the rights it asked for; one whose conditions do not hold ends at level 0, and the third in a row starts the
lockout; either uses up the nonce. IDENT answers with a field side that answers. The lockout's end clears it. Every frame
is answered with one text line: its seq, its command plus 0x80, the status, and the CRC-16. -/
def Obligations.ServiceSessionsFollowTheirRights : Prop :=
  (∀ s : State, s.mode.hostRst = true → s.regF aSvcCtrl 0 0 = 1 → s.hor.svc.conn = false →
    ∃ t, exec .usbConnect s = .next t ∧ t.hor.svc.conn = true ∧ t.hor.svc.line = some s.connectLine ∧ t.regs = s.regs) ∧
  (∀ s : State, s.hor.svc.lockout = true → ∃ t, exec .lockoutEnd s = .next t ∧ t.hor.svc.lockout = false ∧
    t.hor.svc.streak = 0 ∧ t.hor.svc.level = s.hor.svc.level) ∧
  (∀ s : State, s.svcLive = true →
    (∃ t, exec .usbDisconnect s = .next t ∧ t.hor.svc.conn = false ∧ t.hor.svc.level = 0#2 ∧ t.mode = s.mode ∧
      ∀ q, t.hor.image = some q → q.service = false) ∧
    (∃ t, exec .sessionTimeout s = .next t ∧ t.hor.svc.conn = true ∧ t.hor.svc.level = 0#2 ∧
      ∀ q, t.hor.image = some q → q.service = false) ∧
    (∀ seq : Byte, ∃ t, exec (.logout seq) s = .next t ∧ t.hor.svc.level = 0#2 ∧
      t.hor.svc.answers = s.hor.svc.answers ++ [svcLine seq 0x84#8 [0#8]] ∧
      ∀ q, t.hor.image = some q → q.service = false) ∧
    (∀ seq : Byte, s.fieldAnswers = true → ∃ t, exec (.ident seq) s = .next t ∧ t.mode = s.mode ∧
      t.hor.svc.answers = s.hor.svc.answers ++ [svcLine seq 0x81#8 (0#8 :: s.identity)]) ∧
    (∀ seq : Byte, s.hor.svc.lockout = false → ∃ t n, exec (.challenge seq) s = .next t ∧
      t.hor.svc.nonce = some n ∧ t.hor.svc.level = s.hor.svc.level ∧
      t.hor.svc.answers = s.hor.svc.answers ++ [svcLine seq 0x82#8 (0#8 :: leBytes 16 n.toNat)]) ∧
    (∀ seq : Byte, s.hor.svc.lockout = true → ∃ t, exec (.challenge seq) s = .next t ∧
      t.hor.svc.nonce = s.hor.svc.nonce ∧ t.hor.svc.answers = s.hor.svc.answers ++ [svcLine seq 0x82#8 [4#8]]) ∧
    (∀ (seq : Byte) (p : AuthPayload), (p.rights = 1 ∨ p.rights = 2) → ∃ t x, exec (.auth seq p) s = .next t ∧
      t.hor.svc.nonce = none ∧ t.hor.svc.answers = s.hor.svc.answers ++ [svcLine seq 0x83#8 x] ∧
      (s.authOk p = true → t.hor.svc.level = p.rights.setWidth 2 ∧ t.hor.svc.streak = 0 ∧ x = [0#8, p.rights]) ∧
      (s.authOk p = false → t.hor.svc.level = 0#2 ∧ x.head? ≠ some 0#8 ∧
        t.hor.svc.streak = s.hor.svc.streak + 1 ∧ (2 ≤ s.hor.svc.streak → t.hor.svc.lockout = true))))

/-- The service commands above level 0 (R465, R467, R507, R469, R472): each runs at its level or above. LOGREAD and
REGREAD answer and change no cell, memory or register value; SELFTEST runs in SAFE; IMG_BEGIN, IMG_BLOCK and IMG_END, where
SVC_CTRL.img allows them, open, fill and close a sequence of the service port; KEY_PROG with every slot blank programs
one. Below its level a command is answered REFUSED and nothing else changes; without a connection nothing happens. -/
def Obligations.ServiceCommandsNeedTheirLevel : Prop :=
  ∀ (s : State) (seq : Byte), s.svcLive = true →
    (∀ (first : BitVec 16) (n : Nat), 1 ≤ s.hor.svc.level.toNat → s.fieldAnswers = true → 1 ≤ n → n ≤ 7 →
      ∃ t bs, exec (.logread seq first n) s = .next t ∧ t.regs = s.regs ∧ t.mem = s.mem ∧ t.cells = s.cells ∧
        t.hor.svc.answers = s.hor.svc.answers ++ [svcLine seq 0x90#8 (0#8 :: bs)]) ∧
    (∀ (a : BitVec 24) (n : Nat), 1 ≤ s.hor.svc.level.toNat → 1 ≤ n → n ≤ 32 →
      ∃ t x, exec (.regread seq a n) s = .next t ∧ t.regs = s.regs ∧ t.mem = s.mem ∧ t.cells = s.cells ∧
        t.mode = s.mode ∧ t.hor.svc.answers = s.hor.svc.answers ++ [svcLine seq 0x91#8 x]) ∧
    (∀ r : TestOutcome, s.hor.svc.level = 2#2 → s.fieldAnswers = true → s.mode.mode = .safe →
      ∃ t bs, exec (.svcSelftest seq r) s = .next t ∧ t.mode = s.mode ∧ bs.length = 4 ∧
        t.hor.svc.answers = s.hor.svc.answers ++ [svcLine seq 0xA0#8 (0#8 :: bs)]) ∧
    (s.hor.svc.level = 2#2 → s.fieldAnswers = true → s.regF aSvcCtrl 1 1 = 1 →
      (∀ len : Word, s.hor.image = none → s.mode.trial = false → len ≠ 0 → len.toNat ≤ (s.variant.slot false).2 →
        ∃ t, exec (.imgBegin seq len) s = .next t ∧ t.slotValid (!s.mode.activeB) = false ∧
          t.hor.image = some { service := true, next := 0, total := len.toNat } ∧
          t.hor.svc.answers = s.hor.svc.answers ++ [svcLine seq 0xB0#8 [0#8]]) ∧
      (∀ (q : ImageSeq) (off : Word) (bs : List Byte), s.hor.image = some q → q.service = true → bs ≠ [] →
        bs.length ≤ 224 → off.toNat = q.next → q.next + bs.length ≤ q.total →
        ∃ t, exec (.imgBlock seq off bs) s = .next t ∧ t.hor.image = some { q with next := q.next + bs.length } ∧
          t.hor.svc.answers = s.hor.svc.answers ++ [svcLine seq 0xB1#8 [0#8]]) ∧
      (∀ q : ImageSeq, s.hor.image = some q → q.service = true →
        ∃ t x, exec (.imgEnd seq) s = .next t ∧ t.hor.image = none ∧
          t.hor.svc.answers = s.hor.svc.answers ++ [svcLine seq 0xB2#8 x] ∧
          ((s.imageVerdict q (s.slotImage (!s.mode.activeB))).result ≠ 1 → x = [6#8] ∧ t.mem = s.mem) ∧
          ((s.imageVerdict q (s.slotImage (!s.mode.activeB))).result = 1 → (s.slotImage (!s.mode.activeB)).byte 5 ≠ 2 →
            t.slotValid (!s.mode.activeB) = true ∧ x = 0#8 :: (leBytes 4 (b2n (!s.mode.activeB)) ++ digestBytes
              (sha256 (mread s.mem.mram (s.variant.slot (!s.mode.activeB)).1 (q.total - 96))))))) ∧
    (∀ (slot usage : BitVec 2) (d : BitVec 256) (b : SigBlock), (∀ i, i < 4 → (s.key i).prog = false) →
      s.running = false → usage ≠ 0 → ∃ t, exec (.keyProg seq slot usage d b true) s = .next t ∧
        (t.key slot.toNat).prog = true ∧ (t.key slot.toNat).digest = d ∧ (t.key slot.toNat).usage = usage ∧
        t.hor.svc.answers = s.hor.svc.answers ++ [svcLine seq 0xC0#8 [0#8]]) ∧
    (∀ (c : Instr) (cmd : Byte) (level : Nat), s.hor.svc.level.toNat < level →
      (((∃ f n, c = .logread seq f n) ∧ cmd = 0x90#8 ∧ level = 1) ∨ ((∃ a n, c = .regread seq a n) ∧ cmd = 0x91#8 ∧ level = 1) ∨
       ((∃ r, c = .svcSelftest seq r) ∧ cmd = 0xA0#8 ∧ level = 2) ∨ ((∃ n, c = .imgBegin seq n) ∧ cmd = 0xB0#8 ∧ level = 2) ∨
       ((∃ o bs, c = .imgBlock seq o bs) ∧ cmd = 0xB1#8 ∧ level = 2) ∨ (c = .imgEnd seq ∧ cmd = 0xB2#8 ∧ level = 2) ∨
       ((∃ k z d b ok, c = .keyProg seq k z d b ok) ∧ cmd = 0xC0#8 ∧ level = 2 ∧ ∃ i, i < 4 ∧ (s.key i).prog = true)) →
      exec c s = .next { s with hor := { s.hor with svc := { s.hor.svc with
        answers := s.hor.svc.answers ++ [svcLine seq cmd [4#8]] } } })


/-! ### Cells -/

/-- TOKEN_ACCEPT, PREFETCH_MESSAGE, PRE_MATCHED_ACTIVATION (R42 to R47, R60, R63, R70, R74, R143, R150) in a running
cell. A token that fails a check of R42 leaves the queue and TOKEN_BAD is raised. In a Dynamic cell, without a
double-bit error: a monadic token fires into the ready queue, waits at the head while that queue is full, and is
discarded where its activation has no LIVE frame; a left token fires with the latch of its address; a token whose
partner waits fires with it, the left value first, and the partner leaves the store; one of the same port is
discarded; one without a partner is stored in the lowest free way of its set; a latch token replaces value, stamp and
iteration of the latch it finds. Where a set that has tokens at the spill engine gains or loses an entry, one message
to the engine is formed (R70, R72). A prefetch message opens its frame and fills the prefetch slot, and in a FAULTED
partition it is refused and opens none (R361); a pre-matched activation enters the ready queue past the store. No
other cell, register or memory changes. The report of TOKEN_BAD shows the first half of the token in its syndrome and
the key in its address (log entry 25, the model's choice). -/
def Obligations.TokensFireWaitOrAreRefused : Prop :=
  (∀ (pcell : Nat) (ecc : MatchEcc) (s : State) (k : Token) (credit : Option Credit) (rest : List Intake),
    pcell < s.variant.pcells → s.cellRuns pcell = true → (s.cell pcell).schedQ = [] →
    (s.cell pcell).inQ = .network k none credit :: rest →
    ∃ t, exec (.tokenAccept pcell ecc) s = .next t ∧ (∀ q, q ≠ pcell → t.cell q = s.cell q) ∧
      t.regs = s.regs ∧ t.mem = s.mem ∧ t.mode = s.mode ∧
      (tokenOk k ((s.lidOf pcell).map s.workId) (s.isSched pcell) false = false →
        t.cell pcell = { s.cell pcell with inQ := rest } ∧
        t.flt = (s.raise srcTokenBad (cellMaster pcell) accToken (keyAddr k.flow k.addr) k.value).flt) ∧
      (tokenOk k ((s.lidOf pcell).map s.workId) (s.isSched pcell) false = true → s.isSched pcell = false →
        (∀ place, ecc ≠ .double place) →
        (k.port = 0 ∨ (k.port = 1 ∧ ((s.cell pcell).findLatch k.flow k.addr).isSome) →
          (s.cell pcell).readyFull = true → t = s) ∧
        (k.port = 0 → (s.cell pcell).readyFull = false → t.cell pcell = { s.cell pcell with
          inQ := rest
          readyQ := if (s.cell pcell).live k.flow k.iteration
            then insertReady s.now (s.cell pcell).readyQ (monoAct k) else (s.cell pcell).readyQ }) ∧
        (∀ i lat, k.port = 1 → (s.cell pcell).findLatch k.flow k.addr = some (i, lat) →
          (s.cell pcell).readyFull = false → (s.cell pcell).live k.flow k.iteration = true →
          t.cell pcell = { s.cell pcell with
            inQ := rest, readyQ := insertReady s.now (s.cell pcell).readyQ (latchAct k lat.tok) }) ∧
        (∀ i e, (s.cell pcell).findLatch k.flow k.addr = none →
          (s.cell pcell).probe (setOf k.flow k.iteration k.addr) false k.flow k.iteration k.addr = some (i, e) →
          (k.port = 1 ∧ e.tok.port = 2 ∨ k.port = 2 ∧ e.tok.port = 1 → (s.cell pcell).readyFull = false →
            (s.cell pcell).live e.tok.flow e.tok.iteration = true →
            (t.cell pcell).houseQ.length = (s.cell pcell).houseQ.length +
              (if (s.cell pcell).spills (setOf k.flow k.iteration k.addr) = 0 then 0 else 1) ∧
            t.cell pcell = { s.cell pcell with
              inQ := rest, store := terase (s.cell pcell).store i
              readyQ := insertReady s.now (s.cell pcell).readyQ
                (if k.port = 1 then pairAct k e.tok else pairAct e.tok k)
              houseQ := (t.cell pcell).houseQ }) ∧
          (k.port = 1 ∨ k.port = 2 → e.tok.port = k.port → t.cell pcell = { s.cell pcell with inQ := rest })) ∧
        (∀ i, k.port = 1 ∨ k.port = 2 → (s.cell pcell).findLatch k.flow k.addr = none →
          (s.cell pcell).probe (setOf k.flow k.iteration k.addr) false k.flow k.iteration k.addr = none →
          (s.cell pcell).freeWay (setOf k.flow k.iteration k.addr) = some i →
          (t.cell pcell).houseQ.length = (s.cell pcell).houseQ.length +
            (if (s.cell pcell).spills (setOf k.flow k.iteration k.addr) = 0 then 0 else 1) ∧
          t.cell pcell = { s.cell pcell with
            inQ := rest
            store := tins (s.cell pcell).store i { tok := { k with fmt := 3 }, latch := false, past := false }
            houseQ := (t.cell pcell).houseQ }) ∧
        (∀ i e, k.port = 3 → (s.cell pcell).findLatch k.flow k.addr = some (i, e) →
          t.cell pcell = { s.cell pcell with
            inQ := rest
            store := tins (s.cell pcell).store i { e with tok := { e.tok with
              value := k.value, stamp := k.stamp, iteration := k.iteration } } }))) ∧
  (∀ (pcell : Nat) (s : State) (h : Header) (k : Token), pcell < s.variant.pcells → s.cellRuns pcell = true →
    (s.cell pcell).prefetchIn = some (h, k) → (s.cell pcell).prefetch = none →
    ∃ t, exec (.prefetchMessage pcell) s = .next t ∧
      (t.cell pcell).prefetchIn = none ∧ (t.cell pcell).store = (s.cell pcell).store ∧
      (s.inFaulted pcell = false → (t.cell pcell).prefetch = some (monoAct k) ∧
        (∃ e ∈ (t.cell pcell).dir, e.hdr = h ∧ e.state = .live ∧ e.busy = 0)) ∧
      (s.inFaulted pcell = true → (t.cell pcell).prefetch = none ∧ (t.cell pcell).dir = (s.cell pcell).dir) ∧
      (∀ q, q ≠ pcell → t.cell q = s.cell q) ∧ t.regs = s.regs ∧ t.mem = s.mem) ∧
  (∀ (pcell : Nat) (s : State) (a : Activation) (cr : Option Credit)
      (rest : List (Activation × Option Credit)), pcell < s.variant.pcells →
    s.cellRuns pcell = true → (s.cell pcell).preQ = (a, cr) :: rest → (s.cell pcell).readyFull = false →
    (s.cell pcell).live a.flow a.iteration = true →
    ∃ t, exec (.preMatchedActivation pcell) s = .next t ∧ t.cell pcell = { s.cell pcell with
        preQ := rest, readyQ := insertReady s.now (s.cell pcell).readyQ a } ∧
      (∀ q, q ≠ pcell → t.cell q = s.cell q) ∧ t.regs = s.regs ∧ t.mem = s.mem)

/-- LATCH_SWEEP, AGER_VISIT, SPILL_AGER, PURGE (R48, R53 to R55, R57). A sweep for which the ready queue has room
ends, and leaves no waiting token of the latch's flow and address and every other entry as it was: each left token of
theirs whose activation has a LIVE frame is in the ready queue, fired with the latch, and each right one is reported
as PORT_MIX. A visit of the ager, without a double-bit error, moves it to the next set; an entry of the visited set
that is not late, or whose flow's policy keeps late tokens, keeps its place with its past and late bits brought up to
date, one that is late leaves under the other policies, and no other entry changes. The spill engine's ager does the
same at a level that it visits, takes no entry into the other level, and where a flow's policy is fault reports
TOKEN_LATE; under policy drop the cell's late-drop counter advances. A purge leaves the queue and the store holds
nothing that it names; without a double-bit error every other entry stays. In a Dynamic cell it goes on to the spill
engine as a message, in a Scheduled cell it is reported complete. -/
def Obligations.StoresAreSweptAgedAndPurged : Prop :=
  (∀ (pcell : Nat) (s : State) (k : Token) (i : Nat) (lat : Entry), pcell < s.variant.pcells →
    s.cellRuns pcell = true → (s.cell pcell).sweep = some k →
    (s.cell pcell).findLatch k.flow k.addr = some (i, lat) → ((s.cell pcell).store.map Prod.fst).Nodup →
    (s.cell pcell).readyQ.length + (s.cell pcell).store.length ≤ 64 →
    ∃ t, exec (.latchSweep pcell) s = .next t ∧ (t.cell pcell).sweep = none ∧
      (∀ e ∈ (t.cell pcell).store, e.2.latch = false →
        ¬ (e.2.tok.flow = lat.tok.flow ∧ e.2.tok.addr = lat.tok.addr)) ∧
      (∀ j e, tfind (s.cell pcell).store j = some e →
        (e.latch = true ∨ ¬ (e.tok.flow = lat.tok.flow ∧ e.tok.addr = lat.tok.addr)) →
        tfind (t.cell pcell).store j = some e) ∧
      (∀ j e, tfind (s.cell pcell).store j = some e → e.latch = false → e.tok.flow = lat.tok.flow →
        e.tok.addr = lat.tok.addr →
        (e.tok.port ≠ 2 → (s.cell pcell).live e.tok.flow e.tok.iteration = true →
          latchAct e.tok lat.tok ∈ (t.cell pcell).readyQ) ∧
        (e.tok.port = 2 → s.mode.mode ≠ .reset → ∃ r ∈ t.flt.inQ, r.source = srcPortMix)) ∧
      (∀ q, q ≠ pcell → t.cell q = s.cell q) ∧ t.regs = s.regs ∧ t.mem = s.mem) ∧
  (∀ (pcell : Nat) (ecc : MatchEcc) (s : State), pcell < s.variant.pcells → s.cellRuns pcell = true →
    (s.cell pcell).sweep = none → (∀ place, ecc ≠ .double place) →
    ∃ t, exec (.agerVisit pcell ecc) s = .next t ∧ (t.cell pcell).ager = ((s.cell pcell).ager + 1) % 256 ∧
      (∀ j e, tfind (s.cell pcell).store j = some e →
        (j / 8 = (s.cell pcell).ager % 256 →
          ((e.age s.now).2 = false ∨ (s.cell pcell).policy e.tok.flow = 0 →
            tfind (t.cell pcell).store j = some (e.age s.now).1) ∧
          ((e.age s.now).2 = true → (s.cell pcell).policy e.tok.flow ≠ 0 →
            tfind (t.cell pcell).store j = none)) ∧
        (j / 8 ≠ (s.cell pcell).ager % 256 → tfind (t.cell pcell).store j = some e)) ∧
      (∀ q, q ≠ pcell → t.cell q = s.cell q) ∧ t.regs = s.regs ∧ t.mem = s.mem) ∧
  (∀ (cloud level : Nat) (s : State), cloud < s.variant.clouds → level = 2 ∨ level = 3 → s.engineOn cloud = true →
    ∃ t, exec (.spillAger cloud level) s = .next t ∧ t.regs = s.regs ∧ t.mem = s.mem ∧
      (∀ c, c ≠ cloud → (t.cloud c).l2 = (s.cloud c).l2 ∧ (t.cloud c).l3 = (s.cloud c).l3 ∧
        (s.rep.phase = .idle → t.cloud c = s.cloud c)) ∧
      (∀ j e, (e.age s.now).2 = false ∨ s.flowPolicy e.tok.flow = 0 →
        (level = 2 → tfind (s.cloud cloud).l2 j = some e → tfind (t.cloud cloud).l2 j = some (e.age s.now).1) ∧
        (level = 3 → tfind (s.cloud cloud).l3 j = some e → tfind (t.cloud cloud).l3 j = some (e.age s.now).1)) ∧
      (∀ j e, (e.age s.now).2 = true → s.flowPolicy e.tok.flow ≠ 0 →
        (level = 2 ∧ tfind (s.cloud cloud).l2 j = some e) ∨ (level = 3 ∧ tfind (s.cloud cloud).l3 j = some e) →
        (level = 2 → (s.cloud cloud).l3 = [] → tfind (t.cloud cloud).l2 j = none) ∧
        (level = 3 → tfind (t.cloud cloud).l3 j = none) ∧
        (∀ p, s.flowPolicy e.tok.flow = 1 → s.homeIn cloud e.tok.cell = some p →
          (s.cell p).lateDrops < (t.cell p).lateDrops) ∧
        (s.flowPolicy e.tok.flow ≠ 1 → s.mode.mode ≠ .reset → ∃ r ∈ t.flt.inQ, r.source = srcTokenLate)) ∧
      (level = 3 → (t.cloud cloud).l2 = (s.cloud cloud).l2) ∧
      (level = 2 → ∀ e ∈ (t.cloud cloud).l3, e ∈ (s.cloud cloud).l3)) ∧
  (∀ (pcell : Nat) (ecc : MatchEcc) (s : State) (p : Purge) (rest : List Purge), pcell < s.variant.pcells →
    s.cellRuns pcell = true → (s.cell pcell).purges = p :: rest → ((s.cell pcell).store.map Prod.fst).Nodup →
    ∃ t, exec (.purge ⟨pcell, ecc⟩) s = .next t ∧ (t.cell pcell).purges = rest ∧
      (∀ e ∈ (t.cell pcell).store, p.names e.2 = false) ∧
      ((∀ place, ecc ≠ .double place) → ∀ j e, tfind (s.cell pcell).store j = some e → p.names e = false →
        tfind (t.cell pcell).store j = some e) ∧
      (s.isSched pcell = false → ∃ h ∈ (t.cell pcell).houseQ, h.what = .purge p ∧ h.op = 0x65 ∧
        (t.cell pcell).houseQ.take (s.cell pcell).houseQ.length = (s.cell pcell).houseQ) ∧
      (∀ lid, s.isSched pcell = true → s.lidOf pcell = some lid →
        t.dsp.reports = s.dsp.reports ++ [.purgeDone lid p]) ∧
      (∀ q, q ≠ pcell → t.cell q = s.cell q) ∧ t.regs = s.regs ∧ t.mem = s.mem)

/-- STRAND_START, PREEMPTION, STRAND_RESUME, DIVIDE_COMPLETE (R108, R147, R148, R153 to R156), where no FENCE stands at
the strand's program counter. The best firing takes the free slot: its strand starts at the firing's address with an
empty link, the window at the base of the lowest free area, the two values in its first words, and the area is busy.
A pre-emption puts the victim in the resume list and the class U firing in its slot. A suspended strand that wins a
slot takes back what its record holds. A divide that completes writes QT and MD, and the strand goes on after it. -/
def Obligations.StrandsStartYieldAndResume : Prop :=
  (∀ (pcell slot i d j : Nat) (s : State) (st : Start) (a : Activation) (e : DirEntry), pcell < s.variant.pcells →
    s.cellRuns pcell = true → (s.cell pcell).freeSlot = some slot → s.bestStart pcell = some st →
    st = .ready i a ∨ st = .prefetch a →
    (s.cell pcell).findDir a.flow a.iteration = some d → (s.cell pcell).dir[d]? = some e → e.state = .live →
    e.freeArea = some j → 40 ≤ e.hdr.areaWords.toNat →
    ((s.cell pcell).parcel a.addr.toNat).setWidth 16 ≠ (0xCC00 : BitVec 16) →
    ∃ t u, exec (.strandStart pcell) s = .next t ∧ (t.cell pcell).strand slot = some u ∧
      u.flow = a.flow ∧ u.iteration = a.iteration ∧ u.cls = a.cls ∧ u.stamp = a.stamp ∧ u.pc = a.addr ∧
      u.si = a.iteration ∧ u.b = BitVec.ofNat 14 (e.hdr.areaBase j) ∧ u.f = u.b ∧ u.lk = 0 ∧ u.depth = 0 ∧
      u.rep = false ∧ u.wait = .nothing ∧
      (t.cell pcell).word (e.hdr.areaBase j) = a.w0 ∧ (t.cell pcell).word (e.hdr.areaBase j + 1) = a.w1 ∧
      (∃ e', (t.cell pcell).dir[d]? = some e' ∧ e'.busy = e.busy ||| (1 : Byte) <<< j ∧ e'.hdr = e.hdr ∧
        e'.state = .live) ∧
      (st = .ready i a → (t.cell pcell).readyQ = (s.cell pcell).readyQ.eraseIdx i) ∧
      (st = .prefetch a → (t.cell pcell).prefetch = none) ∧
      (∀ q, q ≠ pcell → t.cell q = s.cell q) ∧ t.regs = s.regs ∧ t.mem = s.mem ∧ t.mode = s.mode) ∧
  (∀ (pcell slot i d j : Nat) (s : State) (v : Strand) (a : Activation) (e : DirEntry), pcell < s.variant.pcells →
    s.cellRuns pcell = true → (s.cell pcell).slots.length = 8 → (s.cell pcell).listRoom = true →
    s.bestStart pcell = some (.ready i a) → a.cls = 0 →
    (s.cell pcell).victimStrand s.now (s.cell pcell).slots = some (slot, v) → v.atPoint = true →
    (s.cell pcell).findDir a.flow a.iteration = some d → (s.cell pcell).dir[d]? = some e → e.state = .live →
    e.freeArea = some j → ((s.cell pcell).parcel a.addr.toNat).setWidth 16 ≠ (0xCC00 : BitVec 16) →
    ∃ t u w, exec (.preemption pcell) s = .next t ∧ (t.cell pcell).strand slot = some u ∧ u.flow = a.flow ∧
      u.iteration = a.iteration ∧ u.pc = a.addr ∧ (t.cell pcell).resume = (s.cell pcell).resume ++ [w] ∧
      w.uid = v.uid ∧ w.pc = v.pc ∧ w.b = v.b ∧ w.lk = v.lk ∧ w.area = v.area ∧ (v.wait = .nothing → w = v) ∧
      (∀ q, q ≠ pcell → t.cell q = s.cell q) ∧ t.regs = s.regs ∧ t.mem = s.mem) ∧
  (∀ (pcell slot : Nat) (s : State) (v : Strand), pcell < s.variant.pcells → s.cellRuns pcell = true →
    (s.cell pcell).freeSlot = some slot → s.bestStart pcell = some (.resume v) →
    isFence ((s.cell pcell).fetchWord ((s.cell pcell).restoreStrand v)) = false →
    ∃ t, exec (.strandResume pcell) s = .next t ∧
      (t.cell pcell).strand slot = some ((s.cell pcell).restoreStrand v) ∧
      (t.cell pcell).resume = (s.cell pcell).resume.filter (fun x => x.uid ≠ v.uid) ∧
      (t.cell pcell).dir = (s.cell pcell).dir ∧ (t.cell pcell).readyQ = (s.cell pcell).readyQ ∧
      (∀ q, q ≠ pcell → t.cell q = s.cell q) ∧ t.regs = s.regs ∧ t.mem = s.mem) ∧
  (∀ (pcell slot : Nat) (s : State) (v : Strand) (q r : Word) (kept : Bool), pcell < s.variant.pcells → slot < 8 →
    s.cellRuns pcell = true → (s.cell pcell).strand slot = some v → v.wait = .divide q r kept →
    (s.cell pcell).slotOf v.uid = some slot →
    Continues (s.cell pcell) ({ v with qt := q, md := r, wait := .nothing }.advance 2 none) →
    exec (.divideComplete pcell slot) s = .next (s.modCell pcell (fun c =>
      c.putStrand slot ({ v with qt := q, md := r, wait := .nothing }.advance 2 none))))

/-- RESPONSE_ARRIVAL, LOCK_GRANT, ITER_GRANT_MESSAGE, BOOST_APPLY, PAIR_ACK (R118, R185, R190, R276, R285, R291, R292,
R317). The answer to a load of up to four bytes writes the loaded value, extended as the load says, to the destination
window register, and frees the tag; a lock grant enters the held-lock table and writes its status; an ITER grant opens
the new frame and writes the iteration, which becomes the strand's next-iteration tag; in each case the strand waits
no more and goes on after its instruction. A lock granted to a strand that is gone is passed on, and an iteration
granted to one that is gone is complete and its frame free. A boost sets or ends the flow's effective class and
reprioritises its waits for locks. An acknowledgement frees one output of its strand, and a strand that waits for such
a place goes on. -/
def Obligations.AnswersCompleteWaitingStrands : Prop :=
  (∀ (pcell slot : Nat) (s : State) (r : Response) (rest : List Response) (o : Outstanding) (v : Strand) (rd size : Nat)
      (signed : Bool), pcell < s.variant.pcells → s.cellRuns pcell = true → (s.cell pcell).respQ = r :: rest →
    r.tag ≠ 63 → (s.cell pcell).tags.find? (fun o => o.tag = r.tag.toNat) = some o →
    o.what = .load rd size signed → size = 1 ∨ size = 2 ∨ size = 4 → rd < 32 → r.status.toNat < 0x10 →
    (s.cell pcell).findStrand o.uid = some v → (s.cell pcell).slotOf v.uid = some slot → v.rep = false →
    Continues (s.cell pcell) ({ v with wait := .nothing }.advance 2 none) →
    ∃ t, exec (.responseArrival pcell) s = .next t ∧
      (t.cell pcell).strand slot = some ({ v with wait := .nothing }.advance 2 none) ∧
      (t.cell pcell).word (v.windowWord rd) = loaded size signed r.data.toNat ∧
      (∀ a, a / 4 ≠ v.windowWord rd → mget (t.cell pcell).frame a = mget (s.cell pcell).frame a) ∧
      (t.cell pcell).respQ = rest ∧
      (t.cell pcell).tags = (s.cell pcell).tags.filter (fun o => o.tag ≠ r.tag.toNat) ∧
      (∀ q, q ≠ pcell → t.cell q = s.cell q) ∧ t.regs = s.regs ∧ t.mem.glob = s.mem.glob ∧ t.mem.dram = s.mem.dram) ∧
  (∀ (pcell : Nat) (s : State) (r : Response) (rest : List Response) (w : WaitRec), pcell < s.variant.pcells →
    s.cellRuns pcell = true → (s.cell pcell).respQ = r :: rest → r.tag = 63 →
    (s.cell pcell).waits.find? (fun x => x.waitId = bitsOf r.data.toNat 25 22) = some w →
    (∀ (slot : Nat) (v : Strand) (n rd : Nat) (ea : Word), (s.cell pcell).findStrand w.uid = some v →
      v.wait = .lock n rd ea → rd < 32 → (s.cell pcell).slotOf v.uid = some slot → v.rep = false →
      Continues (s.cell pcell) ({ v with wait := .nothing }.advance 2 none) →
      ∃ t, exec (.lockGrant pcell) s = .next t ∧
        (t.cell pcell).strand slot = some ({ v with wait := .nothing }.advance 2 none) ∧
        (t.cell pcell).word (v.windowWord rd) = r.status.setWidth 32 ∧ (t.cell pcell).respQ = rest ∧
        (t.cell pcell).held = (s.cell pcell).held ++ [{ flow := w.flow, addr := ea }] ∧
        (∀ x ∈ (t.cell pcell).waits, x.waitId ≠ bitsOf r.data.toNat 25 22) ∧
        (∀ q, q ≠ pcell → t.cell q = s.cell q) ∧ t.regs = s.regs) ∧
    ((s.cell pcell).findStrand w.uid = none → ∃ t, exec (.lockGrant pcell) s = .next t ∧
      t.cell pcell = { s.cell pcell with
        respQ := rest
        houseQ := (s.cell pcell).houseQ ++
          [{ what := .unl w.flow, ea := w.addr, op := 0x52, data := lockWord (s.idOf pcell) w.flow 0 0, body := []
             seq := .ofFlow w.flow }] } ∧
      (∀ q, q ≠ pcell → t.cell q = s.cell q) ∧ t.regs = s.regs ∧ t.mem = s.mem)) ∧
  (∀ (pcell : Nat) (s : State) (h : Header) (req : BitVec 16) (credit : Option Credit) (rest : List Intake),
    pcell < s.variant.pcells → s.cellRuns pcell = true → (s.cell pcell).inQ = .grant h req credit :: rest →
    (∀ e ∈ (s.cell pcell).dir, e.scheduled = false) →
    (∀ (slot : Nat) (v : Strand) (rd n : Nat),
      longestIter ((s.cell pcell).strands.filter (fun t => t.flow = h.flow && t.iteration = req)) = some v →
      v.wait = .iter rd n → (s.cell pcell).findStrand v.uid = some v → (s.cell pcell).slotOf v.uid = some slot →
      rd < 32 → v.rep = false → Continues (s.cell pcell) ({ v with wait := .nothing }.advance 2 none) →
      ∃ t, exec (.iterGrantMessage pcell) s = .next t ∧ (t.cell pcell).inQ = rest ∧
        (t.cell pcell).strand slot = some ({ v with si := h.iteration, wait := .nothing }.advance 2 none) ∧
        (t.cell pcell).word (v.windowWord rd) = h.iteration.setWidth 32 ∧
        (∃ e ∈ (t.cell pcell).dir, e.hdr = h ∧ e.state = .live) ∧
        (∀ q, q ≠ pcell → t.cell q = s.cell q) ∧ t.regs = s.regs) ∧
    (∀ lid, longestIter ((s.cell pcell).strands.filter (fun t => t.flow = h.flow && t.iteration = req)) = none →
      s.lidOf pcell = some lid → ∃ t, exec (.iterGrantMessage pcell) s = .next t ∧ (t.cell pcell).inQ = rest ∧
        t.dsp.reports = s.dsp.reports ++ [.completion lid h.flow h.iteration, .frameFree lid h.flow h.iteration] ∧
        (t.cell pcell).findDir h.flow h.iteration = none ∧ (∀ q, q ≠ pcell → t.cell q = s.cell q))) ∧
  (∀ (pcell : Nat) (s : State) (flow : BitVec 12) (cls : Option (BitVec 2)) (rest : List (BitVec 12 × Option (BitVec 2))),
    pcell < s.variant.pcells → s.cellRuns pcell = true → (s.cell pcell).boostQ = (flow, cls) :: rest →
    ∃ t, exec (.boostApply pcell) s = .next t ∧ (t.cell pcell).boostQ = rest ∧ (t.cell pcell).boost flow = cls ∧
      (∀ g, g ≠ flow → (t.cell pcell).boost g = (s.cell pcell).boost g) ∧
      (t.cell pcell).houseQ = (s.cell pcell).houseQ ++
        ((s.cell pcell).strands.filter (fun v => v.flow = flow)).filterMap (fun v => match v.wait with
          | .lock w _ ea => some { what := Pending.reprioritise, ea, op := 0x55, body := []
                                   data := lockWord (s.idOf pcell) flow ((t.cell pcell).eclass v) w, seq := v.seqAt 0 }
          | _ => none) ∧
      (∀ q, q ≠ pcell → t.cell q = s.cell q) ∧ t.regs = s.regs ∧ t.mem = s.mem) ∧
  (∀ (pcell : Nat) (s : State) (fseq : BitVec 20) (n : Byte) (rest : List (BitVec 20 × Byte)), pcell < s.variant.pcells →
    (s.cell pcell).ackQ = (fseq, n) :: rest →
    ∃ t, exec (.pairAck pcell) s = .next t ∧ (t.cell pcell).ackQ = rest ∧
      (∀ slot v, (s.cell pcell).strand slot = some v → (t.cell pcell).strand slot =
        some { v with
          unacked := if v.fseq = fseq then v.unacked.erase n else v.unacked
          wait := if v.wait = .output then .nothing else v.wait }) ∧
      (∀ q, q ≠ pcell → t.cell q = s.cell q) ∧ t.regs = s.regs ∧ t.mem = s.mem)


/-! ### Jithar -/

/-- The 44 instructions that only write a register (R90, R93, R101 to R104, R106; the values are those of
Safety.arithmetic), outside a repeat. The destination then reads as the value (TG is no destination; of SS only the user
byte is written; PL and PH take a pending multiply's product in its place), the strand stays in its slot and goes on at
the next instruction, and every other register, every frame-store byte outside the destination's word, every other cell
and every other part of the state stays, but that the slot is the last one that issued (R139). A global that no other
strand has just written reads as it did, and the new value of a global is not yet seen by the other strands (R94). The
destination's window word is poisoned no more. -/
def Obligations.ArithmeticWritesItsDestination : Prop :=
  ∀ (pcell slot : Nat) (s : State) (c : Instr) (op : Opc) (f : Ctx → Word) (x : Ctx),
    (c, op, f) ∈ arithmetic pcell slot → Issues s pcell slot op x → x.t.rep = false → x.ins.rd < 48 →
    x.ins.rd ≠ 46 → Continues (s.cell pcell) (x.t.advance x.ins.len none) →
    ∃ t u fr g, exec c s = .next t ∧ t = { s with cells := t.cells, mem := { s.mem with poison := t.mem.poison } } ∧
      (∀ q, q ≠ pcell → t.cell q = s.cell q) ∧
      t.cell pcell = { s.cell pcell with
        frame := fr, globals := g, slots := tins (s.cell pcell).slots slot u, issued := (t.cell pcell).issued
        lately := (t.cell pcell).lately } ∧
      (t.cell pcell).issued.head? = some (slot, s.zen.cycle) ∧
      u.pc = x.t.pc + BitVec.ofNat 14 x.ins.len ∧ u.wait = .nothing ∧ u.mulPend = none ∧ u.uid = x.t.uid ∧
      u.b = x.t.b ∧ (∀ m, x.t.mulPend = some m → u.pl = m.setWidth 32 ∧ u.ph = (m >>> 32).setWidth 32) ∧
      (x.ins.rd ≠ 47 → x.t.mulPend = none ∨ (x.ins.rd ≠ 41 ∧ x.ins.rd ≠ 42) →
        t.readReg pcell slot u x.ins.rd = f x) ∧
      (x.ins.rd = 47 → u.user = (f x >>> 24).setWidth 8) ∧
      (∀ r, r < 48 → r ≠ x.ins.rd → x.t.mulPend = none ∨ (r ≠ 41 ∧ r ≠ 42) →
        (∀ w ∈ (s.cell pcell).lately, w.reg + 32 = r → w.uid = x.t.uid) →
        t.readReg pcell slot u r = s.readReg pcell slot x.t r) ∧
      (∀ r, r + 32 ≠ x.ins.rd → tget (fun _ => 0) g r = tget (fun _ => 0) (s.cell pcell).globals r) ∧
      (∀ (k : Nat) (v : Strand), 32 ≤ x.ins.rd → x.ins.rd < 40 → v.uid ≠ x.t.uid →
        (∀ w ∈ (s.cell pcell).lately, w.reg + 32 ≠ x.ins.rd) →
        t.readReg pcell k v x.ins.rd = s.readReg pcell k v x.ins.rd) ∧
      (x.ins.rd < 32 → t.poisoned (framePoison pcell) (x.t.windowWord x.ins.rd) = false) ∧
      (∀ a, 32 ≤ x.ins.rd ∨ a / 4 ≠ x.t.windowWord x.ins.rd → mget fr a = mget (s.cell pcell).frame a) ∧
      (∀ n w, t.poisoned n w = true → s.poisoned n w = true)

/-- MUL, MULU, MACC, MACCS (R105 to R107): the product, or the product added to the accumulator, is pending, and PL
and PH take what was pending before; the sum is on PH:PL or on the value still pending, and MACCS saturates it to 64
bits. DIV and DIVU (R104, R108): the strand waits for quotient and remainder; by 0 they are 0xFFFF_FFFF and the
dividend. REP and REPU (R111, R113): RC takes a count of 1 to 64, repetition 0 begins after the instruction, and
another count raises LIMIT. In a repeat (R111) an instruction that only writes a register, with a destination but RC,
counts RC down and k up, and stays at the body until RC comes to 0; then the strand goes on after it. -/
def Obligations.MultipliesDividesAndRepeats : Prop :=
  (∀ (pcell slot : Nat) (s : State) (c : Instr) (op : Opc) (f : Ctx → BitVec 64) (x : Ctx) (u : Strand),
    (c, op, f) ∈ [(Instr.mul pcell slot, Opc.mul, fun x : Ctx => BitVec.ofInt 64 (x.a.toInt * x.b.toInt)),
      (.mulu pcell slot, .mulu, fun x => BitVec.ofNat 64 (x.a.toNat * x.b.toNat)),
      (.macc pcell slot, .macc, fun x => x.t.mulPend.getD (x.t.ph ++ x.t.pl) + BitVec.ofInt 64 (x.a.toInt * x.b.toInt)),
      (.maccs pcell slot, .maccs, fun x => BitVec.ofInt 64 (max (-2 ^ 63) (min (2 ^ 63 - 1)
        ((x.t.mulPend.getD (x.t.ph ++ x.t.pl)).toInt + x.a.toInt * x.b.toInt))))] →
    Issues s pcell slot op x → u = { x.t.flushMul with mulPend := some (f x) }.advance x.ins.len none →
    Continues (s.cell pcell) u →
    exec c s = .next (State.hasIssued pcell slot <| s.modCell pcell (fun k => k.putStrand slot u)) ∧ u.mulPend = some (f x) ∧
      (∀ m, x.t.mulPend = some m → u.pl = m.setWidth 32 ∧ u.ph = (m >>> 32).setWidth 32) ∧
      (x.t.mulPend = none → u.pl = x.t.pl ∧ u.ph = x.t.ph) ∧
      (x.t.rep = false → u.pc = x.t.pc + BitVec.ofNat 14 x.ins.len)) ∧
  (∀ (pcell slot : Nat) (s : State) (c : Instr) (op : Opc) (f : Ctx → Word × Word) (x : Ctx),
    (c, op, f) ∈ [(Instr.div pcell slot, Opc.div, fun x : Ctx => (x.a.sdiv x.b, x.a.srem x.b)),
      (.divu pcell slot, .divu, fun x => (x.a / x.b, x.a % x.b))] → Issues s pcell slot op x →
    exec c s = .next (State.hasIssued pcell slot <| s.modCell pcell (fun k => k.putStrand slot { x.t.flushMul with
      wait := .divide (if x.b = 0 then 0xFFFFFFFF else (f x).1) (if x.b = 0 then x.a else (f x).2)
        x.t.mulPend.isSome }))) ∧
  (∀ (pcell slot n : Nat) (s : State) (c : Instr) (op : Opc) (whole : Bool) (x : Ctx),
    (c, op, whole) ∈ [(Instr.rep pcell slot, Opc.rep, false), (.repu pcell slot, .repu, true)] →
    Issues s pcell slot op x → x.t.rep = false →
    n = (if x.ins.sh = 2 then x.a.toNat else x.ins.imm.toNat % 64 + 1) →
    (1 ≤ n → n ≤ 64 → x.t.single = false → x.t.dying = false → x.t.stepping = false →
      ∃ u, exec c s = .next (State.hasIssued pcell slot <| s.modCell pcell (fun k => k.putStrand slot u)) ∧ u.rc = BitVec.ofNat 32 n ∧
        u.k = 0 ∧ u.rep = true ∧ u.repu = whole ∧ u.steps = BitVec.ofNat 3 (x.ins.imm.toNat / 128) ∧
        u.pc = x.t.pc + BitVec.ofNat 14 x.ins.len ∧ u.uid = x.t.uid ∧ u.b = x.t.b ∧ u.wait = .nothing) ∧
    (n = 0 ∨ 64 < n → exec c s = .next (State.hasIssued pcell slot <| x.trap .limit (BitVec.ofNat 32 n)))) ∧
  (∀ (pcell slot : Nat) (s : State) (c : Instr) (op : Opc) (f : Ctx → Word) (x : Ctx),
    (c, op, f) ∈ arithmetic pcell slot → Issues s pcell slot op x → x.t.rep = true → x.ins.rd < 45 →
    x.t.mulPend = none → Continues (s.cell pcell) (x.t.advance x.ins.len none) →
    ∃ t u, exec c s = .next t ∧ (t.cell pcell).strand slot = some u ∧ t.readReg pcell slot u x.ins.rd = f x ∧
      u.rc = x.t.rc - 1 ∧ u.k = x.t.k + 1 ∧ u.rep = decide (x.t.rc ≠ 1) ∧
      u.pc = (if x.t.rc = 1 then x.t.pc + BitVec.ofNat 14 x.ins.len else x.t.pc) ∧
      (∀ q, q ≠ pcell → t.cell q = s.cell q) ∧ t.regs = s.regs)

/-- Transfers of control outside a repeat (R96, R101, R102, R109, R134), with no FENCE at the target. A branch goes to
the instruction's own address plus its offset when its condition holds and to the next instruction otherwise; J always
goes, NOP never. JR goes to the address in its register. CALL and CALLR move the window up by their shift, put the
shift and the return address in LK and raise the depth; with no room for a window or at depth 31 they raise WINDOW.
RET undoes a CALL; LIMIT where LK is no link, WINDOW below the floor. A register that holds no parcel address raises
LIMIT. FENCEI goes on with every later instruction as written. Only the strand changes. The order of CALLR's checks
and the access type of a LIMIT are inferred (log entry 17). -/
def Obligations.TransfersGoWhereTheyShould : Prop :=
  (∀ (pcell slot : Nat) (s : State) (c : Instr) (op : Opc) (f : Ctx → Bool) (x : Ctx),
    (c, op, f) ∈ [(Instr.beq pcell slot, Opc.beq, fun x : Ctx => decide (x.a = x.b)),
      (.bne pcell slot, .bne, fun x => decide (x.a ≠ x.b)),
      (.blt pcell slot, .blt, fun x => decide (x.a.toInt < x.b.toInt)),
      (.bge pcell slot, .bge, fun x => decide (x.b.toInt ≤ x.a.toInt)),
      (.bltu pcell slot, .bltu, fun x => decide (x.a.toNat < x.b.toNat)),
      (.bgeu pcell slot, .bgeu, fun x => decide (x.b.toNat ≤ x.a.toNat)),
      (.beqz pcell slot, .beqz, fun x => decide (x.a = 0)), (.bnez pcell slot, .bnez, fun x => decide (x.a ≠ 0)),
      (.bltz pcell slot, .bltz, fun x => decide (x.a.toInt < 0)),
      (.bgez pcell slot, .bgez, fun x => decide (0 ≤ x.a.toInt)),
      (.bgtz pcell slot, .bgtz, fun x => decide (0 < x.a.toInt)),
      (.blez pcell slot, .blez, fun x => decide (x.a.toInt ≤ 0)),
      (.beqzS pcell slot, .beqzS, fun x => decide (x.a = 0)),
      (.bnezS pcell slot, .bnezS, fun x => decide (x.a ≠ 0)),
      (.j pcell slot, .j, fun _ => true), (.nop pcell slot, .nop, fun _ => false)] →
    Issues s pcell slot op x → x.t.rep = false →
    Continues (s.cell pcell) (x.t.advance x.ins.len (if f x then some (x.t.pc + x.ins.imm.setWidth 14) else none)) →
    ∃ u, exec c s = .next (State.hasIssued pcell slot <| s.modCell pcell (fun k => k.putStrand slot u)) ∧
      u = { x.t.flushMul with
        pc := if f x then x.t.pc + x.ins.imm.setWidth 14 else x.t.pc + BitVec.ofNat 14 x.ins.len
        executed := x.t.executed + 1, stiWins := u.stiWins }) ∧
  (∀ (pcell slot : Nat) (s : State) (x : Ctx), x.t.rep = false →
    (Issues s pcell slot .fencei x → Continues (s.cell pcell) ({ x.t with stiWins := [] }.advance x.ins.len none) →
      exec (.fencei pcell slot) s = .next (State.hasIssued pcell slot <| s.modCell pcell (fun k => k.putStrand slot { x.t.flushMul with
        pc := x.t.pc + BitVec.ofNat 14 x.ins.len, executed := x.t.executed + 1, stiWins := [] }))) ∧
    (Issues s pcell slot .jr x → x.a.toNat < 2 ^ 14 →
      Continues (s.cell pcell) (x.t.advance x.ins.len (some (x.a.setWidth 14))) →
      exec (.jr pcell slot) s = .next (State.hasIssued pcell slot <| s.modCell pcell (fun k => k.putStrand slot { x.t.flushMul with
        pc := x.a.setWidth 14, executed := x.t.executed + 1, stiWins := [] }))) ∧
    (Issues s pcell slot .jr x → 2 ^ 14 ≤ x.a.toNat → exec (.jr pcell slot) s = .next (State.hasIssued pcell slot <| x.trap .limit x.a)) ∧
    (∀ (c : Instr) (op : Opc) (a : BitVec 14),
      (c = .call pcell slot ∧ op = .call ∧ a = x.t.pc + x.ins.imm.setWidth 14) ∨
        (c = .callr pcell slot ∧ op = .callr ∧ x.a.toNat < 2 ^ 14 ∧ a = x.a.setWidth 14) → Issues s pcell slot op x →
      (x.t.b.toNat + x.ins.sh + 32 ≤ x.t.l.toNat → x.t.depth ≠ 31 →
        Continues (s.cell pcell) (x.t.advance x.ins.len (some a)) →
        exec c s = .next (State.hasIssued pcell slot <| s.modCell pcell (fun k => k.putStrand slot { x.t.flushMul with
          pc := a, executed := x.t.executed + 1, stiWins := [], b := x.t.b + BitVec.ofNat 14 x.ins.sh
          depth := x.t.depth + 1
          lk := BitVec.ofNat 32 (x.ins.sh * 2 ^ 14 + (x.t.pc + BitVec.ofNat 14 x.ins.len).toNat) }))) ∧
      (x.t.l.toNat < x.t.b.toNat + x.ins.sh + 32 ∨ x.t.depth = 31 →
        exec c s = .next (State.hasIssued pcell slot <| x.trap .window (x.t.b.setWidth 32)))) ∧
    (Issues s pcell slot .callr x → 2 ^ 14 ≤ x.a.toNat → exec (.callr pcell slot) s = .next (State.hasIssued pcell slot <| x.trap .limit x.a)) ∧
    (Issues s pcell slot .ret x →
      (x.t.lk.toNat < 2 ^ 20 → 8 ≤ fld x.t.lk 19 14 → x.t.f.toNat + fld x.t.lk 19 14 ≤ x.t.b.toNat →
        Continues (s.cell pcell) (x.t.advance x.ins.len (some (x.t.lk.setWidth 14))) →
        exec (.ret pcell slot) s = .next (State.hasIssued pcell slot <| s.modCell pcell (fun k => k.putStrand slot { x.t.flushMul with
          pc := x.t.lk.setWidth 14, executed := x.t.executed + 1, stiWins := []
          b := x.t.b - BitVec.ofNat 14 (fld x.t.lk 19 14), depth := x.t.depth - 1 }))) ∧
      (2 ^ 20 ≤ x.t.lk.toNat ∨ fld x.t.lk 19 14 < 8 → exec (.ret pcell slot) s = .next (State.hasIssued pcell slot <| x.trap .limit x.t.lk)) ∧
      (x.t.lk.toNat < 2 ^ 20 → 8 ≤ fld x.t.lk 19 14 → x.t.b.toNat < x.t.f.toNat + fld x.t.lk 19 14 →
        exec (.ret pcell slot) s = .next (State.hasIssued pcell slot <| x.trap .window (x.t.b.setWidth 32)))))

/-- END and ENDR (R128, R151): the strand leaves the cell and its area is free; ENDR also reports the activation
complete, once, and releases every lock that the flow holds. TRAP and an undefined encoding (R100, R135, R159, R160):
the strand leaves the cell; its LIVE activation is TRAPPED, header words H4 to H6 take the trap word, SS and the
information word, CELL_TRAP is raised, and with a handler a token with the trap word goes to the cell's own queue, and
enters it at once where no token of its own waits (R237). BRK (R136, R487): a NOP in a partition that is not attached;
else the strand stops in the debug list and its partition is halted, a Scheduled one at its next boundary. The content
of H6 of an undefined 16-bit encoding and the access types are inferred (log entry 17), as is that BRK lets a pending
multiply take effect (log entry 20). -/
def Obligations.StrandsEndTrapAndBreak : Prop :=
  (∀ (pcell slot i : Nat) (s : State) (x : Ctx) (e : DirEntry), Issues s pcell slot .endStrand x →
    (s.cell pcell).findDir x.t.flow x.t.iteration = some i → (s.cell pcell).dir[i]? = some e →
    ∃ t, exec (.endStrand pcell slot) s = .next t ∧ (∀ z ∈ (t.cell pcell).slots, z.2.uid ≠ x.t.uid) ∧
      (e.state = .live → t.dsp = s.dsp ∧ (t.cell pcell).dir[i]? =
        some { e with busy := e.busy &&& ~~~((1 : Byte) <<< x.t.area.toNat) }) ∧
      (∀ lid, e.state ≠ .live → e.scheduled = false → e.trapPending = false →
        e.busy &&& ~~~((1 : Byte) <<< x.t.area.toNat) = 0 → s.lidOf pcell = some lid →
        t.dsp.reports = s.dsp.reports ++ [.frameFree lid x.t.flow x.t.iteration]) ∧
      (∀ q, q ≠ pcell → t.cell q = s.cell q) ∧ t.regs = s.regs ∧ t.mem = s.mem ∧ t.flt = s.flt) ∧
  (∀ (pcell slot i lid : Nat) (s : State) (x : Ctx) (e : DirEntry), Issues s pcell slot .endr x →
    (s.cell pcell).findDir x.t.flow x.t.iteration = some i → (s.cell pcell).dir[i]? = some e →
    s.lidOf pcell = some lid →
    ∃ t, exec (.endr pcell slot) s = .next t ∧ (∀ z ∈ (t.cell pcell).slots, z.2.uid ≠ x.t.uid) ∧
      (e.scheduled = false → e.complete = false →
        (∃ l, t.dsp.reports = s.dsp.reports ++ .completion lid x.t.flow x.t.iteration :: l) ∧
        ∀ h ∈ (s.cell pcell).held, h.flow = x.t.flow →
          ∃ r ∈ (t.cell pcell).houseQ, r.what = .release x.t.flow ∧ r.ea = h.addr ∧ r.op = 0x53 ∧
            r.data = lockWord (s.idOf pcell) x.t.flow 0 0) ∧
      (e.scheduled = true ∨ e.complete = true → t = State.hasIssued pcell slot (s.endStrand pcell x.t)) ∧
      (∀ q, q ≠ pcell → t.cell q = s.cell q) ∧ t.regs = s.regs ∧ t.mem = s.mem) ∧
  (∀ (pcell slot i : Nat) (s : State) (c : Instr) (v : Strand) (e : DirEntry) (w info : Word) (acc : BitVec 3),
    (∃ x, Issues s pcell slot .trap x ∧ c = .trap pcell slot ∧ v = x.t ∧ info = 0 ∧ acc = accToken ∧
        w = BitVec.ofNat 32 (6 + fld x.ins.imm 9 0 * 2 ^ 8 + v.pc.toNat * 2 ^ 18)) ∨
      (pcell < s.variant.pcells ∧ slot < 8 ∧ (s.cell pcell).strand slot = some v ∧
        (s.cell pcell).decodeAt v = none ∧ s.mayIssue pcell slot v = true ∧
        s.fetchPoison pcell v (wordLen ((s.cell pcell).fetchWord v)) = none ∧ c = .undefinedEncoding pcell slot ∧
        acc = accFetch ∧ w = BitVec.ofNat 32 (1 + v.pc.toNat * 2 ^ 18) ∧
        info = (let word := (s.cell pcell).fetchWord v
          if fld word 15 14 = 3 then word else BitVec.ofNat 32 (fld word 15 0))) →
    (s.cell pcell).findDir v.flow v.iteration = some i → (s.cell pcell).dir[i]? = some e → e.state = .live →
    ∃ t, exec c s = .next t ∧ (∀ z ∈ (t.cell pcell).slots, z.2.uid ≠ v.uid) ∧
      (t.cell pcell).word (e.hdr.base.toNat + 4) = w ∧
      (t.cell pcell).word (e.hdr.base.toNat + 5) = s.ssOf pcell v slot ∧
      (t.cell pcell).word (e.hdr.base.toNat + 6) = info ∧
      t.flt = (s.raise srcCellTrap (cellMaster pcell) acc info w).flt ∧
      (∀ lid, s.isSched pcell = false → s.lidOf pcell = some lid →
        ∃ l, t.dsp.reports = s.dsp.reports ++ .abort lid v.flow v.iteration e.hdr.hen :: l) ∧
      (e.hdr.hen = true → s.isPaired pcell = false →
        (∃ e' ∈ (t.cell pcell).dir, e'.hdr = e.hdr ∧ e'.state = .trapped ∧ e'.trapPending = true) ∧
        ∃ k, (.own k ∈ (t.cell pcell).inQ ∨ k ∈ (t.cell pcell).trapQ) ∧ k.value = w ∧ k.flow = v.flow ∧
          k.iteration = v.iteration ∧ k.addr = e.hdr.handler ∧ k.port = 0 ∧ k.cls = 0 ∧
          ((s.cell pcell).trapQ = [] → (∀ j, .own j ∉ (s.cell pcell).inQ) → .own k ∈ (t.cell pcell).inQ)) ∧
      (∀ q, q ≠ pcell → t.cell q = s.cell q) ∧ t.regs = s.regs ∧ t.mem = s.mem) ∧
  (∀ (pcell slot : Nat) (s : State) (x : Ctx), Issues s pcell slot .brk x → x.t.passBrk = false → x.t.rep = false →
    (s.attachedCell pcell = false → Continues (s.cell pcell) (x.t.advance x.ins.len none) →
      ∃ t, exec (.brk pcell slot) s = .next t ∧ (t.cell pcell).strand slot = some (x.t.flushMul.advance x.ins.len none) ∧
        (t.cell pcell).frame = (s.cell pcell).frame ∧ (t.cell pcell).debugList = (s.cell pcell).debugList ∧
        t.mode = s.mode ∧ (∀ q, q ≠ pcell → t.cell q = s.cell q) ∧ t.regs = s.regs) ∧
    (x.t.dying = true → ∃ t, exec (.brk pcell slot) s = .next t ∧ (∀ z ∈ (t.cell pcell).slots, z.2.uid ≠ x.t.uid) ∧
      (∀ z ∈ (t.cell pcell).debugList, z ∈ (s.cell pcell).debugList) ∧ t.mode = s.mode) ∧
    (∀ p, s.partOfCell pcell = some p → s.mode.attached.getLsbD p = true → p < 8 → (s.cell pcell).listRoom = true →
      x.t.dying = false → ∃ t, exec (.brk pcell slot) s = .next t ∧ (∀ z ∈ (t.cell pcell).slots, z.2.uid ≠ x.t.uid) ∧
        (t.cell pcell).debugList = (s.cell pcell).debugList ++ [{ x.t.flushMul with wait := .nothing, stepping := false }] ∧
        ((s.partition p).sched = false → t.mode.halted.getLsbD p = true) ∧
        ((s.partition p).sched = true → (t.part p).haltAsk = true ∧ t.mode = s.mode) ∧
        (∀ q, q ≠ pcell → t.cell q = s.cell q) ∧ t.mem = s.mem))

/-- Loads, stores, SWP, LCK, TLCK, UNL, STI and its forms (R114 to R120, R131, R213, R239, R267, R284 to R286),
outside a repeat. A frame-store access that is aligned and not refused completes at once: a load writes its extended
value, LDD a register pair, a store writes exactly its bytes, and SWP exchanges. Beyond the frame store, with every
right and an output place free, a request leaves with the operation code of the access; the strand waits for its
answer, but for a store it goes on. A lock operation asks the bank, and LCK, for which a wait record is needed, or
either with a full held-lock table, answers BUSY at once. STI writes one parcel, the wide forms two, the first with
its head bit, where no other strand then stands at a FENCE and no poisoned word is written in part; a whole word's
poison is cleared. A misaligned address raises ALIGN and a place not reached raises ACCESS. The access types of the
traps of the lock instructions are the model's choice (log entries 17 and 132). -/
def Obligations.MemoryInstructionsReachTheirPlace : Prop :=
  (∀ (pcell slot size : Nat) (signed : Bool) (s : State) (c : Instr) (op : Opc) (x : Ctx),
    (c, op, size, signed) ∈ [(Instr.ldw pcell slot, Opc.ldw, 4, false), (.ldh pcell slot, .ldh, 2, true),
      (.ldhu pcell slot, .ldhu, 2, false), (.ldb pcell slot, .ldb, 1, true), (.ldbu pcell slot, .ldbu, 1, false),
      (.ldd pcell slot, .ldd, 8, false)] → Issues s pcell slot op x → x.t.rep = false →
    ((x.a + x.ins.imm).toNat % size ≠ 0 → exec c s = .next (State.hasIssued pcell slot <| x.trap .align (x.a + x.ins.imm))) ∧
    ((x.a + x.ins.imm).toNat % size = 0 → (x.a + x.ins.imm).toNat < 0x10000 → x.frameRefusal size = none →
      x.t.mulPend = none → x.ins.rd < 46 → size ≠ 8 ∨ (x.ins.rd % 2 = 0 ∧ x.ins.rd < 40) →
      Continues (s.cell pcell) (x.t.advance 2 none) →
      ∃ t u v, exec c s = .next t ∧ v = leNat (mread (s.cell pcell).frame (x.a + x.ins.imm).toNat size) ∧
        (t.cell pcell).strand slot = some u ∧ u.pc = x.t.pc + 2 ∧ u.wait = .nothing ∧ u.b = x.t.b ∧
        t.readReg pcell slot u x.ins.rd = (if signed then (BitVec.ofNat (8 * size) v).signExtend 32 else BitVec.ofNat 32 v) ∧
        (size = 8 → t.readReg pcell slot u (x.ins.rd + 1) = BitVec.ofNat 32 (v / 2 ^ 32)) ∧
        (∀ q, q ≠ pcell → t.cell q = s.cell q) ∧ t.regs = s.regs ∧ t.mem.glob = s.mem.glob ∧
        (∀ r, r < 48 → r ≠ x.ins.rd → (∀ w ∈ (s.cell pcell).lately, w.reg + 32 = r → w.uid = x.t.uid) →
          size = 8 ∧ r = x.ins.rd + 1 ∨ t.readReg pcell slot u r = s.readReg pcell slot x.t r)) ∧
    ((x.a + x.ins.imm).toNat % size = 0 → 0x10000 ≤ (x.a + x.ins.imm).toNat → x.t.repu = false →
      (x.reach (x.a + x.ins.imm) .read size = none → exec c s = .next (State.hasIssued pcell slot <| x.trap .access (x.a + x.ins.imm))) ∧
      (∀ l, x.reach (x.a + x.ins.imm) .read size = some l → CanAsk x →
        ∃ t u tag, exec c s = .next t ∧
          Requests s t x l (loadOp l size) 0 (.load x.dest size signed) (x.a + x.ins.imm) ∧
          (t.cell pcell).strand slot = some u ∧ u.wait = .remote tag ∧ u.pc = x.t.pc ∧
          (t.cell pcell).frame = (s.cell pcell).frame ∧ (∀ q, q ≠ pcell → t.cell q = s.cell q) ∧ t.regs = s.regs))) ∧
  (∀ (pcell slot size : Nat) (s : State) (c : Instr) (op : Opc) (x : Ctx) (v : Nat),
    (c, op, size) ∈ [(Instr.stw pcell slot, Opc.stw, 4), (.sth pcell slot, .sth, 2), (.stb pcell slot, .stb, 1),
      (.std pcell slot, .std, 8)] → Issues s pcell slot op x → x.t.rep = false →
    v = x.b.toNat + (if size = 8 then (s.readReg pcell slot x.t (x.ins.rs2 + 1)).toNat * 2 ^ 32 else 0) →
    ((x.a + x.ins.imm).toNat % size ≠ 0 → exec c s = .next (State.hasIssued pcell slot <| x.trap .align (x.a + x.ins.imm) true)) ∧
    ((x.a + x.ins.imm).toNat % size = 0 → (x.a + x.ins.imm).toNat < 0x10000 → x.frameRefusal size = none →
      Continues (s.cell pcell) (x.t.advance x.ins.len none) →
      ∃ t, exec c s = .next t ∧ (t.cell pcell).strand slot = some (x.t.flushMul.advance x.ins.len none) ∧
        mread (t.cell pcell).frame (x.a + x.ins.imm).toNat size = leBytes size v ∧
        (∀ a, a < (x.a + x.ins.imm).toNat ∨ (x.a + x.ins.imm).toNat + size ≤ a →
          mget (t.cell pcell).frame a = mget (s.cell pcell).frame a) ∧
        (t.cell pcell).globals = (s.cell pcell).globals ∧ (∀ q, q ≠ pcell → t.cell q = s.cell q) ∧ t.regs = s.regs) ∧
    ((x.a + x.ins.imm).toNat % size = 0 → 0x10000 ≤ (x.a + x.ins.imm).toNat → x.t.repu = false →
      (x.reach (x.a + x.ins.imm) .write size = none → exec c s = .next (State.hasIssued pcell slot <| x.trap .access (x.a + x.ins.imm) true)) ∧
      (∀ l, x.reach (x.a + x.ins.imm) .write size = some l → CanAsk x → s.isPaired pcell = false →
        Continues (s.cell pcell) (x.t.advance 2 none) →
        ∃ t, exec c s = .next t ∧ Requests s t x l (storeOp l size) (BitVec.ofNat 64 (v % 2 ^ (8 * size))) .store
            (x.a + x.ins.imm) ∧
          (t.cell pcell).strand slot = some (x.t.flushMul.advance 2 none) ∧
          (t.cell pcell).frame = (s.cell pcell).frame ∧ (∀ q, q ≠ pcell → t.cell q = s.cell q) ∧ t.regs = s.regs))) ∧
  (∀ (pcell slot : Nat) (s : State) (x : Ctx), Issues s pcell slot .swp x → x.t.rep = false → x.a.toNat % 4 = 0 →
    (x.a.toNat < 0x10000 → x.frameRefusal 4 = none → x.t.mulPend = none → x.ins.rd < 46 →
      Continues (s.cell pcell) (x.t.advance x.ins.len none) →
      ∃ t u, exec (.swp pcell slot) s = .next t ∧ (t.cell pcell).strand slot = some u ∧
        u.pc = x.t.pc + BitVec.ofNat 14 x.ins.len ∧
        t.readReg pcell slot u x.ins.rd = (s.cell pcell).word (x.a.toNat / 4) ∧
        (x.ins.rd < 32 → x.t.windowWord x.ins.rd ≠ x.a.toNat / 4 → (t.cell pcell).word (x.a.toNat / 4) = x.b) ∧
        (32 ≤ x.ins.rd → (t.cell pcell).word (x.a.toNat / 4) = x.b) ∧
        (∀ q, q ≠ pcell → t.cell q = s.cell q) ∧ t.regs = s.regs) ∧
    (∀ l, 0x10000 ≤ x.a.toNat → x.reach x.a .swp 4 = some l → CanAsk x →
      ∃ t u tag, exec (.swp pcell slot) s = .next t ∧ Requests s t x l 0x40 (x.b.setWidth 64) (.swp x.dest) x.a ∧
        (t.cell pcell).strand slot = some u ∧ u.wait = .remote tag ∧ u.pc = x.t.pc ∧
        (∀ q, q ≠ pcell → t.cell q = s.cell q) ∧ t.regs = s.regs)) ∧
  (∀ (pcell slot : Nat) (s : State) (x : Ctx) (l : Located), x.t.rep = false → x.a.toNat % 4 = 0 →
    x.reach x.a .lock 4 = some l →
    (∀ (c : Instr) (op : Opc), (c = .lck pcell slot ∧ op = .lck ∧ s.isSched pcell = false) ∨
        (c = .tlck pcell slot ∧ op = .tlck) → Issues s pcell slot op x →
      ((32 ≤ (s.cell pcell).held.length ∨ op = .lck ∧ (s.cell pcell).freeWait = none) → x.t.mulPend = none →
        x.ins.rd < 46 → Continues (s.cell pcell) (x.t.advance x.ins.len none) →
        ∃ t u, exec c s = .next t ∧ (t.cell pcell).strand slot = some u ∧ t.readReg pcell slot u x.ins.rd = 2 ∧
          (t.cell pcell).reqQ = (s.cell pcell).reqQ ∧ (∀ q, q ≠ pcell → t.cell q = s.cell q)) ∧
      (∀ n, (s.cell pcell).held.length < 32 → (op = .lck → (s.cell pcell).freeWait = some n) → CanAsk x →
        ∃ t u tag, exec c s = .next t ∧ (t.cell pcell).strand slot = some u ∧ u.wait = .remote tag ∧
          (op = .lck → Requests s t x l 0x50
              (lockWord (s.idOf pcell) x.t.flow ((s.cell pcell).eclass x.t) n) (.lck x.dest n x.t.flow) x.a ∧
            (t.cell pcell).waits = (s.cell pcell).waits ++ [{ waitId := n, uid := x.t.uid, flow := x.t.flow
                                                              addr := x.a, bank := l.region.bankNo }]) ∧
          (op = .tlck → Requests s t x l 0x51
              (lockWord (s.idOf pcell) x.t.flow ((s.cell pcell).eclass x.t) 0) (.tlck x.dest x.t.flow) x.a ∧
            (t.cell pcell).waits = (s.cell pcell).waits) ∧
          (t.cell pcell).held = (s.cell pcell).held ∧ (∀ q, q ≠ pcell → t.cell q = s.cell q) ∧ t.regs = s.regs)) ∧
    (Issues s pcell slot .unl x → CanAsk x →
      ∃ t u tag, exec (.unl pcell slot) s = .next t ∧ (t.cell pcell).strand slot = some u ∧ u.wait = .remote tag ∧
        Requests s t x l 0x52 (lockWord (s.idOf pcell) x.t.flow ((s.cell pcell).eclass x.t) 0) (.unl x.t.flow) x.a ∧
        (∀ q, q ≠ pcell → t.cell q = s.cell q) ∧ t.regs = s.regs)) ∧
  (∀ (pcell slot p : Nat) (wide head : Bool) (s : State) (c : Instr) (op : Opc) (x : Ctx) (k : Cell),
    (c, op, wide, head) ∈ [(Instr.sti pcell slot, Opc.sti, false, false), (.stiH pcell slot, .stiH, false, true),
      (.stiW pcell slot, .stiW, true, false), (.stiWh pcell slot, .stiWh, true, true)] → Issues s pcell slot op x →
    x.t.rep = false → s.partOfCell pcell = some p → s.regF (aMemPright p) 12 12 = 1 →
    x.a.toNat + (if wide then 1 else 0) < 2 ^ 14 → Continues (s.cell pcell) (x.t.advance 2 none) →
    x.ins.len = 2 → x.codeRefusal wide = none →
    k = (let k := (s.cell pcell).putParcel x.t.uid x.a.toNat
            (BitVec.ofNat 17 (x.b.toNat % 2 ^ 16 + (if head then 2 ^ 16 else 0)))
         if wide then k.putParcel x.t.uid (x.a.toNat + 1) (BitVec.ofNat 17 (x.b.toNat / 2 ^ 16)) else k) →
    (∀ e ∈ k.slots, e.1 ≠ slot → k.waitNow e.2 ≠ .nothing ∨ e.2.rep = true ∨ isFence (k.fetchWord e.2) = false) →
    ∃ t u, exec c s = .next t ∧ (t.cell pcell).strand slot = some u ∧ u.pc = x.t.pc + 2 ∧
      (t.cell pcell).parcel x.a.toNat = BitVec.ofNat 17 (x.b.toNat % 2 ^ 16 + (if head then 2 ^ 16 else 0)) ∧
      (wide = true → (t.cell pcell).parcel (x.a.toNat + 1) = BitVec.ofNat 17 (x.b.toNat / 2 ^ 16)) ∧
      (∀ a, a < 2 ^ 14 → a ≠ x.a.toNat → wide = false ∨ a ≠ x.a.toNat + 1 →
        (t.cell pcell).parcel a = (s.cell pcell).parcel a) ∧
      (wide = true → x.a.toNat % 2 = 0 → t.poisoned (codePoison pcell) (x.a.toNat / 2) = false) ∧
      (t.cell pcell).frame = (s.cell pcell).frame ∧ (∀ q, q ≠ pcell → t.cell q = s.cell q) ∧ t.regs = s.regs)

/-- SEND, SEND.S, SENDC, SENDCN, SENDX, SENDT, EVS, ITER (R124 to R127, R129, R130, R213, R215, R244, R460) with a
free entry in the output queue of an unpaired cell. The token carries the value, the activation's own tag and the
address that the instruction names, and leaves for its cell, or for the barrier port where its flow is extracted; a
conditional send whose condition fails sends nothing; SENDX takes the tag from its register pair, LIMIT for a reserved
bit; SENDT sends a release token to the field I/O; EVS an event to the dispatcher, LIMIT for a flow above 4095; ITER
asks the dispatcher for the next iteration and waits, LIMIT in an atomic flow and in a Scheduled cell. A full output
queue holds a send, and its strand waits for a place (R244). -/
def Obligations.TokensAndEventsLeaveStrands : Prop :=
  (∀ (pcell slot : Nat) (s : State) (c : Instr) (op : Opc) (go : Ctx → Bool) (addr : Ctx → BitVec 14)
      (ordered : Ctx → Bool) (x : Ctx) (k : Token),
    (c, op, go, addr, ordered) ∈ [
      (Instr.send pcell slot, Opc.send, fun _ : Ctx => true, fun x : Ctx => x.ins.imm.setWidth 14, fun x : Ctx => x.ins.ord),
      (.sendS pcell slot, .sendS, fun _ => true, fun x => x.t.pc + x.ins.imm.setWidth 14, fun _ => false),
      (.sendc pcell slot, .sendc, fun x => decide (x.b ≠ 0), fun x => x.t.pc + x.ins.imm.setWidth 14, fun _ => false),
      (.sendcn pcell slot, .sendcn, fun x => decide (x.b = 0), fun x => x.t.pc + x.ins.imm.setWidth 14, fun _ => false)] →
    Issues s pcell slot op x → x.t.rep = false → s.isPaired pcell = false →
    k = { value := x.a, stamp := x.t.stamp, flow := x.t.flow, iteration := x.t.si, addr := addr x, port := x.ins.port
          cell := BitVec.ofNat 8 (s.idOf pcell), cls := x.t.cls.setWidth 3, pair := false, replay := false
          spilled := false, late := false, ordered := ordered x, fmt := 3 } →
    (go x = true → 16 ≤ (s.cell pcell).outQ.length →
      exec c s = .next (s.modCell pcell (fun k => k.putStrand slot { x.t with wait := .output }))) ∧
    (go x = false ∨ (s.cell pcell).outQ.length < 16 → Continues (s.cell pcell) (x.t.advance x.ins.len none) →
      ∃ t, exec c s = .next t ∧ (t.cell pcell).strand slot = some (x.t.flushMul.advance x.ins.len none) ∧
        (go x = false → (t.cell pcell).outQ = (s.cell pcell).outQ) ∧
        (go x = true → ∃ p, (t.cell pcell).outQ = (s.cell pcell).outQ ++ [p] ∧ p.cargo = .plain (.token k) ∧
          (s.extracts x.t.flow = true → (p.dcloud, p.dcell) = (cloudRoot, unitBarrier)) ∧
          (s.extracts x.t.flow = false → (p.dcloud, p.dcell) = s.cellDest pcell k.cell.toNat) ∧
          (s.isSched pcell = false → p.vc = .t)) ∧
        (t.cell pcell).frame = (s.cell pcell).frame ∧ (∀ q, q ≠ pcell → t.cell q = s.cell q) ∧ t.regs = s.regs ∧
        t.mem = s.mem)) ∧
  (∀ (pcell slot : Nat) (s : State) (x : Ctx) (hi : Word), Issues s pcell slot .sendx x → x.t.rep = false →
    hi = s.readReg pcell slot x.t (x.ins.rs2 + 1) → s.isPaired pcell = false →
    (x.b.toNat < 2 ^ 28 → hi.toNat < 2 ^ 27 → (s.cell pcell).outQ.length < 16 →
      Continues (s.cell pcell) (x.t.advance x.ins.len none) →
      ∃ t p, exec (.sendx pcell slot) s = .next t ∧ (t.cell pcell).outQ = (s.cell pcell).outQ ++ [p] ∧
        (∃ k : Token, p.cargo = .plain (.token k) ∧ k.value = x.a ∧ k.stamp = x.t.stamp ∧
          k.flow = x.b.setWidth 12 ∧ k.iteration = (x.b >>> 12).setWidth 16 ∧ k.addr = hi.setWidth 14 ∧
          k.port = (hi >>> 14).setWidth 2 ∧ k.cell = (hi >>> 16).setWidth 8 ∧
          k.cls = BitVec.ofNat 3 (fld hi 25 24) ∧ k.ordered = hi.getLsbD 26) ∧
        (t.cell pcell).strand slot = some (x.t.flushMul.advance x.ins.len none) ∧
        (∀ q, q ≠ pcell → t.cell q = s.cell q) ∧ t.regs = s.regs ∧ t.mem = s.mem) ∧
    (2 ^ 28 ≤ x.b.toNat → exec (.sendx pcell slot) s = .next (State.hasIssued pcell slot <| x.trap .limit x.b)) ∧
    (x.b.toNat < 2 ^ 28 → 2 ^ 27 ≤ hi.toNat → exec (.sendx pcell slot) s = .next (State.hasIssued pcell slot <| x.trap .limit hi))) ∧
  (∀ (pcell slot : Nat) (s : State) (x : Ctx), Issues s pcell slot .sendt x → x.t.rep = false →
    s.isPaired pcell = false →
    (x.a &&& 0xF0C0 = 0 → (s.cell pcell).outQ.length < 16 → Continues (s.cell pcell) (x.t.advance x.ins.len none) →
      ∃ t p, exec (.sendt pcell slot) s = .next t ∧ (t.cell pcell).outQ = (s.cell pcell).outQ ++ [p] ∧
        p.dcloud = cloudRoot ∧ p.dcell = unitFieldIO ∧
        (∃ k : Token, p.cargo = .plain (.token k) ∧ fld k.value 5 0 = fld x.a 5 0 ∧
          fld k.value 11 8 = fld x.a 11 8 ∧ fld k.value 31 16 = fld x.a 31 16 ∧ k.flow = x.t.flow ∧ k.port = 0 ∧
          fld k.value 7 6 = fld x.b 3 2 ∧ k.stamp.toNat % 2 ^ 28 = x.b.toNat / 16) ∧
        (t.cell pcell).strand slot = some (x.t.flushMul.advance x.ins.len none) ∧
        (∀ q, q ≠ pcell → t.cell q = s.cell q) ∧ t.regs = s.regs ∧ t.mem = s.mem) ∧
    (x.a &&& 0xF0C0 ≠ 0 → exec (.sendt pcell slot) s = .next (State.hasIssued pcell slot <| x.trap .limit x.a))) ∧
  (∀ (pcell slot : Nat) (s : State) (x : Ctx), Issues s pcell slot .evs x → x.t.rep = false →
    s.isPaired pcell = false →
    (x.a.toNat ≤ 4095 → (s.cell pcell).outQ.length < 16 → Continues (s.cell pcell) (x.t.advance x.ins.len none) →
      ∃ t p, exec (.evs pcell slot) s = .next t ∧ (t.cell pcell).outQ = (s.cell pcell).outQ ++ [p] ∧
        p.dcloud = cloudRoot ∧ p.dcell = unitDispatcher ∧ p.vc = .t ∧
        p.cargo = .plain (.event (x.a.setWidth 12) (x.ins.imm.setWidth 5) (s.readReg pcell slot x.t 46)) ∧
        (t.cell pcell).strand slot = some (x.t.flushMul.advance x.ins.len none) ∧
        (∀ q, q ≠ pcell → t.cell q = s.cell q) ∧ t.regs = s.regs ∧ t.mem = s.mem) ∧
    (4095 < x.a.toNat → exec (.evs pcell slot) s = .next (State.hasIssued pcell slot <| x.trap .limit x.a))) ∧
  (∀ (pcell slot lid : Nat) (s : State) (x : Ctx), Issues s pcell slot .iter x → s.lidOf pcell = some lid →
    (x.t.atomic = false → s.isSched pcell = false → x.t.dying = false →
      ∃ t u n, exec (.iter pcell slot) s = .next t ∧ (t.cell pcell).strand slot = some u ∧ u.wait = .iter x.dest n ∧
        u.pc = x.t.pc ∧ t.dsp = { s.dsp with
          iters := s.dsp.iters ++ [{ lid, flow := x.t.flow, iteration := x.t.iteration }] } ∧
        (∀ q, q ≠ pcell → t.cell q = s.cell q) ∧ t.regs = s.regs ∧ t.mem = s.mem) ∧
    (x.t.atomic = true ∨ s.isSched pcell = true → exec (.iter pcell slot) s = .next (State.hasIssued pcell slot <| x.trap .limit 0)))


/-! ### Spill engines and messages to cells -/

/-- SPILL, RECALL, FETCH, COUNT, SWEEP, ENGINE_PURGE, FLUSH, EVICT (R48, R57, R67 to R73, R254, R274) of an engine
that works and whose oldest message is of the command's kind: the message leaves the queue and is answered once, with
the data that R274 gives it, and no cell and no memory changes. Without a double-bit error a spilled token fires with
its partner as a pre-matched activation sent to its cell, the left value first; one of the same port is discarded;
with no entry of its key it enters the lowest free place of its level-2 set. RECALL and FETCH return the token they
find to the cell, and change no level where they find none. SWEEP leaves none of the latch's tokens at the levels and
fires the left ones; a purge leaves none that it names, and its answer makes the cell report it complete. COUNT lowers
the cell's spill counter by what has left. FLUSH asks the cells that hold spillable tokens to send them, and completes
once levels 1 and 2 are empty and nothing moves between them; where a token would be lost, level 3 being off or
without room for them all, it ends the park (log entry 129, the model's choice). EVICT sends every spillable token
whose set's counter is below 4095. -/
def Obligations.SpillEngineServesItsCells : Prop :=
  (∀ (c : Nat) (ecc : MatchEcc) (s : State) (r : Request) (e : Entry) (rest : List Request),
    c < s.variant.clouds → s.engineOn c = true → (s.cloud c).engineQ = r :: rest → r.op = 0x60 →
    e = { tok := r.token, latch := false, past := decide (fld r.addr 12 12 = 1) } →
    ∃ t, exec (.spill ⟨c, ecc⟩) s = .next t ∧ (t.cloud c).engineQ = rest ∧ t.mem = s.mem ∧ t.mode = s.mode ∧
      t.cells = s.cells ∧
      (∃ n, (t.cloud c).engineOut.getLast? = some (r.answer (.router c 15) 0 (BitVec.ofNat 64 n) [])) ∧
      ((∀ place, ecc ≠ .double place) →
        (∀ q x, (s.cloud c).findAt (fun y => y.spillHit e.tok.cell e.tok.flow e.tok.iteration e.tok.addr)
            (s.placesOf c e.tok.spillIndex) = some (q, x) →
          (∀ left right, (e.tok.port = 1 ∧ x.tok.port = 2 ∧ left = e.tok ∧ right = x.tok) ∨
              (e.tok.port = 2 ∧ x.tok.port = 1 ∧ left = x.tok ∧ right = e.tok) →
            ∃ p a, (t.cloud c).engineOut = (s.cloud c).engineOut ++ [p, a] ∧ p.vc = .t ∧
              p.dcell = BitVec.ofNat 4 (r.rcell.toNat % 16) ∧ p.cargo = .plain (.preMatched { left with port := 0 }
                right.value (pairAct left right).stamp ((pairAct left right).cls.setWidth 3) (pairAct left right).late
                (pairAct left right).ordered)) ∧
          (x.tok.port = e.tok.port → (t.cloud c).l2 = (s.cloud c).l2 ∧ (t.cloud c).l3 = (s.cloud c).l3 ∧
            (t.cloud c).engineOut.length = (s.cloud c).engineOut.length + 1)) ∧
        (∀ i, (s.cloud c).findAt (fun y => y.spillHit e.tok.cell e.tok.flow e.tok.iteration e.tok.addr)
            (s.placesOf c e.tok.spillIndex) = none →
          (l2Places (e.tok.spillIndex % s.l2Sets c)).find? (fun i => (tfind (s.cloud c).l2 i).isNone) = some i →
          (t.cloud c).l2 = tins (s.cloud c).l2 i e ∧ (t.cloud c).l3 = (s.cloud c).l3 ∧
          (t.cloud c).engineOut = (s.cloud c).engineOut ++ [r.answer (.router c 15) 0 0 []]))) ∧
  (∀ (c pcell : Nat) (s : State) (o : Instr) (r : Request) (found : Option (SpillPos × Entry)) (rest : List Request),
    c < s.variant.clouds → s.engineOn c = true → (s.cloud c).engineQ = r :: rest →
    pcell = r.rcloud.toNat * 16 + r.rcell.toNat →
    (∃ flow iteration addr, o = .recall c ∧ r.op = 0x61 ∧ flow = BitVec.ofNat 12 (r.field 11 0) ∧
        iteration = BitVec.ofNat 16 (r.field 27 12) ∧ addr = BitVec.ofNat 14 (r.field 41 28) ∧
        found = (s.cloud c).findAt (fun y => y.spillHit (BitVec.ofNat 8 (s.idOf pcell)) flow iteration addr)
          (s.placesOf c (setOf flow iteration addr * 16 + (BitVec.ofNat 8 (s.idOf pcell)).toNat % 16))) ∨
      (∃ v, o = .fetch c ∧ r.op = 0x62 ∧ v = fld r.addr 7 0 * 16 + (BitVec.ofNat 8 (s.idOf pcell)).toNat % 16 ∧
        found = (s.cloud c).earliestAt (fun y => y.tok.cell = BitVec.ofNat 8 (s.idOf pcell) && y.tok.spillIndex = v)
          (s.placesOf c v)) →
    ∃ t, exec o s = .next t ∧ (t.cloud c).engineQ = rest ∧ t.cells = s.cells ∧ t.mem = s.mem ∧
      (∀ q x, found = some (q, x) →
        (∃ p a, (t.cloud c).engineOut = (s.cloud c).engineOut ++ [p, a] ∧ p.vc = .t ∧
          p.dcell = BitVec.ofNat 4 (pcell % 16) ∧ p.cargo = .plain (.token x.tok) ∧
          (o = .fetch c → a = r.answer (.router c 15) 0 1 []) ∧
          (o = .recall c → a = r.answer (.router c 15) 0 (if x.tok.port.toNat = r.field 43 42 then 2 else 1) [])) ∧
        (q.level3 = true → (t.cloud c).entryAt q = none)) ∧
      (found = none → (t.cloud c).l2 = (s.cloud c).l2 ∧ (t.cloud c).l3 = (s.cloud c).l3 ∧ t.regs = s.regs ∧
        (t.cloud c).engineOut = (s.cloud c).engineOut ++ [r.answer (.router c 15) 0 0 []])) ∧
  (∀ (c : Nat) (s : State) (r : Request) (lat : Token) (rest : List Request), c < s.variant.clouds →
    s.engineOn c = true → (s.cloud c).engineQ = r :: rest → r.op = 0x64 → lat = r.token →
    ((s.cloud c).l2.map Prod.fst).Nodup → ((s.cloud c).l3.map Prod.fst).Nodup →
    ∃ t, exec (.sweep c) s = .next t ∧ (t.cloud c).engineQ = rest ∧ t.cells = s.cells ∧ t.mem = s.mem ∧
      (∀ x ∈ (t.cloud c).l2 ++ (t.cloud c).l3,
        ¬ (x.2.tok.cell = lat.cell ∧ x.2.tok.flow = lat.flow ∧ x.2.tok.addr = lat.addr)) ∧
      (∀ x ∈ (s.cloud c).l2 ++ (s.cloud c).l3,
        x.2.tok.cell = lat.cell → x.2.tok.flow = lat.flow → x.2.tok.addr = lat.addr → x.2.tok.port ≠ 2 →
        ∃ p ∈ (t.cloud c).engineOut, p.vc = .t ∧ p.cargo = .plain (.preMatched { x.2.tok with port := 0 } lat.value
          (latchAct x.2.tok lat).stamp ((latchAct x.2.tok lat).cls.setWidth 3) (latchAct x.2.tok lat).late
          (latchAct x.2.tok lat).ordered))) ∧
  (∀ (c : Nat) (s : State) (r : Request) (p : Purge) (own : Entry → Bool) (rest : List Request), c < s.variant.clouds →
    s.engineOn c = true → (s.cloud c).engineQ = r :: rest → r.op = 0x65 →
    p = { flow := BitVec.ofNat 12 (r.field 11 0)
          iteration := if r.field 28 28 = 1 then none else some (BitVec.ofNat 16 (r.field 27 12)) } →
    own = (fun x => decide (x.tok.cell = BitVec.ofNat 8 (s.idOf (r.rcloud.toNat * 16 + r.rcell.toNat))) && p.names x) →
    ((s.cloud c).l2.map Prod.fst).Nodup → ((s.cloud c).l3.map Prod.fst).Nodup →
    ∃ t, exec (.enginePurge c) s = .next t ∧ (t.cloud c).engineQ = rest ∧
      (∀ x ∈ (t.cloud c).l2 ++ (t.cloud c).l3, own x.2 = false) ∧
      (t.cloud c).engineOut = (s.cloud c).engineOut ++
        [r.answer (.router c 15) 0 (BitVec.ofNat 64 ((s.cloud c).spilledWith own % 65536)) []] ∧
      t.dsp = s.dsp ∧ t.cells = s.cells ∧ t.mem = s.mem) ∧
  (∀ (pcell lid : Nat) (s : State) (r : Response) (rest : List Response) (o : Outstanding) (p : Purge),
    pcell < s.variant.pcells → s.cellRuns pcell = true → (s.cell pcell).respQ = r :: rest → r.tag ≠ 63 →
    (s.cell pcell).tags.find? (fun o => o.tag = r.tag.toNat) = some o → o.what = .purge p → s.lidOf pcell = some lid →
    ∃ t, exec (.responseArrival pcell) s = .next t ∧ (t.cell pcell).respQ = rest ∧
      t.dsp.reports = s.dsp.reports ++ [.purgeDone lid p] ∧ (t.cell pcell).store = (s.cell pcell).store ∧
      (∀ q, q ≠ pcell → t.cell q = s.cell q) ∧ t.regs = s.regs ∧ t.mem = s.mem) ∧
  (∀ (pcell i n : Nat) (s : State), pcell < s.variant.pcells → s.cellRuns pcell = true →
    (s.cloud (pcell / 16)).left.find? (fun e => e.1 / 256 = pcell % 16) = some (i, n) →
    ∃ t, exec (.count pcell) s = .next t ∧ (t.cell pcell).spills (i % 256) = (s.cell pcell).spills (i % 256) - n ∧
      (∀ e ∈ (t.cloud (pcell / 16)).left, e.1 ≠ i) ∧ (t.cell pcell).store = (s.cell pcell).store ∧
      (∀ q, q ≠ pcell → t.cell q = s.cell q) ∧ t.regs = s.regs ∧ t.mem = s.mem) ∧
  (∀ (c : Nat) (s : State), c < s.variant.clouds → s.engineOn c = true → (s.cloud c).flushAsk = true →
    ∃ t, exec (.flush c) s = .next t ∧ t.regs = s.regs ∧ t.mem = s.mem ∧
      (∀ q, (t.cell q).store = (s.cell q).store) ∧
      (s.parkLoses c = true → (t.cloud c).wakeAsk = true ∧ t.cells = s.cells ∧
        (t.cloud c).l2 = (s.cloud c).l2 ∧ (t.cloud c).l3 = (s.cloud c).l3) ∧
      ((s.l3On c = true ∧ s.bucketsFit c = false) ∨
        (s.l3On c = false ∧ ((s.cloud c).l2 ≠ [] ∨ ∃ q, q / 16 = c ∧ (s.cell q).store ≠ [])) → s.parkLoses c = true) ∧
      (s.parkLoses c = false →
        (s.storesSent c = false → ∀ q, q / 16 = c → (s.cell q).store.any (fun e => e.2.sendable) = true →
          (t.cell q).evictAsk = true) ∧
        (s.storesSent c = true → (s.cloud c).engineQ = [] → (s.cloud c).engineOut = [] → (s.cloud c).l2 = [] →
          (∀ q, q / 16 = c → (s.cell q).store = [] ∧ (s.cell q).inQ = [] ∧ (s.cell q).engineBusy = false) →
          (t.cloud c).flushed = true))) ∧
  (∀ (pcell : Nat) (s : State), pcell < s.variant.pcells → s.cellRuns pcell = true →
    (s.cell pcell).evictAsk = true → ((s.cell pcell).store.map Prod.fst).Nodup →
    ∃ t, exec (.evict pcell) s = .next t ∧ (t.cell pcell).evictAsk = false ∧
      (∀ e ∈ (t.cell pcell).store, e.2.sendable = true → 4095 ≤ (t.cell pcell).spills (e.1 / 8)) ∧
      (∀ j e, tfind (s.cell pcell).store j = some e →
        (e.sendable = false → tfind (t.cell pcell).store j = some e) ∧
        (tfind (t.cell pcell).store j = none → ∃ h ∈ (t.cell pcell).houseQ, h.what = .engine ∧ h.op = 0x60 ∧
          h.body = { e.tok with spilled := true }.tail)) ∧
      (∀ q, q ≠ pcell → t.cell q = s.cell q) ∧ t.regs = s.regs ∧ t.mem = s.mem)

/-- COPY_BLOCK, READ_BLOCK, VIEW_SET, VIEW_KEY, VIEW_SLOT, VIEW_SPILL, DBG_WRITE, DBG_CTRL, SETUP_RD, SETUP_WR (R79,
R80, R82, R163, R274, R275, R488) of a cell whose cloud runs. A block of 64 bytes inside the store is written with its
head bits, which ends the poison of its words, or read, unless a word is poisoned, which answers ECC_UE and is
counted; another address answers ACCESS. A view of way pair or slot pair 0 takes the whole set, or the records of all
slots, into the view buffer, and each view answers its two records of 32 bytes; of a checker every view and every
debugger's message answers ACCESS (log entry 70). A debugger's write sets a frame word, a parcel with its head bit, or
a special of a stopped strand; STEP and RESUME put the stopped strand in the resume list, to pass the BRK that it
stands at. Writing a parcel changes no frame word where no strand can pass a FENCE. A set-up access of an aligned
address of the nodes, engines and routers reads or writes the register, and of another ACCESS answers. Every message
to a parked cloud wakes it, one to a cloud that drains waits at the root egress (R252), and one to a cloud that is
off, in test or fenced answers 0xFF (log entry 71). -/
def Obligations.MessagesToCellsAreAnswered : Prop :=
  (∀ (pcell : Nat) (s : State), pcell < s.variant.pcells → s.mode.mode ≠ .reset →
    ∀ m, messages pcell m →
      ((s.cloud (pcell / 16)).state = .parked → ∃ t, exec m s = .next t ∧ (t.cloud (pcell / 16)).state = .waking ∧
        t.cells = s.cells ∧ t.mem = s.mem) ∧
      ((s.cloud (pcell / 16)).state = .drain → exec m s = .next s) ∧
      ((s.cloud (pcell / 16)).state = .off ∨ (s.cloud (pcell / 16)).state = .test ∨
        (s.cloud (pcell / 16)).state = .fenced →
        exec m s = .next { s with mem := { s.mem with reply := (0xFF, []) } })) ∧
  (∀ (pcell : Nat) (s : State), pcell < s.variant.pcells → s.mode.mode ≠ .reset →
    (s.cloud (pcell / 16)).state = .run →
    (∀ (istore : Bool) (off : Nat) (heads : Word) (bytes : List Byte), bytes.length = 64 →
      (off % 64 = 0 → off + 64 ≤ (if istore then 0x8000 else 0x10000) →
        ∃ t, exec (.copyBlock pcell istore off heads bytes) s = .next t ∧ t.mem.reply = (0, []) ∧
          (∀ q, q ≠ pcell → t.cell q = s.cell q) ∧ t.regs = s.regs ∧
          (∀ i, i < 16 → t.poisoned (if istore then codePoison pcell else framePoison pcell) (off / 4 + i) = false) ∧
          (istore = false → mread (t.cell pcell).frame off 64 = bytes ∧
            (t.cell pcell).istore = (s.cell pcell).istore ∧
            ∀ a, a < off ∨ off + 64 ≤ a → mget (t.cell pcell).frame a = mget (s.cell pcell).frame a) ∧
          (istore = true → ((∀ e ∈ (s.cell pcell).slots, (e.2.wait ≠ .nothing ∧ e.2.wait ≠ .brk) ∨ e.2.rep = true) →
              (t.cell pcell).frame = (s.cell pcell).frame) ∧ ∀ i, i < 32 →
            (t.cell pcell).parcel (off / 2 + i) = BitVec.ofNat 17 ((bytes.getD (2 * i) 0).toNat +
              (bytes.getD (2 * i + 1) 0).toNat * 256 + heads.toNat / 2 ^ i % 2 * 65536))) ∧
      (off % 64 ≠ 0 ∨ (if istore then 0x8000 else 0x10000) < off + 64 →
        exec (.copyBlock pcell istore off heads bytes) s = .next { s with mem := { s.mem with reply := (0x10, []) } })) ∧
    (∀ (off : Nat), off % 64 = 0 →
      (∀ istore, off + 64 ≤ (if istore then 0x8000 else 0x10000) →
        (∃ i, i < 16 ∧ s.poisoned (if istore then codePoison pcell else framePoison pcell) (off / 4 + i) = true) →
        ∃ t, exec (.readBlock pcell istore off) s = .next t ∧ t.mem.reply = (0x11, []) ∧
          t.regF (aMemCnt 2) 31 0 = min (2 ^ 32 - 1) (s.regF (aMemCnt 2) 31 0 + 1) ∧ t.cells = s.cells) ∧
      (off + 64 ≤ 0x10000 → (∀ i, i < 16 → s.poisoned (framePoison pcell) (off / 4 + i) = false) →
        exec (.readBlock pcell false off) s = .next { s with mem := { s.mem with
          reply := (0, [0, 0, 0, 0] ++ mread (s.cell pcell).frame off 64) } }) ∧
      (off + 64 ≤ 0x8000 → (∀ i, i < 16 → s.poisoned (codePoison pcell) (off / 4 + i) = false) → ∃ h, exec (.readBlock pcell true off) s = .next { s with mem := { s.mem with
          reply := (0, leBytes 4 h ++ (s.cell pcell).parcelBytes (off / 2) 32) } } ∧
        ∀ i, i < 32 → (h / 2 ^ i % 2 = 1 ↔ ((s.cell pcell).parcel (off / 2 + i)).getLsbD 16 = true))) ∧
    (s.checks pcell = true → ∀ m, inspects pcell m →
      exec m s = .next { s with mem := { s.mem with reply := (0x10, []) } }) ∧
    (s.checks pcell = false → ∀ set,
      (∃ t, exec (.viewSet pcell set 0) s = .next t ∧ (t.cell pcell).viewStore = (s.cell pcell).ways set ∧
        (t.cell pcell).viewWhen = s.zen.count ∧ t.mem.reply = (0, viewRecord (tfind (s.cell pcell).store (set * 8)) false 1 0
          set pcell s.zen.count ++ viewRecord (tfind (s.cell pcell).store (set * 8 + 1)) false 1 1 set pcell s.zen.count) ∧
        (t.cell pcell).store = (s.cell pcell).store ∧ (∀ q, q ≠ pcell → t.cell q = s.cell q) ∧ t.regs = s.regs) ∧
      (∀ pair, 1 ≤ pair → pair < 4 → (s.cell pcell).viewStore.length = 8 →
        ∃ a b, (s.cell pcell).viewStore[2 * pair]? = some a ∧ (s.cell pcell).viewStore[2 * pair + 1]? = some b ∧
          exec (.viewSet pcell set pair) s = .next { s with mem := { s.mem with
            reply := (0, viewRecord a false 1 (2 * pair) set pcell (s.cell pcell).viewWhen ++
              viewRecord b false 1 (2 * pair + 1) set pcell (s.cell pcell).viewWhen) } })) ∧
    (s.checks pcell = false → ∀ flow iteration addr, ∃ bs,
      exec (.viewKey pcell flow iteration addr) s = .next { s with mem := { s.mem with reply := (0, bs) } } ∧
      bs = (s.keyView pcell flow iteration addr).flatten ∧ bs.length % 32 = 0) ∧
    (s.checks pcell = false →
      (∃ t, exec (.viewSlot pcell 0) s = .next t ∧ (t.cell pcell).viewSlots = s.slotRecords pcell ∧
        t.mem.reply = (0, ((s.slotRecords pcell).take 2).flatten) ∧ t.mem.reply.2.length = 64 ∧
        (t.cell pcell).slots = (s.cell pcell).slots ∧ (∀ q, q ≠ pcell → t.cell q = s.cell q)) ∧
      (∀ pair, 1 ≤ pair → pair < 4 →
        exec (.viewSlot pcell pair) s = .next { s with mem := { s.mem with
          reply := (0, (((s.cell pcell).viewSlots.drop (2 * pair)).take 2).flatten) } })) ∧
    ((s.lidOf pcell).bind s.pairOf = none → ∀ (rb : BitVec 14) (w : BitVec 16) (v : Word) (head : Bool),
      w.toNat < 16384 →
      (∃ t, exec (.dbgWrite pcell 0 rb w v head) s = .next t ∧ t.mem.reply = (0, []) ∧ (t.cell pcell).word w.toNat = v ∧
        (∀ a, a / 4 ≠ w.toNat → mget (t.cell pcell).frame a = mget (s.cell pcell).frame a) ∧
        (∀ q, q ≠ pcell → t.cell q = s.cell q)) ∧
      (∃ t, exec (.dbgWrite pcell 2 rb w v head) s = .next t ∧ t.mem.reply = (0, []) ∧ (t.cell pcell).parcel w.toNat =
          BitVec.ofNat 17 (v.toNat % 2 ^ 16 + (if head then 2 ^ 16 else 0)) ∧
        ((∀ e ∈ (s.cell pcell).slots, (e.2.wait ≠ .nothing ∧ e.2.wait ≠ .brk) ∨ e.2.rep = true) →
          (t.cell pcell).frame = (s.cell pcell).frame) ∧ (∀ q, q ≠ pcell → t.cell q = s.cell q)) ∧
      (∀ u, (s.cell pcell).stopped? rb = some u → (40 ≤ w.toNat ∧ w.toNat ≤ 45) ∨ w = 47 →
        ∃ t, exec (.dbgWrite pcell 1 rb w v head) s = .next t ∧ t.mem.reply = (0, []) ∧
          (t.cell pcell).stopped? rb = some (u.writeSpecial w.toNat v) ∧ (∀ q, q ≠ pcell → t.cell q = s.cell q)) ∧
      (∀ u stepping, (s.cell pcell).stopped? rb = some u →
        ∃ t, exec (.dbgCtrl pcell rb (if stepping then 1 else 2)) s = .next t ∧ t.mem.reply = (0, []) ∧
          (t.cell pcell).resume = (s.cell pcell).resume ++
            [{ u with passBrk := isBrk ((s.cell pcell).fetchWord u), stepping := stepping, wait := .nothing }] ∧
          (∀ x ∈ (t.cell pcell).debugList, x.uid ≠ u.uid) ∧ (∀ q, q ≠ pcell → t.cell q = s.cell q)))) ∧
  (∀ (c : Nat) (cell : BitVec 4) (flow : BitVec 12) (iteration : BitVec 16) (addr : BitVec 14) (s : State),
    c < s.variant.clouds → s.engineOn c = true → ∃ bs,
      exec (.viewSpill c cell flow iteration addr) s = .next { s with mem := { s.mem with reply := (0, bs) } } ∧
      bs.length = 32 * ((s.keySpilled c cell flow iteration addr).length +
        ((s.inMotion c).filter (fun m => m.1 && m.2.hit false flow iteration addr
          && decide (m.2.tok.cell.toNat % 16 = cell.toNat))).length)) ∧
  (∀ (c : Nat) (v : Word) (s : State), c < s.variant.clouds → s.mode.mode ≠ .reset →
    (∃ t, exec (.setupWr (BitVec.ofNat 24 (aCldCtrl c)) v) s = .next t ∧ t.mem.reply = (0, []) ∧
      t.reg (aCldCtrl c) = v &&& 3 ∧ t.cells = s.cells ∧ t.mode = s.mode) ∧
    exec (.setupRd (BitVec.ofNat 24 (aCldCtrl c))) s = .next { s with mem := { s.mem with
      reply := (0, leBytes 4 (s.reg (aCldCtrl c)).toNat) } }) ∧
  (∀ (a : BitVec 24) (v : Word) (s : State), s.fieldOn = true → inSky a.toNat = true →
    (a.toNat % 4 ≠ 0 → exec (.setupWr a v) s = .next { s with mem := { s.mem with reply := (0x10, []) } } ∧
      exec (.setupRd a) s = .next { s with mem := { s.mem with reply := (0x10, []) } }) ∧
    (a.toNat % 4 = 0 → (∃ t, exec (.setupWr a v) s = .next t ∧ t.mem.reply = (0, []) ∧ t.cells = s.cells ∧
        t.mode = s.mode) ∧
      (∀ row i, s.variant.absent a.toNat = false → regAt a.toNat = some (row, i) →
        exec (.setupRd a) s = .next { s with mem := { s.mem with reply := (0, leBytes 4 (s.regValue a.toNat i).toNat) } })))


/-! ### Banks, locks, semaphores, DRAM and MRAM -/

/-- BANK_LOAD, BANK_STORE, SET_ALIAS_STORE, CLEAR_ALIAS_STORE, SWP at a bank, BLOCK_LOAD, BLOCK_STORE, DRAM_ACCESS,
MRAM_ACCESS, ROLL_SEGMENT (R119, R267 to R273, R275, R278 to R282, R300). The request whose turn it is leaves the
queue with one answer to its sender. An address outside the bank, or in an area refused to cells, answers ACCESS, an
operation that a bank does not know BAD_OP, and both change no byte. A load answers the bytes, a store writes exactly
its bytes, an alias store ORs the data in or clears its bits, SWP answers the old word and writes the new one; on a
poisoned word they answer ECC_UE and change no byte, and an uncorrectable error found in any word that they read does
the same and poisons that word; but a store of whole words goes through and clears the poison. DRAM and the user area
of MRAM do the same for loads and stores. A segment of the rolling march leaves every byte as it was. The syndrome of
an ECC report, the second check of refused areas, and that BANK_LOAD answers BAD_OP are the model's (log entries 51,
52 and 54). -/
def Obligations.BanksServeLoadsAndStores : Prop :=
  (∀ (b n k lo : Nat) (ecc : Ecc) (s : State) (r : Request) (rest : List Request) (c : Instr)
      (put : Nat → Nat → Option Nat) (back : Bool), Serves s b r rest →
    ((c, lo, put, back) ∈ [(Instr.bankLoad b ecc, 0x10, fun _ _ => none, true),
        (.bankStore b ecc, 0x20, fun _ d : Nat => some d, false),
        (.setAliasStore b ecc, 0x30, fun old d : Nat => some (old ||| d), false),
        (.clearAliasStore b ecc, 0x38, fun old d : Nat => some (old &&& (2 ^ 64 - 1 - d)), false)] ∧
      k < 4 ∧ r.op.toNat = lo + k ∧ n = 2 ^ k) ∨
    (c = .bankSwp b ecc ∧ r.op = 0x40 ∧ n = 4 ∧ lo = 0x40 ∧ back = true ∧ put = fun _ d => some d) →
    ∃ t, exec c s = .next t ∧ (t.bank b).queue = rest ∧ t.cells = s.cells ∧ t.mem.dram = s.mem.dram ∧
      (inBank b r.addr.toNat n = false ∨ s.bankRefuses b r.addr.toNat = true →
        BankAnswered s t b r 0x10 0 [] ∧ ∀ a, t.bankRead b a 1 = s.bankRead b a 1) ∧
      (inBank b r.addr.toNat n = true → s.bankRefuses b r.addr.toNat = false →
        (∀ i w, ecc.struck = some i → (bankWords b r.addr.toNat n)[i]? = some w → lo ≠ 0x20 ∨ n < 4 →
          BankAnswered s t b r 0x11 0 [] ∧ t.poisoned w.1 w.2 = true ∧
          ∀ a, t.bankRead b a 1 = s.bankRead b a 1) ∧
        (s.bankPoisoned b r.addr.toNat n = true → lo ≠ 0x20 ∨ n < 4 →
          BankAnswered s t b r 0x11 0 [] ∧ ∀ a, t.bankRead b a 1 = s.bankRead b a 1) ∧
        ((s.bankPoisoned b r.addr.toNat n = false ∧ ecc.struck = none) ∨ (lo = 0x20 ∧ 4 ≤ n) →
          BankAnswered s t b r 0 (if back then BitVec.ofNat 64 (leNat (s.bankRead b r.addr.toNat n)) else 0) [] ∧
          (∀ a, a < r.addr.toNat ∨ r.addr.toNat + n ≤ a → t.bankRead b a 1 = s.bankRead b a 1) ∧
          t.bankPoisoned b r.addr.toNat n = false ∧
          t.bankRead b r.addr.toNat n =
            match put (leNat (s.bankRead b r.addr.toNat n)) (r.data.toNat % 2 ^ (8 * n)) with
            | some new => leBytes n new
            | none => s.bankRead b r.addr.toNat n))) ∧
  (∀ (b : Nat) (ecc : Ecc) (s : State) (r : Request) (rest : List Request), Serves s b r rest →
    (bankOp r.op.toNat = false → ∃ t, exec (.bankLoad b ecc) s = .next t ∧ BankAnswered s t b r 0x13 0 [] ∧
      t.cells = s.cells ∧ ∀ a, t.bankRead b a 1 = s.bankRead b a 1) ∧
    (inBank b r.addr.toNat 64 = true → s.bankRefuses b r.addr.toNat = false →
      (r.op = 0x14 → s.bankPoisoned b r.addr.toNat 64 = false → ecc.struck = none →
        ∃ t, exec (.blockLoad b ecc) s = .next t ∧ (t.bank b).queue = rest ∧
          BankAnswered s t b r 0 0 (s.bankRead b r.addr.toNat 64) ∧ ∀ a, t.bankRead b a 1 = s.bankRead b a 1) ∧
      (r.op = 0x24 → r.body.length = 64 → ∃ t, exec (.blockStore b) s = .next t ∧ (t.bank b).queue = rest ∧
        BankAnswered s t b r 0 0 [] ∧ t.bankRead b r.addr.toNat 64 = r.body ∧
        t.bankPoisoned b r.addr.toNat 64 = false ∧
        ∀ a, a < r.addr.toNat ∨ r.addr.toNat + 64 ≤ a → t.bankRead b a 1 = s.bankRead b a 1))) ∧
  (∀ (k lo n : Nat) (ecc : Ecc) (s : State) (r : Request) (rest : List Request), s.mode.mode ≠ .reset → k < 4 →
    lo = 0x10 ∨ lo = 0x20 → r.op.toNat = lo + k → n = 2 ^ k →
    (s.mem.dramQ = r :: rest → ∃ t, exec (.dramAccess ecc) s = .next t ∧ t.mem.dramQ = rest ∧
      t.mem.glob = s.mem.glob ∧ t.mem.mram = s.mem.mram ∧ t.cells = s.cells ∧
      (s.variant.dramBytes < r.addr.toNat + n → RootAnswered s t r 0x10 0 ∧ t.mem.dram = s.mem.dram) ∧
      (r.addr.toNat + n ≤ s.variant.dramBytes →
        (ecc.struck ≠ none → RootAnswered s t r 0x11 0 ∧ t.mem.dram = s.mem.dram) ∧
        (ecc.struck = none → lo = 0x10 → s.poisoned 19 (r.addr.toNat / 4) = false →
          s.poisoned 19 ((r.addr.toNat + n - 1) / 4) = false →
          RootAnswered s t r 0 (BitVec.ofNat 64 (leNat (mread s.mem.dram r.addr.toNat n))) ∧
          t.mem.dram = s.mem.dram) ∧
        (ecc.struck = none → lo = 0x20 → RootAnswered s t r 0 0 ∧
          mread t.mem.dram r.addr.toNat n = leBytes n r.data.toNat ∧
          ∀ a, a < r.addr.toNat ∨ r.addr.toNat + n ≤ a → mget t.mem.dram a = mget s.mem.dram a))) ∧
    (s.mem.mramQ = r :: rest → s.mramStopped = false →
      ∃ t, exec (.mramAccess ecc) s = .next t ∧ t.mem.mramQ = rest ∧ t.mem.glob = s.mem.glob ∧
        t.mem.dram = s.mem.dram ∧ t.cells = s.cells ∧
        (r.addr.toNat < s.variant.mramUser.1 ∨ s.variant.mramUser.1 + s.variant.mramUser.2 < r.addr.toNat + n →
          RootAnswered s t r 0x10 0 ∧ t.mem.mram = s.mem.mram) ∧
        (s.variant.mramUser.1 ≤ r.addr.toNat → r.addr.toNat + n ≤ s.variant.mramUser.1 + s.variant.mramUser.2 →
          (ecc.struck ≠ none → lo = 0x10 → RootAnswered s t r 0x11 0 ∧ t.mem.mram = s.mem.mram) ∧
          (ecc.struck = none → lo = 0x10 → t.mem.mram = s.mem.mram ∧
            RootAnswered s t r 0 (BitVec.ofNat 64 (leNat (mread s.mem.mram r.addr.toNat n)))) ∧
          (ecc.struck = none → lo = 0x20 → RootAnswered s t r 0 0 ∧
            mread t.mem.mram r.addr.toNat n = leBytes n r.data.toNat ∧
            ∀ a, a < r.addr.toNat ∨ r.addr.toNat + n ≤ a → mget t.mem.mram a = mget s.mem.mram a)))) ∧
  (∀ (engine : Nat) (bits : List FailBit) (s : State), s.running = true → s.regF aMarCtrl 0 0 = 1 →
    (engine < s.variant.clouds ∧ (s.cloud engine).state = .run) ∨ engine = 18 →
    ∃ t, exec (.rollSegment engine bits) s = .next t ∧
      tget (fun _ => 0) t.mem.marchAt engine =
        (tget (fun _ => 0) s.mem.marchAt engine + 1) % (if engine < 18 then 8192 else 49152) ∧
      t.mem.glob = s.mem.glob ∧ (∀ c, { t.cloud c with retired := (s.cloud c).retired } = s.cloud c) ∧ t.cells = s.cells ∧ t.mem.dram = s.mem.dram ∧
      (bits = [] → t.mem.poison = s.mem.poison ∧ t.mem.spares = s.mem.spares ∧ t.regs = s.regs))

/-- LCK, TLCK, UNL, RELEASE_ABANDONED, CANCEL_WAIT and REPRIORITISE_WAITER at a bank, OWNER_GONE, CLEAR_ABANDON,
FORCE_RELEASE (R283 to R292) and the semaphores (R296, R297), for addresses in the bank. A free lock is acquired, an
abandoned one with ABANDONED, the owner's own answers SELF, another's lock makes an LCK wait behind its class and
answers HELD to a TLCK. A release passes the lock to the head waiter with a grant, or frees the record, or leaves it
ABANDONED-FREE; only the owner releases. A cancelled waiter leaves, a reprioritised one joins its new class, and an
owner that is gone owns and waits for nothing. The host frees abandoned records and releases held ones. A semaphore
above 0 is acquired and counts down, one below its maximum is released and counts up, and otherwise stays; the host
needs its right. An ECC error of a record that is read changes none of this (R294). The record whose two copies fail,
the status codes of the host's commands, the data of a grant and the semaphore's operations are the model's (log
entries 50, 53, 54 and 55). -/
def Obligations.LocksAndSemaphoresChangeHands : Prop :=
  (∀ (b : Nat) (ecc : LockEcc) (s : State) (r : Request) (rest : List Request) (p : LockParty), Serves s b r rest →
    p = lockParty r.data → inBank b r.addr.toNat 4 = true → s.bankRefuses b r.addr.toNat = false →
    (∀ c, (c = .bankLck b ecc ∧ r.op = 0x50) ∨ (c = .bankTlck ⟨b, ecc⟩ ∧ r.op = 0x51) →
      ∃ t, exec c s = .next t ∧ (t.bank b).queue = rest ∧ t.cells = s.cells ∧
        (∀ i, (s.bank b).findLock r.addr.toNat = none → (s.bank b).freeLock = some i →
          BankAnswered s t b r 0 0 [] ∧ ∃ e, (t.bank b).findLock r.addr.toNat = some (i, e) ∧
            e.ownedBy p = true ∧ e.waiters = []) ∧
        ((s.bank b).findLock r.addr.toNat = none → (s.bank b).freeLock = none →
          BankAnswered s t b r 2 0 [] ∧ (t.bank b).dir = (s.bank b).dir) ∧
        (∀ i e, (s.bank b).findLock r.addr.toNat = some (i, e) →
          (e.held = false → BankAnswered s t b r 1 0 [] ∧ ∃ e', (t.bank b).findLock r.addr.toNat = some (i, e') ∧
            e'.ownedBy p = true) ∧
          (e.ownedBy p = true → BankAnswered s t b r 4 0 [] ∧ (t.bank b).dir = (s.bank b).dir) ∧
          (e.held = true → e.ownedBy p = false →
            (r.op = 0x51 → BankAnswered s t b r 3 0 [] ∧ (t.bank b).dir = (s.bank b).dir) ∧
            (r.op = 0x50 → 64 ≤ (s.bank b).waiterCount →
              BankAnswered s t b r 2 0 [] ∧ (t.bank b).dir = (s.bank b).dir) ∧
            (r.op = 0x50 → (s.bank b).waiterCount < 64 → BankAnswered s t b r 5 0 [] ∧
              ∃ e', (t.bank b).findLock r.addr.toNat = some (i, e') ∧ e'.held = true ∧ e'.cell = e.cell ∧
                e'.flow = e.flow ∧ e'.waiters = addWaiter e.waiters
                  { cell := p.cell, flow := p.flow, cls := p.cls, waitId := p.waitId, record := (s.bank b).freeWaiter
                    rcloud := r.rcloud, rcell := r.rcell })))) ∧
    (∀ c ab, (c = .bankUnl ⟨b, ecc⟩ ∧ r.op = 0x52 ∧ ab = false) ∨ (c = .releaseAbandoned ⟨b, ecc⟩ ∧ r.op = 0x53 ∧ ab = true) →
      ∃ t, exec c s = .next t ∧ (t.bank b).queue = rest ∧ t.cells = s.cells ∧
        ((s.bank b).findLock r.addr.toNat = none → BankAnswered s t b r 0x12 0 [] ∧ (t.bank b).dir = (s.bank b).dir) ∧
        (∀ i e, (s.bank b).findLock r.addr.toNat = some (i, e) →
          (e.ownedBy p = false → BankAnswered s t b r 0x12 0 [] ∧ (t.bank b).dir = (s.bank b).dir) ∧
          (e.ownedBy p = true → e.waiters = [] → BankAnswered s t b r 0 0 [] ∧
            tfind (t.bank b).dir i = (if ab then some { e with held := false, boosted := none } else none)) ∧
          (∀ w ws, e.ownedBy p = true → e.waiters = w :: ws →
            (t.bank b).answers.length = (s.bank b).answers.length + 2 ∧
            ∃ e', tfind (t.bank b).dir i = some e' ∧ e'.held = true ∧ e'.cell = w.cell ∧ e'.flow = w.flow ∧
              e'.waiters = ws))) ∧
    (∀ i e, (s.bank b).findLock r.addr.toNat = some (i, e) →
      (r.op = 0x54 → ∃ t e', exec (.cancelWait ⟨b, ecc⟩) s = .next t ∧ (t.bank b).queue = rest ∧
        BankAnswered s t b r 0 0 [] ∧ tfind (t.bank b).dir i = some e' ∧ e'.held = e.held ∧ e'.cell = e.cell ∧
        e'.waiters = e.waiters.filter (fun w => !w.is p)) ∧
      (∀ w, r.op = 0x55 → e.waiters.find? (fun w => w.is p) = some w →
        ∃ t e', exec (.reprioritiseWaiter ⟨b, ecc⟩) s = .next t ∧ (t.bank b).queue = rest ∧ BankAnswered s t b r 0 0 [] ∧
          tfind (t.bank b).dir i = some e' ∧ e'.cell = e.cell ∧
          e'.waiters = addWaiter (e.waiters.filter (fun w => !w.is p)) { w with cls := p.cls }))) ∧
  (∀ (b : Nat) (ecc : LockEcc) (s : State) (lid : BitVec 8) (rest : List (BitVec 8)), s.bankExists b = true → s.bankOn b = true →
    (s.bank b).gone = lid :: rest → ((s.bank b).dir.map Prod.fst).Pairwise (· < ·) →
    ∃ t, exec (.ownerGone ⟨b, ecc⟩) s = .next t ∧ (t.bank b).gone = rest ∧ t.cells = s.cells ∧
      (∀ e ∈ (t.bank b).dir, ¬ (e.2.held = true ∧ e.2.cell = lid) ∧ ∀ w ∈ e.2.waiters, w.cell ≠ lid)) ∧
  (∀ (b a i : Nat) (s : State) (e : LockEntry), s.hostWrites aLckCmd = true → s.lockTarget = some (b, a) →
    (s.bank b).findLock a = some (i, e) →
    (e.held = false → ∃ t, exec .clearAbandon s = .next t ∧ tfind (t.bank b).dir i = none ∧
      t.regF aLckCmd 9 8 = 0 ∧ t.cells = s.cells) ∧
    (∀ c, (c = .clearAbandon ∧ e.held = true) ∨ (c = .forceRelease ∧ e.held = false) →
      exec c s = .next (s.setRegF aLckCmd 9 8 1)) ∧
    (e.held = true → e.waiters = [] → ∃ t, exec .forceRelease s = .next t ∧
      tfind (t.bank b).dir i = some { e with held := false, boosted := none } ∧
      t.regF aLckCmd 9 8 = 0 ∧ t.cells = s.cells)) ∧
  (∀ (s : State) (r : Request) (rest : List Request) (n c : Nat), s.mode.mode ≠ .reset → s.mem.semQ = r :: rest →
    n = (r.addr.toNat - 0x300000) / 16 % 64 → c = s.regF (aSemCfg n) 15 0 →
    (r.op = 0x58 → ∃ t, exec .semaphoreAcquire s = .next t ∧ t.mem.semQ = rest ∧ t.cells = s.cells ∧
      (0 < c → t.regF (aSemCfg n) 15 0 = c - 1 ∧ RootAnswered s t r 0 (BitVec.ofNat 64 (1 + (c - 1) * 65536))) ∧
      (c = 0 → t.regF (aSemCfg n) 15 0 = 0 ∧ RootAnswered s t r 0 0)) ∧
    (r.op = 0x12 → ∃ t, exec .semaphoreAcquire s = .next t ∧ t.regs = s.regs ∧
      RootAnswered s t r 0 (BitVec.ofNat 64 (c * 65536))) ∧
    (r.op = 0x59 → ∃ t, exec .semaphoreRelease s = .next t ∧ t.mem.semQ = rest ∧ RootAnswered s t r 0 0 ∧
      t.cells = s.cells ∧ (c < s.regF (aSemCfg n) 31 16 → t.regF (aSemCfg n) 15 0 = c + 1 ∧ t.flt = s.flt) ∧
      (s.regF (aSemCfg n) 31 16 ≤ c → t.regs = s.regs ∧
        t.flt = (s.raise srcSemOvf r.master accAtomic (BitVec.ofNat 32 (0x2300004 + 16 * n)) 0).flt))) ∧
  (∀ (sem : BitVec 6) (s : State) (c : Nat), s.hostWrites aSemHop = true → c = s.regF (aSemCfg sem.toNat) 15 0 →
    ∀ o ∈ [Instr.hostAcquire sem, .hostRelease sem], ∃ t, exec o s = .next t ∧ t.regF aSemHop 13 8 = sem.toNat ∧
      t.cells = s.cells ∧ t.mem = s.mem ∧
      (s.regF (aSemRights (sem.toNat / 8)) 8 8 = 0 → t.regF aSemHop 17 16 = 3 ∧
        t.regF (aSemCfg sem.toNat) 15 0 = c) ∧
      (s.regF (aSemRights (sem.toNat / 8)) 8 8 = 1 →
        (o = .hostAcquire sem → 0 < c → t.regF aSemHop 17 16 = 1 ∧ t.regF (aSemCfg sem.toNat) 15 0 = c - 1) ∧
        (o = .hostRelease sem → c < s.regF (aSemCfg sem.toNat) 31 16 →
          t.regF aSemHop 17 16 = 1 ∧ t.regF (aSemCfg sem.toNat) 15 0 = c + 1) ∧
        ((o = .hostAcquire sem ∧ c = 0) ∨ (o = .hostRelease sem ∧ s.regF (aSemCfg sem.toNat) 31 16 ≤ c) →
          t.regF aSemHop 17 16 = 2 ∧ t.regF (aSemCfg sem.toNat) 15 0 = c)))


/-! ### The dispatcher -/

/-- The dispatcher's commands (R164 to R170, R178, R181, R182, R184 to R190), with tracing off, no activation of any
flow in DRAM, and no serial byte waiting. The oldest event of the source whose turn it is: an event for a flow that is
not enabled is refused and DSP_EVT_BAD raised; one that leaves its flow not ready sets its flag and is counted; one
that makes it ready clears the mask's flags and appends a pending activation with the event's value and time, or is
held at the head of its queue while the flow's queue is full and its source does not spill. A completion ends a live
iteration; an abort purges its keys and withdraws its ITER requests; a frame-free report frees its frame; a prefetch
taken and a purge complete are noted; an ITER request joins its flow's queue; a boost enters the table and reaches its
cell, or the full table raises BOOST_FULL; an unboost leaves it. DSP_FSEL copies the entry to the staging copy; a
commit writes its rw fields or answers why not; DISABLE clears enable, flags and queues; CLEAR_FLAGS and CLEAR_COUNTS
clear their fields. The turn of a source, the order of the refusals and the time of an event are the model's (log
entries 34, 35 and 36). -/
def Obligations.DispatcherServesEventsReportsAndCommands : Prop :=
  (∀ (src f : Nat) (s : State) (e : Event) (rest : List Event) (nf : Word), 1 ≤ src → src ≤ 5 →
    s.events src = e :: rest → s.dspOn = true → s.eventTurn = true → s.nextSource = some src → s.regF aDspCtrl 0 0 = 0 →
    s.dsp.inDram = [] → src ≠ 2 ∨ (∀ p, (s.port p).rx = []) → f = e.flow.toNat → nf = s.flowW f 2 ||| (1 : Word) <<< e.flag.toNat →
    ∃ t, exec (.dispatchEvent src) s = .next t ∧ t.mode = s.mode ∧ (src ≠ 4 → t.zen = s.zen) ∧
      (s.flowF f 0 0 0 = 0 → (∃ l, t.events src = rest ++ l) ∧ t.mem = s.mem ∧
        t.flt = (s.raise srcDspEvtBad masterDispatcher accToken (BitVec.ofNat 32 f) (BitVec.ofNat 32 src)).flt) ∧
      (s.flowF f 0 0 0 = 1 → s.flowFaulted f = false →
        (s.flowReady f nf = false → (∃ l, t.events src = rest ++ l) ∧ t.flowW f 2 = nf ∧
          t.flowW f 11 = s.flowW f 11 + 1 ∧ t.pend f = s.pend f ∧ t.cells = s.cells) ∧
        (s.flowReady f nf = true → s.pendFull f = true → s.holdsFor src f = true → t.events src = e :: rest ∧
          tfind t.dsp.holding src = some e.flow ∧ t.mem = s.mem ∧ t.cells = s.cells) ∧
        (s.flowReady f nf = true → s.pendFull f = false → (∃ l, t.events src = rest ++ l) ∧
          t.flowW f 2 = nf &&& ~~~(s.flowW f 1) ∧ t.flowW f 11 = s.flowW f 11 + 1 ∧
          (s.hasPlace f = false → ∃ a : PendAct, t.pend f = s.pend f ++ [a] ∧ a.value = e.value ∧
            a.src = BitVec.ofNat 3 src ∧ a.time = (if src = 1 ∨ src = 4 then e.time else s.zen.count) ∧
            a.local_ = (if src = 1 ∨ src = 4 then e.local_ else s.isLocal))))) ∧
  (∀ (s : State) (rest : List Report) (r : Report), s.dspOn = true → s.regF aDspCtrl 0 0 = 0 →
    s.dsp.reports = r :: rest → s.dsp.onChip = [] → s.dsp.iterQ = [] → s.dsp.inDram = [] → s.dsp.disabling = [] →
    (∀ lid flow i d f, r = .completion lid flow i → f = flow.toNat →
      d = (i.toNat + 65536 - s.flowF f 7 31 16) % 65536 →
      ∃ t, exec .completionReport s = .next t ∧ t.dsp = { s.dsp with reports := rest } ∧ t.cells = s.cells ∧
        (16 ≤ d ∨ bitsOf (s.flowF f 8 15 0) d d = 0 → t.mem = s.mem) ∧
        (0 < d → d < 16 → bitsOf (s.flowF f 8 15 0) d d = 1 →
          t.flowF f 8 15 0 = s.flowF f 8 15 0 - 2 ^ d ∧ t.flowF f 7 31 16 = s.flowF f 7 31 16) ∧
        (d = 0 → s.flowF f 8 15 0 = 1 → t.flowF f 8 15 0 = 0 ∧ t.flowF f 7 31 16 = s.flowF f 7 15 0)) ∧
    (∀ lid flow i pc, r = .abort lid flow i true → s.placeOf lid = some pc → s.cellGone lid = false →
      ∃ t, exec .abortReport s = .next t ∧ t.dsp.reports = rest ∧ t.dsp.purged = s.dsp.purged ++ [(flow, i)] ∧
        t.dsp.purges = s.dsp.purges ++ [{ purge := { flow, iteration := some i }, cells := [lid] }] ∧
        (t.cell pc).purges = (s.cell pc).purges ++ [{ flow, iteration := some i }] ∧ t.mem = s.mem) ∧
    (∀ lid flow i, r = .frameFree lid flow i →
      ∃ t, exec .frameFreeReport s = .next t ∧ t.dsp.reports = rest ∧
        t.dsp.frames = s.dsp.frames.filter (fun x => ¬ (x.lid = lid ∧ x.flow = flow ∧ x.iteration = i)) ∧
        (s.flowF flow.toNat 0 7 7 = 0 → t.cells = s.cells ∧ t.dsp.purges = s.dsp.purges) ∧ t.mem = s.mem) ∧
    (∀ lid, r = .prefetchTaken lid → exec .prefetchTakenReport s = .next { s with
      dsp := { s.dsp with reports := rest, pfFull := s.dsp.pfFull.filter (· ≠ lid) }
      jet := { s.jet with credits := s.jet.credits.filter (fun c => c.buffer ≠ .prefetch lid) } }) ∧
    (∀ lid p, r = .purgeDone lid p → ∃ t, exec .purgeComplete s = .next t ∧ t.dsp.reports = rest ∧
      t.dsp.purges = (s.dsp.purges.map (fun x => if x.purge = p then { x with cells := x.cells.erase lid } else x)).filter
        (fun x => x.cells ≠ []) ∧ t.cells = s.cells ∧ t.mem = s.mem) ∧
    (∀ lid flow bank cls pc others, r = .boost lid flow bank cls → s.placeOf lid = some pc →
      others = s.dsp.boosts.filter (fun b => ¬ (b.lid = lid ∧ b.flow = flow ∧ b.bank = bank)) →
      ∃ t, exec .boost s = .next t ∧ t.dsp.reports = rest ∧ t.mem = s.mem ∧
        (others.length < 64 → t.dsp.boosts = others ++ [{ lid := lid, flow := flow, bank := bank, cls := cls }] ∧ t.flt = s.flt ∧
          ∃ c, (t.cell pc).boostQ = (s.cell pc).boostQ ++ [(flow, some c)] ∧ c.toNat ≤ cls.toNat) ∧
        (64 ≤ others.length → t.dsp.boosts = s.dsp.boosts ∧ t.cells = s.cells ∧
          t.flt = (s.raise srcBoostFull masterDispatcher accToken (flow.setWidth 32) 7).flt)) ∧
    (∀ lid flow bank, r = .unboost lid flow bank → ∃ t, exec .unboost s = .next t ∧ t.dsp.reports = rest ∧
      t.dsp.boosts = s.dsp.boosts.filter (fun b => ¬ (b.lid = lid ∧ b.flow = flow ∧ b.bank = bank)) ∧
      t.mem = s.mem ∧ t.regs = s.regs)) ∧
  (∀ (s : State) (q : IterReq) (rest : List IterReq) (f : Nat), s.dspOn = true → s.dsp.iters = q :: rest →
    s.dsp.reports = [] → s.dsp.inDram = [] → f = q.flow.toNat → s.hasPlace f = false →
    ∃ t, exec .iterRequest s = .next t ∧ t.dsp.iters = rest ∧ t.iterWaits f = s.iterWaits f ++ [q] ∧ t.mem = s.mem ∧
      t.cells = s.cells ∧ (s.flowF f 0 1 1 = 1 ∨ s.flowF f 0 11 8 ≠ 0 → s.pend f = [] → t.flt = s.flt)) ∧
  (∀ (s : State) (v : Word), s.hostWrites aDspFsel = true → ∃ t, exec (.dspFselWrite v) s = .next t ∧ t.mem = s.mem ∧
    t.cells = s.cells ∧ t.regF aDspFsel 11 0 = fld v 11 0 ∧
    ∀ w, w < 16 → t.dsp.staging.getD w 0 = s.flowW (fld v 11 0) w &&& flowRw.getD w 0) ∧
  (∀ (s : State) (f : Nat), s.hostWrites aDspFcmd = true → f = s.regF aDspFsel 11 0 → s.regF aDspCtrl 0 0 = 0 →
    s.dsp.inDram = [] →
    (fld (s.dsp.staging.getD 0 0) 0 0 = 1 → BitVec.ofNat 12 f ∈ s.dsp.disabling →
      exec .flowCommit s = .next (s.setRegF aDspFcmd 10 8 4)) ∧
    (fld (s.dsp.staging.getD 0 0) 0 0 = 1 → BitVec.ofNat 12 f ∉ s.dsp.disabling →
      (s.entryStatus s.staged ≠ 0 → exec .flowCommit s = .next (s.setRegF aDspFcmd 10 8 (s.entryStatus s.staged))) ∧
      (s.entryStatus s.staged = 0 → s.flowBusy f = true → s.changesBusy f = true →
        exec .flowCommit s = .next (s.setRegF aDspFcmd 10 8 2)) ∧
      (s.entryStatus s.staged = 0 → s.flowBusy f = false ∨ s.changesBusy f = false → s.pend f = [] →
        s.iterWaits f = [] →
        ∃ t, exec .flowCommit s = .next t ∧ t.regF aDspFcmd 10 8 = 0 ∧ t.dsp = s.dsp ∧
          ∀ w, w < 16 → w ≠ 5 → t.flowW f w =
            (s.flowW f w &&& ~~~(flowRw.getD w 0)) ||| (s.dsp.staging.getD w 0 &&& flowRw.getD w 0))) ∧
    (∃ t, exec .disable s = .next t ∧ t.flowF f 0 0 0 = 0 ∧ t.flowW f 2 = 0 ∧ t.pend f = [] ∧ t.spilled f = [] ∧
      t.regF aDspFcmd 10 8 = 0 ∧ (s.flowF f 8 15 0 ≠ 0 → BitVec.ofNat 12 f ∈ t.dsp.disabling ∧ t.cells = s.cells)) ∧
    (∃ t, exec .clearFlags s = .next t ∧ t.flowW f 2 = 0 ∧ (∀ w, w < 16 → w ≠ 2 → t.flowW f w = s.flowW f w) ∧
      t.dsp = s.dsp ∧ t.cells = s.cells ∧ t.regF aDspFcmd 10 8 = 0) ∧
    (∃ t, exec .clearCounts s = .next t ∧ t.flowF f 8 31 24 = 0 ∧ t.flowW f 10 = 0 ∧ t.flowW f 11 = 0 ∧
      t.flowF f 8 23 0 = s.flowF f 8 23 0 ∧ (∀ w, w < 16 → w ≠ 8 → w ≠ 10 → w ≠ 11 → t.flowW f w = s.flowW f w) ∧
      t.dsp = s.dsp ∧ t.cells = s.cells ∧ t.regF aDspFcmd 10 8 = 0))


/-! ### The Scheduled regime and pairs -/

/-- SEQ_SLOT_START, SLOT_ADMIT, FRAME_BOUNDARY, ARM_HANDOVER, ARM_GAP, CANCEL (R195 to R197, R211 to R214, R219 to
R221). A slot that has begun sends each of its root entries' samples, with the source's word, on channel S, and the
next slot is due. An admitted entry takes the next place of its table; met, or substituted, its activation enters the
ready queue where its frame is LIVE, skipped or faulted none does, and a miss is counted. A due frame boundary starts
the frame at slot 0, its cells at the top of their tables with no trapped flow, and a requested halt takes effect,
while a FAULTED partition stays FAULTED; at the target of an armed handover the bank changes. An accepted arm holds
its target, found by modular compare, a refused one answers why; a cancel before the target disarms, a later one is
refused. The realignment after a step and the frame at which the banks change are inferred (log entries 39 and 40). -/
def Obligations.SequencerFollowsItsTables : Prop :=
  (∀ (p : Nat) (s : State) (q : SeqPart), p < 8 → q = s.part p → s.firing p = true → q.slot < s.slots p →
    s.slotStart p q.frame q.slot ≤ s.zen.count →
    ∃ t, exec (.seqSlotStart p) s = .next t ∧ t.part p = { q with slot := q.slot + 1 } ∧ t.cells = s.cells ∧
      t.mem = s.mem ∧ (∀ r, r ≠ p → t.part r = s.part r) ∧
      ((∀ e ∈ s.slotRoots p q.slot, (s.tokenRoute (bitsOf e 87 80)).isSome) → t.regs = s.regs ∧ t.flt = s.flt) ∧
      ∀ e ∈ s.slotRoots p q.slot, (s.tokenRoute (bitsOf e 87 80)).isSome → ∃ k ∈ t.jet.rootOut, k.vc = .s ∧
        ∃ u : Token, k.cargo = .plain (.token u) ∧ u.flow = BitVec.ofNat 12 (bitsOf e 43 32) ∧
          u.iteration = iterOf q.frame (bitsOf e 51 44) ∧ u.addr = BitVec.ofNat 14 (bitsOf e 77 64) ∧
          u.port = BitVec.ofNat 2 (bitsOf e 79 78) ∧ u.value = s.sampleWord (bitsOf e 22 16)) ∧
  (∀ (pcell p bits n : Nat) (s : State) (c : Cell) (e : Slotting) (met : Bool), pcell < s.variant.pcells →
    s.partOfCell pcell = some p → (s.partition p).sched = true → s.firing p = true → s.checks pcell = false →
    s.cellRuns pcell = true → c = s.cell pcell → c.readyFull = false → c.nextEntry = some bits →
    s.slotStart p (s.part p).frame (bitsOf bits 15 0) ≤ s.zen.count →
    e = { bits := bits, index := c.engine.pos, start := (s.slotStart p (s.part p).frame (bitsOf bits 15 0)).toNat
          frame := BitVec.ofInt 32 (s.part p).frame } →
    met = ((e.needs.1.port.isNone || e.has c e.needs.1) && (e.needs.2.port.isNone || e.has c e.needs.2) &&
      decide (e.flow ∉ c.engine.trapped)) → n = bitsOf bits 55 54 →
    ∃ t, exec (.slotAdmit pcell) s = .next t ∧ (t.cell pcell).engine.pos = c.engine.pos + 1 ∧
      (t.cell pcell).engine.fseq = c.engine.fseq + 1 ∧ (∀ q, q ≠ pcell → t.cell q = s.cell q) ∧ t.mem = s.mem ∧
      (met = true → t.regs = s.regs ∧ (c.live e.flow e.iteration = true → t.flt = s.flt ∧
        (t.cell pcell).readyQ = insertReady s.now c.readyQ
          (e.activation c c.engine.fseq (e.has c e.needs.1) (e.has c e.needs.2) false))) ∧
      (met = false → t.regF (aSeqMiss p) 31 0 = min (2 ^ 32 - 1) (s.regF (aSeqMiss p) 31 0 + 1) ∧
        (bitsOf bits 53 52 = 0 → n < 3 → c.live e.flow e.iteration = true →
          (t.cell pcell).readyQ = insertReady s.now c.readyQ
            (e.activation c c.engine.fseq (e.has c e.needs.1) (e.has c e.needs.2) true)) ∧
        (bitsOf bits 53 52 ≠ 0 ∨ 3 ≤ n → (t.cell pcell).readyQ = c.readyQ))) ∧
  (∀ (p : Nat) (k : Int) (s : State), p < 8 → s.running = true → (s.part p).state ≠ .idle → k = s.nextFrame p →
    (s.part p).frame ≠ k → s.slotStart p k 0 ≤ s.zen.count → s.firing p = false ∨ s.frameDone p = true →
    ∃ t, exec (.frameBoundary p) s = .next t ∧ (t.part p).slot = 0 ∧
      ((s.part p).armed = none → (t.part p).frame = s.firstFrame p (s.slotStart p k 0) ∧
        (t.part p).bankB = (s.part p).bankB ∧
        ∀ pc ∈ s.cellsOf p, (t.cell pc).engine.trapped = [] ∧ (s.checks pc = false → (t.cell pc).engine.pos = 0)) ∧
      ((s.part p).haltAsk = true → t.mode.halted.getLsbD p = true ∧
        (t.part p).state = (if (s.part p).state = .faulted then .faulted else .halted)) ∧
      (∀ w, (s.part p).armed = some w → w.begun = false → w.handover = true → w.target ≤ k →
        (t.part p).bankB = !(s.part p).bankB ∧ (t.part p).armed = some { w with begun := true })) ∧
  (∀ (p : Nat) (target : BitVec 16) (s : State), p < 8 → s.hostWrites (aSeqSwap p) = true →
    (∀ c handover, (c = .armHandover p target ∧ handover = true) ∨ (c = .armGap p target ∧ handover = false) →
      ∃ t, exec c s = .next t ∧ t.regF (aSeqSwap p) 10 8 = s.armStatus p handover target ∧
        t.regF (aSeqSwap p) 15 15 = 1 ∧ t.regF (aSeqSwap p) 31 16 = target.toNat ∧
        (s.armStatus p handover target = 0 → ∃ w, (t.part p).armed = some w ∧ w.handover = handover ∧
          w.begun = false ∧ w.target = s.frameNow p + (target - BitVec.ofInt 16 (s.frameNow p)).toNat) ∧
        (s.armStatus p handover target ≠ 0 → t.seq = s.seq ∧ t.cells = s.cells)) ∧
    (∃ t, exec (.cancel p) s = .next t ∧ t.regF (aSeqSwap p) 15 15 = 1 ∧
      ((s.part p).armed = none → t.seq = s.seq ∧ t.regF (aSeqSwap p) 10 8 = 0) ∧
      (∀ w, (s.part p).armed = some w →
        (w.begun = false → s.frameNow p < w.target → (t.part p).armed = none ∧ t.regF (aSeqSwap p) 10 8 = 6) ∧
        (w.begun = true ∨ w.target ≤ s.frameNow p → t.seq = s.seq ∧ t.regF (aSeqSwap p) 10 8 = 5))))

/-- The commands of pairs (R312, R313, R317 to R331). A token for a pair goes to both halves with pair set, one for a
checker's own id is reported. Of two equal outputs one copy is forwarded and both are acknowledged; unequal ones are
reported and the pair enters MISMATCH; where the two comparators judge differently that is reported, A's judgement
counts and nothing is forwarded (R328); the first of two waits in its half's window, and an entry that waits too long
is reported. An answer goes to both halves under their own tags. Equal trap notices clear the activation's entries and
drop its further outputs; unequal ones are a mismatch. A debug stop bounds the checker; a replayed action is applied
to it; a mirror record makes the checker's engine follow the main's decision, is reported where it does not fit, and
an operand that does not come is reported. Stations act on tokens, outputs and notices except in SAFE and in LOAD
(R370, R478). The order in which a station serves its packets, the strand of a replayed action and the restart of a
checker's table are inferred (log entries 42, 68 and 69). -/
def Obligations.PairsAreFedComparedAndMirrored : Prop :=
  (∀ (st main checker pm pk : Nat) (s s1 : State) (p : Packet) (k : Token) (j st' : Nat), st < s.variant.stations →
    s.stationsAct = true → s.stationTake st Packet.isPlainToken = some (p, s1) → p.token? = some k →
    s.pairOf k.cell.toNat = some (st', j, main, checker) →
    ((s.station st).fenced = true → exec (.pairToken st) s = .next s1) ∧
    ((s.station st).fenced = false → k.cell.toNat = checker →
      exec (.pairToken st) s = .next (s1.pairReport srcPairAddr st' main 0 0)) ∧
    ((s.station st).fenced = false → k.cell.toNat ≠ checker → s.placeOf main = some pm → s.placeOf checker = some pk →
      ∃ t a b, exec (.pairToken st) s = .next t ∧ t.jet.rootOut = s.jet.rootOut ++ [a, b] ∧
        a.cargo = .plain (.token { k with pair := true }) ∧ b.cargo = a.cargo ∧ a.vc = p.vc ∧ b.vc = p.vc ∧
        (a.dcloud, a.dcell) = cellRoute pm ∧ (b.dcloud, b.dcell) = cellRoute pk ∧ t.cells = s.cells)) ∧
  (∀ (st j ck pid pc : Nat) (bad : CmpFault) (s s1 : State) (p : Packet) (q : PairPacket), st < s.variant.stations →
    s.stationsAct = true →
    s.stationTake st (fun p => p.isPair (fun k => k = .message || k = .mirror)) = some (p, s1) →
    p.cargo = .paired q → pid = q.pid.toNat → s.pairAt st pid = some (j, ck) →
    s.placeOf (if q.checker then ck else pid) = some pc →
    (s.pairState st j ≠ 1 → q.kind = .message → ∃ t, exec (.pairPacket st bad) s = .next t ∧
      (t.cell pc).ackQ = (s.cell pc).ackQ ++ [(q.fseq, q.n)] ∧ t.jet = s.jet ∧ t.flt = s.flt) ∧
    (∀ pk, s.pairState st j = 1 → q.kind = .mirror → s.placeOf ck = some pk →
      ∃ t a, exec (.pairPacket st bad) s = .next t ∧
      t.jet.rootOut = s.jet.rootOut ++ [a] ∧ a.cargo = .paired q ∧ (a.dcloud, a.dcell) = cellRoute pk) ∧
    (s.pairState st j = 1 → q.kind = .message → (s.station st).drops? q s.zen.count = false →
      ((s.station st).window q.checker).any (fun e => e.is q) = false →
      (takeFirst (fun e : WindowEntry => e.is q) ((s.station st).window (!q.checker)) = none →
        ∃ t, exec (.pairPacket st bad) s = .next t ∧ (t.station st).window q.checker =
            (s.station st).window q.checker ++ [{ packet := q, time := s.zen.count }] ∧
          (t.station st).window (!q.checker) = (s.station st).window (!q.checker) ∧ t.jet = s.jet ∧ t.cells = s.cells) ∧
      (∀ e rest, takeFirst (fun e : WindowEntry => e.is q) ((s.station st).window (!q.checker)) = some (e, rest) →
        ∃ t, exec (.pairPacket st bad) s = .next t ∧
          (t.station st).window (!q.checker) = rest ∧
          (bad ≠ .sound → t.jet = s.jet ∧
            ((bad = .b ↔ e.packet.compared = q.compared) →
              t.flt = (s.pairReport srcPairCmp st pid q.fseq q.n).flt ∧ s.pairState st j = t.pairState st j) ∧
            (¬ (bad = .b ↔ e.packet.compared = q.compared) → t.regF (aPairPair st j) 14 12 = 2 ∧ t.flt =
              ((s.pairReport srcPairCmp st pid q.fseq q.n).pairReport srcPairMismatch st pid q.fseq q.n).flt)) ∧
          (bad = .sound → e.packet.compared = q.compared → e.packet.msg.isSome → q.msg.isSome →
            requestsOf e.packet q = none → requestsOf q e.packet = none →
            (∃ a, t.jet.rootOut = s.jet.rootOut ++ [a]) ∧ t.flt = s.flt ∧
            (q.fseq, q.n) ∈ (t.cell pc).ackQ) ∧
          (bad = .sound → e.packet.compared ≠ q.compared → t.jet = s.jet ∧
            t.flt = (s.pairReport srcPairMismatch st pid q.fseq q.n).flt ∧
            t.regF (aPairPair st j) 14 12 = 2)))) ∧
  (∀ (st i j ck : Nat) (checker : Bool) (s : State) (e : WindowEntry), st < s.variant.stations →
    ((s.station st).window checker)[i]? = some e → s.pairAt st e.packet.pid.toNat = some (j, ck) →
    s.pairHalted e.packet.pid.toNat = false → s.pairState st j = 1 →
    ∃ t, exec (.pairWindowTimeout st checker i) s = .next t ∧
      (t.station st).window checker = ((s.station st).window checker).eraseIdx i ∧
      t.flt = (s.pairReport srcPairTimeout st e.packet.pid.toNat e.packet.fseq e.packet.n).flt ∧
      t.regF (aPairPair st j) 14 12 = 2 ∧ t.jet = s.jet) ∧
  (∀ (st : Nat) (s : State) (r : Response) (rest : List Response) (g : StationTag), st < s.variant.stations →
    (s.station st).answers = r :: rest → (s.station st).tags.find? (fun t => t.tag = r.tag.toNat) = some g →
    ∃ t a b, exec (.stationResponse st) s = .next t ∧ t.jet.rootOut = s.jet.rootOut ++ [a, b] ∧
      (a.dcloud, a.dcell) = (g.main.rcloud, g.main.rcell) ∧ a.cargo = .plain (.response { r with
        rcloud := g.main.rcloud, rcell := g.main.rcell, tag := g.main.tag }) ∧
      (b.dcloud, b.dcell) = (g.checker.rcloud, g.checker.rcell) ∧
      b.cargo = .plain (.response { r with
        rcloud := g.checker.rcloud, rcell := g.checker.rcell, tag := g.checker.tag }) ∧ (t.station st).answers = rest ∧
      (t.station st).tags = (s.station st).tags.filter (fun u => u.tag ≠ g.tag) ∧ t.cells = s.cells) ∧
  (∀ (st j ck pc : Nat) (s s1 : State) (p : Packet) (q : PairPacket), st < s.variant.stations → p.cargo = .paired q →
    s.pairAt st q.pid.toNat = some (j, ck) →
    (s.stationsAct = true → s.pairState st j = 1 →
      s.stationTake st (fun p => p.isPair (· = .trapNotice)) = some (p, s1) →
      (takeFirst (fun e : WindowEntry => e.ofActivation q && e.packet.checker != q.checker) (s.station st).notices = none →
        ∃ t, exec (.trapNotice st) s = .next t ∧ t.cells = s.cells ∧ t.flt = s.flt ∧ (t.station st).notices =
          (s.station st).notices ++ [{ packet := q, time := s.zen.count }]) ∧
      (∀ e rest, takeFirst (fun e : WindowEntry => e.ofActivation q && e.packet.checker != q.checker)
          (s.station st).notices = some (e, rest) →
        ∃ t, exec (.trapNotice st) s = .next t ∧ (t.station st).notices = rest ∧
          (e.packet.word = q.word → t.flt = s.flt ∧ (∀ x ∈ (t.station st).mains ++ (t.station st).checkers,
              x.ofActivation q = false) ∧ ∃ d ∈ (t.station st).drops, d.flow = q.flow ∧ d.iteration = q.iteration ∧
              d.pid = q.pid ∧ d.until_ = s.zen.count + s.regF (aPairCfg st) 9 0 * 1000) ∧
          (e.packet.word ≠ q.word → t.regF (aPairPair st j) 14 12 = 2 ∧
            t.flt = (s.pairReport srcPairMismatch st q.pid.toNat q.fseq q.n).flt))) ∧
    (s.stationTake st (fun p => p.isPair (· = .debugStop)) = some (p, s1) → s.pairState st j ≠ 1 →
      exec (.debugStop st) s = .next s1) ∧
    (s.stationTake st (fun p => p.isPair (· = .debugStop)) = some (p, s1) → q.checker = false →
      s.pairState st j = 1 → s.placeOf ck = some pc → ∃ t, exec (.debugStop st) s = .next t ∧ (t.cell pc).stops =
        (s.cell pc).stops.filter (fun e => e.1 ≠ q.fseq) ++ [(q.fseq, q.word.toNat)] ∧
        (∀ c, c ≠ pc → t.cell c = s.cell c) ∧ t.regs = s.regs)) ∧
  (∀ (pcell : Nat) (s : State) (r : Replay) (rest : List Replay), pcell < s.variant.pcells →
    (s.cell pcell).replayQ = r :: rest → r.rb = 0 ∨ (s.cell pcell).standsAt r = true →
    ∃ t, exec (.replayRecord pcell) s = .next t ∧ (t.cell pcell).replayQ = rest ∧
      (∀ c, c ≠ pcell → t.cell c = s.cell c) ∧ t.regs = s.regs ∧
      (r.what = 0 → (t.cell pcell).word (r.target.toNat % 16384) = r.value) ∧
      (r.what = 2 → (t.cell pcell).parcel r.target.toNat =
        BitVec.ofNat 17 (r.value.toNat % 2 ^ 16 + (if r.head then 2 ^ 16 else 0))) ∧
      (∀ u, r.what = 3 ∨ (r.what = 4 ∧ ∀ e ∈ (s.cell pcell).slots,
          (e.2.wait ≠ .nothing ∧ e.2.wait ≠ .brk) ∨ e.2.rep = true) →
        (s.cell pcell).stopped? r.rb = some u → (t.cell pcell).resume = (s.cell pcell).resume ++
          [{ u with passBrk := isBrk ((s.cell pcell).fetchWord u), stepping := false, wait := .nothing }])) ∧
  (∀ (pcell st j pid ck : Nat) (s : State) (m : Mirror) (rest : List Mirror) (c : Cell), pcell < s.variant.pcells →
    (s.cell pcell).mirrorQ = m :: rest → (s.lidOf pcell).bind s.pairOf = some (st, j, pid, ck) →
    c = (s.cell pcell).mirrorAt m →
    (s.cellRuns pcell = true → c.mirrorEntry m = none → s.pairState st j = 1 →
      ∃ t, exec (.mirrorRecord pcell) s = .next t ∧ (t.cell pcell).mirrorQ = rest ∧
        t.flt = (s.pairReport srcPairSeq st pid m.fseq 0).flt ∧ t.regF (aPairPair st j) 14 12 = 2) ∧
    (∀ e, c.mirrorEntry m = some e →
      (s.cellRuns pcell = true → e.waitsFor c m = false → c.readyFull = false →
        ∃ t, exec (.mirrorRecord pcell) s = .next t ∧ (t.cell pcell).mirrorQ = rest ∧
          (t.cell pcell).engine.pos = c.engine.pos + 1 ∧ (∀ q, q ≠ pcell → t.cell q = s.cell q) ∧ t.regs = s.regs ∧
          (m.outcome = 0 → c.live e.flow e.iteration = true → (t.cell pcell).readyQ = insertReady s.now c.readyQ
            (e.activation c m.fseq (m.present.getLsbD 0) (m.present.getLsbD 1) false))) ∧
      (e.waitsFor c m = true → exec (.mirrorRecord pcell) s = .next s ∧ (s.pairState st j = 1 →
        ∃ t, exec (.checkerOperandTimeout pcell) s = .next t ∧ t.cells = s.cells ∧
          t.flt = (s.pairReport srcPairTimeout st pid m.fseq 0).flt ∧ t.regF (aPairPair st j) 14 12 = 2))))


/-! ### The jetstream, clouds and relocation -/

/-- Movement and timeouts of the jetstream (R233, R234, R237, R238, R240, R242, R245, R248, R259), an empty list of
flips meaning an undisturbed link and every probe off where registers are said to keep their values. One command moves
a whole packet (log entry 43), and an agent's hop stands inside its node, with whose packets its own share the
output's arbiter (log entries 44 and 130). A cell, a bank, the root egress and the agents of a cloud launch the packet
at the front for its destination into an input buffer with room for it, a T or Q packet only under a credit, which is
spent, and without one wait. The first packet of an input buffer, when its output port's arbiter picks it and the
buffer behind has room, crosses one link and stands there with the la that its sender wrote for the next router; a
token at its destination router enters its queue; one without a destination goes to the fault sink, which reports each
of its flits. A single flipped bit is corrected and counted, and any other detected error of a head discards the
packet and is counted; of a later flit it leaves zeros in its place. A returned credit is free again; a lost one is
reclaimed and reported, a lost answer of a cell or of a pair station is replaced by status 0xFF, and a stalled holder
is reported once. A write of PRB_CFG clears a probe's counters where en rises. -/
def Obligations.PacketsHopUnderCreditAndTimeOut : Prop :=
  (∀ (pcell : Nat) (s : State) (p : Packet) (rest : List Packet) (c : Instr), pcell < s.variant.pcells →
    s.mayLaunch pcell p = true → p.place = .router (pcell / 16) (pcell % 16) → p.inPort = 0 →
    (∀ lid, s.mapped p = some lid → (s.tokenRoute lid).isSome = true) →
    (c = .flitHop .fromCell pcell [] ∧ (s.cell pcell).outQ = p :: rest) ∨
      (c = .flitHop .request pcell [] ∧ (s.cell pcell).reqQ = p :: rest) →
    ((∀ b, s.launchBuffer (.cell pcell) p = some b → s.hasCredit (.cell pcell) b = true) →
      s.roomFor p p.place 0 = true →
      ∃ t q, exec c s = .next t ∧ t.jet.flight = s.jet.flight ++ [q] ∧ q.cargo = p.cargo ∧ q.place = p.place ∧
        q.inPort = 0 ∧ q.la = nextPort p.place p.dcloud.toNat p.dcell.toNat ∧
        (c = .flitHop .fromCell pcell [] → t.cell pcell = ({ s.cell pcell with outQ := rest } : Cell).freeOutputs) ∧
        (c = .flitHop .request pcell [] → t.cell pcell = { s.cell pcell with reqQ := rest }) ∧
        (∀ o, o ≠ pcell → t.cell o = s.cell o) ∧ t.regs = s.regs ∧ t.mem = s.mem ∧
        (s.launchBuffer (.cell pcell) p = none → t.jet.credits = s.jet.credits) ∧
        (∀ b, s.launchBuffer (.cell pcell) p = some b → ∃ k, t.jet.credits = s.jet.credits ++ [k] ∧
          k.holder = .cell pcell ∧ k.buffer = b ∧ k.time = s.zen.count ∧ q.credit = some k)) ∧
    (∀ b, s.launchBuffer (.cell pcell) p = some b → s.hasCredit (.cell pcell) b = false → exec c s = .next s)) ∧
  (∀ (unit : Nat) (s : State) (p : Packet) (rest : List Packet), s.bankExists unit = true → unit < 152 →
    s.bankOn unit = true → (s.bank unit).answers = p :: rest → s.roomFor p p.place p.inPort = true →
    ∃ t, exec (.flitHop .answer unit []) s = .next t ∧ t.jet = { s.jet with flight := s.jet.flight ++ [p.routed] } ∧
      (t.bank unit).answers = rest ∧ t.cells = s.cells ∧ t.regs = s.regs) ∧
  (∀ (i : Nat) (s : State) (p : Packet), s.jet.rootOut[i]? = some p →
    firstFor (fun x y => (s.destined x).dcloud = (s.destined y).dcloud && (s.destined x).dcell = (s.destined y).dcell)
      s.jet.rootOut i p = true → s.heldForSwap p = false →
    (p.dcloud.toNat < 18 → p.vc = .t ∨ p.vc = .q → (s.cloud p.dcloud.toNat).state ≠ .drain) →
    (∀ b, s.launchBuffer .root p = some b → s.hasCredit .root b = true) → p.credit = none →
    s.roomFor p p.place p.inPort = true →
    ∃ t q, exec (.flitHop .fromRoot i []) s = .next t ∧ t.jet.rootOut = s.jet.rootOut.eraseIdx i ∧
      t.jet.flight = s.jet.flight ++ [q] ∧ q.cargo = p.cargo ∧ q.place = p.place ∧ t.cells = s.cells ∧ t.regs = s.regs) ∧
  (∀ (i : Nat) (s : State) (p : Packet), s.jet.errOut[i]? = some p →
    (s.jet.errOut.take i).all (fun q => decide (q.place ≠ p.place)) = true → s.roomFor p p.place p.inPort = true →
    exec (.flitHop .answer (256 + i) []) s = .next { s with jet := { s.jet with
      errOut := s.jet.errOut.eraseIdx i, flight := s.jet.flight ++ [p.routed] } }) ∧
  (∀ (c i : Nat) (s : State) (p : Packet), c < s.variant.clouds → (s.cloud c).egressB[i]? = some p →
    (p.dcloud.toNat < s.variant.clouds → s.cloudGone p.dcloud.toNat = false) → (p.fromEgress c).la = 0 →
    (s.egressReady c i p = true → s.arbitrate (.level1 (level1Of c)) 0 = some (p.fromEgress c).pairCode →
      (∀ n, n < 32 → s.regF (aPrbCfg n) 0 0 = 0) →
      ∃ t q, exec (.flitHop (.egress c) i []) s = .next t ∧ (t.cloud c).egressB = (s.cloud c).egressB.eraseIdx i ∧
        t.jet.flight = s.jet.flight ++ [q] ∧ q.cargo = p.cargo ∧ q.place = .level2 (level2Of (level1Of c)) ∧
        q.la = nextPort q.place p.dcloud.toNat p.dcell.toNat ∧
        t.jet.returns = s.jet.returns ++ p.credit.toList ∧ t.cells = s.cells ∧ t.regs = s.regs) ∧
    (s.egressReady c i p = false ∨ s.arbitrate (.level1 (level1Of c)) 0 ≠ some (p.fromEgress c).pairCode →
      exec (.flitHop (.egress c) i []) s = .next s)) ∧
  (∀ (c i : Nat) (s : State) (p : Packet), c < s.variant.clouds → (s.cloud c).ingressB[i]? = some p →
    (s.ingressReady c i p = true →
      s.arbitrate (.level1 (level1Of c)) (1 + c % 3) = some (p.fromIngress c).pairCode →
      (∀ n, n < 32 → s.regF (aPrbCfg n) 0 0 = 0) →
      ∃ t q, exec (.flitHop (.ingress c) i []) s = .next t ∧ (t.cloud c).ingressB = (s.cloud c).ingressB.eraseIdx i ∧
        (p.vc = .q → ∃ x, (t.cloud c).forwarded = (s.cloud c).forwarded ++ [x] ∧ x.cargo = p.cargo) ∧
        t.jet.flight = s.jet.flight ++ [q] ∧ q.cargo = p.cargo ∧ q.place = .bridge c false ∧
        q.la = nextPort (.router c 0) p.dcloud.toNat p.dcell.toNat ∧
        (p.needsCredit = true → t.jet.returns = s.jet.returns ++ p.credit.toList ∧
          ∀ b, s.launchBuffer (.ingress c) p = some b → ∃ k, q.credit = some k ∧ k.buffer = b ∧
            t.jet.credits = s.jet.credits ++ [k]) ∧
        (p.needsCredit = false → q.credit = p.credit ∧ t.jet.credits = s.jet.credits) ∧
        t.cells = s.cells ∧ t.regs = s.regs) ∧
    (s.ingressReady c i p = false ∨
      s.arbitrate (.level1 (level1Of c)) (1 + c % 3) ≠ some (p.fromIngress c).pairCode →
      exec (.flitHop (.ingress c) i []) s = .next s)) ∧
  (∀ (i : Nat) (flips : List (Nat × BitVec 160)) (s : State) (p : Packet), s.jet.flight[i]? = some p → s.headOfBuffer i p = true →
    ((p.place = .root → s.sinkReason p = none) → s.canCross p = true →
      (∀ c, p.towards = some c → s.cloudGone c = false ∧ s.heldForSwap p = false) →
      (p.bridged = true ∨ s.arbitrate p.place p.la = some p.pairCode) →
      (∀ next inPort, portLeads p.place p.la = some (next, inPort) → (∀ n, next ≠ .level1 n) →
        (∃ t, exec (.flitHop .inFlight i []) s = .next t ∧ t.cells = s.cells ∧ t.flt = s.flt ∧
          t.jet.credits = s.jet.credits ∧ t.jet.returns = s.jet.returns ∧ t.jet.flight = s.jet.flight.eraseIdx i ++
            [{ (if p.bridged then p else p.leaving) with place := next, inPort := inPort }]) ∧
        (∀ flit x r sy, x ≠ 0 → flit < p.flits → hopCheck x = .single r sy → s.regF aJetCtrl 0 0 = 1 →
          (∀ n, n < 32 → s.regF (aPrbCfg n) 0 0 = 0) → (∀ c up, next ≠ .bridge c up) →
          ∃ t q, exec (.flitHop .inFlight i [(flit, x)]) s = .next t ∧ t.jet.flight = s.jet.flight.eraseIdx i ++ [q] ∧
            q.cargo = p.cargo ∧ q.place = next ∧
            t.regF (aJetCnt 0) 31 0 = min (2 ^ 32 - 1) (s.regF (aJetCnt 0) 31 0 + 1)) ∧
        (∀ flit x sy e, x ≠ 0 → flit < p.flits → hopCheck x = .bad sy e → (∀ n, n < 32 → s.regF (aPrbCfg n) 0 0 = 0) →
          (∀ c up, next ≠ .bridge c up) →
          ∃ t, exec (.flitHop .inFlight i [(flit, x)]) s = .next t ∧
            (flit = 0 → t.jet.flight = s.jet.flight.eraseIdx i) ∧
            (flit ≠ 0 → ∃ q, t.jet.flight = s.jet.flight.eraseIdx i ++ [q] ∧ q.cargo = p.cargo ∧
              tget (fun _ => 0) q.errs flit = p.zeroed flit) ∧
            t.regF (aJetCnt 1) 31 0 = min (2 ^ 32 - 1) (s.regF (aJetCnt 1) 31 0 + 1))) ∧
      (∀ c k u, p.place = .router c k → p.la = 0 → p.errs = [] → p.cargo = .plain (.token u) → p.vc = .t →
        u.spilled = false →
        ∃ t, exec (.flitHop .inFlight i []) s = .next t ∧ t.jet.flight = s.jet.flight.eraseIdx i ∧
          (t.cell (c * 16 + k)).inQ = (s.cell (c * 16 + k)).inQ ++ [.network u none p.credit] ∧
          (∀ o, o ≠ c * 16 + k → t.cell o = s.cell o))) ∧
    (∀ r, p.place = .root → s.sinkReason p = some r → ∃ t, exec (.flitHop .inFlight i flips) s = .next t ∧
      t.jet.flight = s.jet.flight.eraseIdx i ∧ t.flt = (s.sink p r).flt ∧ t.regs = (s.sink p r).regs ∧
      (s.mode.mode ≠ .reset → t.flt.inQ.length = s.flt.inQ.length + p.flits) ∧ t.cells = s.cells ∧
      t.jet.returns = s.jet.returns ++ p.credit.toList)) ∧
  (∀ (i : Nat) (flips : List (Nat × BitVec 160)) (s : State) (p : Packet), s.jet.flight[i]? = some p →
    s.headOfBuffer i p = false ∨ (s.canCross p = false ∧ p.place ≠ .root ∧ p.towards = none ∧
      (portLeads p.place p.la).isSome = true) → exec (.flitHop .inFlight i flips) s = .next s) ∧
  (∀ (i : Nat) (s : State) (c : Credit),
    (s.jet.returns[i]? = some c →
      ((∀ lid, c.buffer ≠ .prefetch lid) → exec (.creditReturn i) s = .next { s with jet := { s.jet with
        returns := s.jet.returns.eraseIdx i, credits := s.jet.credits.erase c } }) ∧
      (∀ lid, c.buffer = .prefetch lid → exec (.creditReturn i) s = .next { s with
        jet := { s.jet with returns := s.jet.returns.eraseIdx i, credits := s.jet.credits.erase c }
        dsp := { s.dsp with pfFull := s.dsp.pfFull.filter (· ≠ lid) } })) ∧
    (s.jet.credits[i]? = some c → ∃ t, exec (.creditTimeout i) s = .next t ∧
      t.jet = { s.jet with credits := s.jet.credits.eraseIdx i } ∧ t.cells = s.cells ∧ t.mem = s.mem ∧
      t.regF (aJetCnt 3) 31 0 = min (2 ^ 32 - 1) (s.regF (aJetCnt 3) 31 0 + 1) ∧ (s.mode.mode ≠ .reset →
        ∃ r, t.flt = { s.flt with inQ := putReport r s.flt.inQ } ∧ r.source = srcJetCreditLost))) ∧
  (∀ (pcell tag : Nat) (s : State) (o : Outstanding), pcell < s.variant.pcells →
    (s.cell pcell).tags.find? (fun o => o.tag = tag) = some o →
    (s.cell pcell).respQ.any (fun r => r.tag.toNat = tag) = false →
    ∃ t r, exec (.responseTimeout (.cell pcell) tag) s = .next t ∧ (t.cell pcell).respQ = (s.cell pcell).respQ ++ [r] ∧
      r.status = 0xFF ∧ r.tag = BitVec.ofNat 6 tag ∧ r.addr = o.ea ∧ (∀ c, c ≠ pcell → t.cell c = s.cell c) ∧
      t.regF (aJetCnt 4) 31 0 = min (2 ^ 32 - 1) (s.regF (aJetCnt 4) 31 0 + 1)) ∧
  (∀ (st tag : Nat) (s : State) (o : StationTag), st < s.variant.stations →
    (s.station st).tags.find? (fun o => o.tag = tag) = some o →
    (s.station st).answers.any (fun r => r.tag.toNat = tag) = false →
    ∃ t r, exec (.responseTimeout (.station st) tag) s = .next t ∧
      (t.station st).answers = (s.station st).answers ++ [r] ∧ r.status = 0xFF ∧ r.tag = BitVec.ofNat 6 tag ∧
      t.cells = s.cells ∧ t.regF (aJetCnt 4) 31 0 = min (2 ^ 32 - 1) (s.regF (aJetCnt 4) 31 0 + 1)) ∧
  (∀ (h : Holder) (s : State) (p : Packet) (b : Buffer), s.stalled h = some (p, b) → s.regF aJetTmo 31 16 ≠ 0 →
    ∃ t, exec (.stallTimeout h) s = .next t ∧ t.jet = { s.jet with stalls := s.jet.stalls ++ [(h, b)] } ∧
      t.cells = s.cells ∧ t.regs = s.regs ∧ (s.mode.mode ≠ .reset →
        ∃ r, t.flt = { s.flt with inQ := putReport r s.flt.inQ } ∧ r.source = srcJetStall)) ∧
  (∀ (n : Nat) (v : Word) (s : State), n < 32 → s.hostWrites (aPrbCfg n) = true → ∃ t, exec (.prbCfgWrite n v) s = .next t ∧
    t.reg (aPrbCfg n) = v &&& 0xFFFF#32 ∧ t.mem = s.mem ∧ t.jet = s.jet ∧ t.cells = s.cells ∧
    (s.regF (aPrbCfg n) 0 0 = 0 → fld v 0 0 = 1 → t.reg (aPrbCnt n) = 0 ∧ t.reg (aPrbDrop n) = 0) ∧
    (s.regF (aPrbCfg n) 0 0 = 1 ∨ fld v 0 0 = 0 → t.reg (aPrbCnt n) = s.reg (aPrbCnt n) ∧
      t.reg (aPrbDrop n) = s.reg (aPrbDrop n)))

/-- The states of a cloud (R35, R38, R252 to R258). A write of CLD_CTRL keeps slow and keep_on: keep_on powers an OFF
cloud up, and a running one whose island shall change its frequency drains. A completed drain is counted, and its
cause acts: a frequency change relocks the PLL, a move waits for the switch of a relocation or gives a refilled id its cell,
a park parks and records the time, or
runs again if woken or used by a relocation meanwhile, and a cloud without cells goes OFF and keeps nothing, unless a
relocation, a refill or keep_on has taken it meanwhile. A park waits for
the flush and for empty levels 1 and 2 (log entry 48). Relocked, the island has the new
frequency and the cloud runs; a parkable cloud starts to drain and to flush; a woken cloud runs, and one powered up
runs with its cells cleared but for their stores, its scratchpad and spill tables empty and its poison cleared. -/
def Obligations.CloudsDrainParkWakeAndPowerUp : Prop :=
  ∀ (c : Nat) (s : State), c < s.variant.clouds →
    (∀ (v : Word) (i : Instr), s.hostWrites (aCldCtrl c) = true → i = .cldCtrlSlowWrite c v ∨ i = .cldCtrlKeepOnWrite c v →
      ∃ t, exec i s = .next t ∧ t.reg (aCldCtrl c) = v &&& 3#32 ∧
        ((s.cloud c).state ≠ .off → t.cells = s.cells ∧ t.mem = s.mem ∧ t.dsp = s.dsp) ∧
        ((s.cloud c).state = .off → v.getLsbD 0 = true → (t.cloud c).state = .waking ∧ (t.cloud c).cold = true) ∧
        ((s.cloud c).state = .off → v.getLsbD 0 = false → t.clouds = s.clouds) ∧
        ((s.cloud c).state = .run → (s.cloud c).waiting = [] → s.fastForced c = false →
          v.getLsbD 1 ≠ (s.cloud c).slowAct →
          (t.cloud c).state = .drain ∧ (t.cloud c).cause = some (.freq (v.getLsbD 1)) ∧ (t.cloud c).drained = false)) ∧
    (∀ d, (s.cloud c).state = .drain → (s.cloud c).cause = some d → s.drainDone c = true →
      (s.cloud c).relock = false → (s.cloud c).drained = false →
      (d = .park → s.parkOff c = true ∨ ((s.cloud c).flushed = true ∧ s.levelsEmpty c = true)) →
      ∃ t, exec (.drainComplete c) s = .next t ∧ (s.refilling c = false → t.jet = s.jet) ∧
        t.regF (aJetCnt 8) 31 0 = min (2 ^ 32 - 1) (s.regF (aJetCnt 8) 31 0 + 1) ∧
        (∀ b, d = .freq b → (t.cloud c).relock = true ∧ (t.cloud c).pllLock = false ∧ (t.cloud c).state = .drain) ∧
        (d = .move → s.refilling c = false → s.switching = true → s.relocating c = true →
          t.clouds = (s.modCloud c (fun k => { k with drained := true })).clouds) ∧
        (∀ r, d = .move → s.rep.refills.filter (fun r => r.2 / 16 = c) = [r] → t.placeOf r.1 = some r.2 ∧
          (t.cell r.2).stopped = false) ∧
        (d = .move → s.switching = false ∨ s.relocating c = false →
          (t.cloud c).state = .run ∨ (t.cloud c).state = .drain) ∧
        (d = .park → s.parkOff c = false → (t.cloud c).state = .parked ∧
          (t.cloud c).l2 = (s.cloud c).l2 ∧ (t.cloud c).l3 = (s.cloud c).l3 ∧ t.cells = s.cells ∧ t.mem = s.mem ∧
          t.reg (aMemSpillParkl c) = BitVec.ofNat 32 s.zen.count ∧
          t.reg (aMemSpillParkh c) = BitVec.ofNat 32 (s.zen.count / 2 ^ 32)) ∧
        (d = .park → s.parkOff c = true → (t.cloud c).state = .run ∨ (t.cloud c).state = .drain) ∧
        (d = .off → s.lidsIn c ≠ [] ∨ s.relocating c = true ∨ s.refilling c = true ∨ s.regF (aCldCtrl c) 0 0 = 1 →
          (t.cloud c).state = .run ∨ (t.cloud c).state = .drain) ∧
        (d = .off → s.lidsIn c = [] → s.relocating c = false → s.refilling c = false → s.regF (aCldCtrl c) 0 0 = 0 →
          (t.cloud c).state = .off ∧ (t.cloud c).scratch = [] ∧ (t.cloud c).l2 = [] ∧
          (∀ k, k < 16 → t.cell (c * 16 + k) = Cell.idle) ∧ ∀ j, j < 8 → t.bank (c * 8 + j) = Bank.idle)) ∧
    (∀ b, (s.cloud c).state = .drain → (s.cloud c).cause = some (.freq b) → (s.cloud c).relock = true →
      ∃ t, exec (.pllRelockDone c) s = .next t ∧ (t.cloud c).slowAct = b ∧ (t.cloud c).pllLock = true ∧
        t.cells = s.cells ∧ t.mem = s.mem ∧ t.regs = s.regs ∧
        ((s.cloud c).waiting = [] → s.wantsSlow c = b → s.lidsIn c ≠ [] → s.refilling c = false → (t.cloud c).state = .run)) ∧
    ((s.cloud c).state = .run → s.parkable c = true → ∃ t, exec (.parkIdle c) s = .next t ∧
      (t.cloud c).state = .drain ∧ (t.cloud c).cause = some .park ∧ (t.cloud c).flushAsk = true ∧
      (t.cloud c).flushed = false ∧ (∀ d, d ≠ c → t.cloud d = s.cloud d) ∧ t.cells = s.cells ∧ t.mem = s.mem) ∧
    ((s.cloud c).state = .run → s.parkable c = false → exec (.parkIdle c) s = .next s) ∧
    ((s.cloud c).state = .waking → (s.cloud c).cold = false → ∃ t, exec (.wakeComplete c) s = .next t ∧
      t.mem = s.mem ∧ t.jet = s.jet ∧ ((s.cloud c).waiting = [] → s.wantsSlow c = (s.cloud c).slowAct → s.lidsIn c ≠ [] →
        s.refilling c = false → (t.cloud c).state = .run ∧ (t.cloud c).pllLock = true)) ∧
    ((s.cloud c).state = .waking → (s.cloud c).cold = true → ∃ t, exec (.powerUpComplete c) s = .next t ∧
      (t.cloud c).scratch = [] ∧ (t.cloud c).l2 = [] ∧ (t.cloud c).l3 = [] ∧ (t.cloud c).pllLock = true ∧
      (∀ w, (c, w) ∉ t.mem.poison) ∧ (∀ k, k < 16 → t.cell (c * 16 + k) = (s.cell (c * 16 + k)).poweredUp) ∧
      (∀ o, o / 16 ≠ c → t.cell o = s.cell o) ∧ t.regs = s.regs ∧ (t.cloud c).cold = false ∧
      ((s.cloud c).waiting = [] → s.wantsSlow c = (s.cloud c).slowAct → s.lidsIn c ≠ [] → s.refilling c = false → (t.cloud c).state = .run))

/-- Relocation while running (R36, R73, R274, R338 to R342). A period's end takes the next cell of the regime whose
turn it is: with a free spare cell that the move is allowed to, the relocation starts, for a Dynamic cell with its
events held, and without one the cell is skipped, as is a Scheduled cell without a quiet span. Drained, copied with
the poison of its words, and moved piece by piece, the cell's state stands at the substitute, the id switches with
everything moved, and the cell that it has left is tested; a timeout skips. A cell that passed goes back, one that
failed is mapped out and reported, as BIST_CELL too where its logic failed. The shadow swap waits for a quiet span at
most 16 times, copies the cell and switches. The turn of the two regimes, the parts of MOVE_STATE, what must be empty
before the switch, the way back, the quiet span and the end of a failed test are the model's (log entries 58, 59, 61,
63, 64 and 65). -/
def Obligations.RelocationsGoStepByStep : Prop :=
  (∀ (s : State) (lid a b : Nat), s.running = true → s.rep.phase = .idle → s.placeOf lid = some a →
    (∀ shadow, (shadow = false ∧ s.regF aRepCtrl 0 0 = 1 ∧ s.regF aRepCtrl 1 1 = 0 ∧
        s.nextRoll false s.rep.lastLid = some lid) ∨
      (shadow = true ∧ s.regF aRepCtrl 1 1 = 1 ∧ (s.rep.turn = true ∨ s.regF aRepCtrl 0 0 = 0) ∧
        s.nextRoll true s.rep.lastShadow = some lid) →
      ((shadow = true → 40 ≤ tget (fun _ => 0) s.rep.quiet lid) → s.spareCells.head? = some b → s.moveAllowed lid b = true →
        ∃ t, exec .rollStart s = .next t ∧ t.rep.phase = .drain ∧ t.rep.lid = lid ∧ t.rep.old = a ∧ t.rep.sub = b ∧
          t.rep.shadow = shadow ∧ t.rep.back = false ∧ (shadow = false → lid ∈ t.dsp.drain) ∧ t.cells = s.cells ∧
          t.rep.place = s.rep.place ∧ ((s.cloud (b / 16)).state ≠ .off → t.flt = s.flt)) ∧
      (s.spareCells.head? = none ∨ (shadow = true ∧ tget (fun _ => 0) s.rep.quiet lid < 40) →
        ∃ t r, exec .rollStart s = .next t ∧ t.rep.phase = .idle ∧ t.rep.skips = sat 255 (s.rep.skips + 1) ∧
          (s.mode.mode ≠ .reset → t.flt = { s.flt with inQ := putReport r s.flt.inQ }) ∧ r.source = srcRollSkip ∧ t.dsp = s.dsp ∧
          t.cells = s.cells ∧ t.clouds = s.clouds))) ∧
  (∀ s : State, s.rep.phase = .drain → s.rep.shadow = false →
    (s.liveCount s.rep.lid = 0 → (s.cloud (s.rep.sub / 16)).state = .run → (s.cloud (s.rep.old / 16)).state = .run →
      exec .rollDrainDone s = .next { s with rep := { s.rep with phase := .copy } }) ∧
    (s.liveCount s.rep.lid ≠ 0 → exec .rollDrainDone s = .next s ∧ ∃ t, exec .rollDrainTimeout s = .next t ∧
      t.rep.phase = .idle ∧ t.rep.skips = sat 255 (s.rep.skips + 1) ∧ s.rep.lid ∉ t.dsp.drain ∧ t.cells = s.cells ∧
      t.rep.place = s.rep.place)) ∧
  (∀ s : State, s.rep.phase = .copy → s.rep.shadow = false → ∃ t, exec .rollCopyDone s = .next t ∧
    t.rep.phase = .switch ∧ (t.cell s.rep.sub).istore = (s.cell s.rep.old).istore ∧
    (t.cell s.rep.sub).globals = (s.cell s.rep.old).globals ∧
    (∀ k, k < s.reserved s.rep.lid * 256 → mread (t.cell s.rep.sub).frame k 1 = mread (s.cell s.rep.old).frame k 1) ∧
    (s.rep.old ≠ s.rep.sub → s.rep.old < 288 → s.rep.sub < 288 → ∀ w, w < 8192 →
      t.poisoned (codePoison s.rep.sub) w = s.poisoned (codePoison s.rep.old) w) ∧
    (∀ c, c ≠ s.rep.sub → t.cell c = s.cell c) ∧
    ∀ d, d = s.rep.old / 16 ∨ d = s.rep.sub / 16 → (s.cloud d).state = .run →
      (t.cloud d).state = .drain ∧ (t.cloud d).cause = some .move) ∧
  (∀ (old new : Nat) (s : State), old < s.variant.pcells → new < s.variant.pcells → old ≠ new →
    s.moving old new = true →
    (∀ i e, tfind (s.cell old).store i = some e → ∃ t, exec (.moveEntry old new i) s = .next t ∧
      tfind (t.cell new).store i = some e ∧ tfind (t.cell old).store i = none ∧ t.mem.reply = (0, []) ∧
      (∀ c, c ≠ old → c ≠ new → t.cell c = s.cell c) ∧ t.regs = s.regs) ∧
    (∀ level i e, old / 16 ≠ new / 16 → (level = 2 ∨ level = 3) →
      (s.cloud (old / 16)).entryAt { level3 := level = 3, index := i } = some e → e.tok.cell.toNat = s.workId s.rep.lid →
      ∃ t, exec (.moveSpill s.rep.lid level i) s = .next t ∧ t.cells = s.cells ∧ t.mem.reply = (0, []) ∧
        (level = 3 → (t.cloud (old / 16)).entryAt { level3 := true, index := i } = none) ∧
        (level = 2 → (t.cloud (old / 16)).l2 = (((s.modCloud (old / 16) (fun k =>
          k.clearAt { level3 := false, index := i })).moveUp (old / 16) i).cloud (old / 16)).l2)) ∧
    (∀ part off, part ≤ 5 → off % 64 = 0 → ∃ t, exec (.moveState old new part off) s = .next t ∧
      t.mem.reply = (0, []) ∧ (∀ c, c ≠ new → t.cell c = s.cell c) ∧ t.regs = s.regs ∧
      (part = 4 → off = 0 → (t.cell new).engine = (s.cell old).engine) ∧
      (part = 5 → off = 0 → (t.cell new).globals = (s.cell old).globals) ∧
      (part = 3 → ∀ k, off / 16 ≤ k → k < off / 16 + 4 → k < (s.cell old).dir.length →
        off / 16 ≤ (s.cell new).dir.length → (t.cell new).dir[k]? = (s.cell old).dir[k]?)) ∧
    (∀ part off, 5 < part → off % 64 = 0 → exec (.moveState old new part off) s = .next (s.replyTo 0x10 [])) ∧
    (s.allMoved old new = true → ∃ t, exec (.moveDone old new) s = .next t ∧ t.placeOf s.rep.lid = some new ∧
      (∀ l, l ≠ s.rep.lid → t.placeOf l = s.placeOf l) ∧
      t.rep.phase = (if s.rep.back then .idle else .test) ∧ (t.cell old).stopped = true ∧ (t.cell new).stopped = false ∧
      (t.cell new).dir = (s.cell new).dir ∧ (t.cell new).store = (s.cell new).store ∧
      (t.cell old).istore = (s.cell old).istore ∧ t.mem.reply = (0, [])) ∧
    (s.allMoved old new = false → exec (.moveDone old new) s = .next s)) ∧
  (∀ (passed : Bool) (macros : List MacroFail) (s : State), s.rep.phase = .test → s.mode.mode ≠ .reset →
    (passed = true → (macros.filter (ofCell s.rep.old)).any s.exceeds = false →
      ∃ t, exec (.rollTestDone passed macros) s = .next t ∧ t.rep.back = true ∧ t.rep.failed = s.rep.failed ∧
        t.rep.phase = (if s.rep.shadow then .drain else .return_) ∧ t.cells = s.cells ∧ t.rep.place = s.rep.place) ∧
    (passed = false ∨ (macros.filter (ofCell s.rep.old)).any s.exceeds = true →
      ∃ t, exec (.rollTestDone passed macros) s = .next t ∧ t.rep.phase = .idle ∧ s.rep.old ∈ t.rep.failed ∧
        t.rep.place = s.rep.place ∧ (passed = false → ∃ r ∈ t.flt.inQ, r.source = srcBistCell) ∧
        ∃ r ∈ t.flt.inQ, r.source = srcRepRollFail)) ∧
  (∀ s : State, s.rep.phase = .drain → s.rep.shadow = true →
    (s.moveAllowed s.rep.lid s.rollTo = true → (s.cell s.rollFrom).still = true →
      (s.cloud (s.rep.old / 16)).state = .run → (s.cloud (s.rep.sub / 16)).state = .run →
      ∃ t, exec .quietSpanStart s = .next t ∧ t.rep = { s.rep with phase := .copy } ∧ t.cells = s.cells ∧
        (t.cloud (s.rep.old / 16)).state = .drain ∧ (t.cloud (s.rep.sub / 16)).state = .drain) ∧
    (s.moveAllowed s.rep.lid s.rollTo = true → (s.cell s.rollFrom).still = false →
      (s.rep.waited < 15 →
        ∃ t, exec .quietSpanStart s = .next t ∧ t.rep = { s.rep with waited := s.rep.waited + 1 } ∧
          t.cells = s.cells ∧ t.clouds = s.clouds) ∧
      (15 ≤ s.rep.waited → ∃ t, exec .quietSpanStart s = .next t ∧ t.rep.phase = .idle ∧
        t.rep.skips = sat 255 (s.rep.skips + 1) ∧ t.cells = s.cells)) ∧
    (s.moveAllowed s.rep.lid s.rollTo = false → ∃ t, exec .quietSpanStart s = .next t ∧ t.rep.phase = .idle ∧
      t.rep.place = s.rep.place ∧ t.cells = s.cells)) ∧
  (∀ s : State, s.rep.phase = .copy → s.rep.shadow = true → s.bothDrained = true →
    (s.cell s.rollFrom).still = true → s.inFlightFor s.rep.lid s.rollFrom = false → s.rollFrom ≠ s.rollTo →
    ∃ t, exec .shadowCopyDone s = .next t ∧ t.placeOf s.rep.lid = some s.rollTo ∧
      t.rep.phase = (if s.rep.back then .idle else .test) ∧ (t.cell s.rollTo).store = (s.cell s.rollFrom).store ∧
      (t.cell s.rollTo).frame = (s.cell s.rollFrom).frame ∧ (t.cell s.rollTo).dir = (s.cell s.rollFrom).dir ∧
      (t.cell s.rollTo).stopped = false ∧ (t.cell s.rollFrom).stopped = true)
end

