-- ==== Sys2Proof/Laws/Memory.lean ====
section
/-! SUPPORT. The laws of tables and memories: a read after a write, and the canonical form, which every operation
keeps. -/

namespace Sys2Proof.Machine

/-! ### Keys in order -/

/-- Every key of a table lies above a bound. -/
def above {α : Type} (k : Nat) (t : Table α) : Prop := ∀ e ∈ t, k < e.1

/-- The keys of a table rise strictly. -/
abbrev rising {α : Type} (t : Table α) : Prop := List.Pairwise (fun a b : Nat × α => a.1 < b.1) t

theorem tfind_above {α : Type} {t : Table α} {k : Nat} (h : above k t) : tfind t k = none := by
  induction t with
  | nil => rfl
  | cons e t ih =>
    obtain ⟨k', v⟩ := e
    have hk : k < k' := h (k', v) (by simp)
    simp only [tfind]
    rw [if_neg (by omega)]
    exact ih fun e he => h e (by simp [he])

theorem above_tins {α : Type} {t : Table α} {b k : Nat} {v : α} (h : above b t) (hk : b < k) :
    above b (tins t k v) := by
  induction t with
  | nil => intro e he; simp [tins] at he; simp [he, hk]
  | cons e t ih =>
    obtain ⟨k', v'⟩ := e
    have ht : above b t := fun e he => h e (by simp [he])
    have hk' : b < k' := h (k', v') (by simp)
    simp only [tins]
    intro e he
    split at he
    · simp only [List.mem_cons] at he
      rcases he with rfl | rfl | he
      · exact hk
      · exact hk'
      · exact ht e he
    · split at he
      · simp only [List.mem_cons] at he
        rcases he with rfl | he
        · exact hk
        · exact ht e he
      · simp only [List.mem_cons] at he
        rcases he with rfl | he
        · exact hk'
        · exact ih ht e he

theorem rising_tins {α : Type} {t : Table α} {k : Nat} {v : α} (h : rising t) : rising (tins t k v) := by
  induction t with
  | nil => simp [tins, rising]
  | cons e t ih =>
    obtain ⟨k', v'⟩ := e
    obtain ⟨ha, ht⟩ := List.pairwise_cons.mp h
    simp only [tins]
    split
    · rename_i hlt
      refine List.pairwise_cons.mpr ⟨?_, h⟩
      intro e he
      simp only [List.mem_cons] at he
      rcases he with rfl | he
      · exact hlt
      · exact Nat.lt_trans hlt (ha e he)
    · split
      · rename_i _ heq
        exact List.pairwise_cons.mpr ⟨fun e he => heq ▸ ha e he, ht⟩
      · exact List.pairwise_cons.mpr ⟨above_tins ha (by omega), ih ht⟩

theorem rising_terase {α : Type} {t : Table α} {k : Nat} (h : rising t) : rising (terase t k) := h.filter _

theorem mem_tins {α : Type} {t : Table α} {k : Nat} {v : α} {e : Nat × α} (h : e ∈ tins t k v) :
    e = (k, v) ∨ e ∈ t := by
  induction t with
  | nil => simp [tins] at h; exact .inl h
  | cons d t ih =>
    obtain ⟨k', v'⟩ := d
    simp only [tins] at h
    split at h
    · simpa using h
    · split at h
      · simp only [List.mem_cons] at h
        rcases h with h | h
        · exact .inl h
        · exact .inr (by simp [h])
      · simp only [List.mem_cons] at h
        rcases h with h | h
        · exact .inr (by simp [h])
        · rcases ih h with h | h
          · exact .inl h
          · exact .inr (by simp [h])

/-! ### Reading -/

theorem tfind_tins_same {α : Type} (t : Table α) (k : Nat) (v : α) : tfind (tins t k v) k = some v := by
  induction t with
  | nil => simp [tins, tfind]
  | cons e t ih =>
    obtain ⟨k', v'⟩ := e
    simp only [tins]
    split
    · simp [tfind]
    · split
      · simp [tfind]
      · rename_i h1 h2
        simp [tfind, h2, ih]

theorem tfind_tins_other {α : Type} (t : Table α) {k j : Nat} (v : α) (h : j ≠ k) :
    tfind (tins t k v) j = tfind t j := by
  induction t with
  | nil => simp [tins, tfind, h.symm]
  | cons e t ih =>
    obtain ⟨k', v'⟩ := e
    simp only [tins]
    split
    · simp [tfind, h.symm]
    · split
      · rename_i _ h2
        subst h2
        simp [tfind, h.symm]
      · simp [tfind, ih]

theorem tfind_terase_same {α : Type} (t : Table α) (k : Nat) : tfind (terase t k) k = none := by
  induction t with
  | nil => rfl
  | cons e t ih =>
    obtain ⟨k', v'⟩ := e
    simp only [terase, List.filter_cons]
    split
    · rename_i h
      have : k' ≠ k := by simpa using h
      simp only [tfind, if_neg this]
      exact ih
    · exact ih

theorem tfind_terase_other {α : Type} (t : Table α) {k j : Nat} (h : j ≠ k) :
    tfind (terase t k) j = tfind t j := by
  induction t with
  | nil => rfl
  | cons e t ih =>
    obtain ⟨k', v'⟩ := e
    simp only [terase, List.filter_cons]
    split
    · simp only [tfind]
      split
      · rfl
      · exact ih
    · rename_i hk
      have hk : k' = k := by simpa using hk
      simp only [tfind, if_neg (show ¬k' = j by omega)]
      exact ih

/-- A read after a write of the same key answers the value written. -/
@[simp] theorem tget_tset_same {α : Type} [DecidableEq α] (d : Nat → α) (t : Table α) (k : Nat) (v : α) :
    tget d (tset d t k v) k = v := by
  unfold tget tset
  split
  · rename_i h; simp [tfind_terase_same, h]
  · simp [tfind_tins_same]

/-- A write leaves every other key alone. -/
theorem tget_tset_other {α : Type} [DecidableEq α] (d : Nat → α) (t : Table α) {k j : Nat} (v : α) (h : j ≠ k) :
    tget d (tset d t k v) j = tget d t j := by
  unfold tget tset
  split
  · rw [tfind_terase_other t h]
  · rw [tfind_tins_other t v h]

/-! ### The canonical form -/

theorem twf_iff {α : Type} [DecidableEq α] (d : Nat → α) (t : Table α) :
    twf d t = true ↔ rising t ∧ ∀ e ∈ t, e.2 ≠ d e.1 := by
  simp [twf, List.all_eq_true]

/-- The empty table is in canonical form. -/
@[simp] theorem twf_nil {α : Type} [DecidableEq α] (d : Nat → α) : twf d ([] : Table α) = true := by simp [twf]

/-- A write keeps the canonical form. -/
theorem twf_tset {α : Type} [DecidableEq α] {d : Nat → α} {t : Table α} {k : Nat} {v : α} (h : twf d t = true) :
    twf d (tset d t k v) = true := by
  rw [twf_iff] at h ⊢
  unfold tset
  split
  · refine ⟨rising_terase h.1, fun e he => ?_⟩
    exact h.2 e (List.mem_of_mem_filter he)
  · rename_i hv
    refine ⟨rising_tins h.1, fun e he => ?_⟩
    rcases mem_tins he with rfl | he
    · exact hv
    · exact h.2 e he

/-- Removing entries keeps the canonical form. -/
theorem twf_filter {α : Type} [DecidableEq α] {d : Nat → α} {t : Table α} {p : Nat × α → Bool} (h : twf d t = true) :
    twf d (t.filter p) = true := by
  rw [twf_iff] at h ⊢
  exact ⟨h.1.filter _, fun e he => h.2 e (List.mem_of_mem_filter he)⟩

/-! ### Memories -/

@[simp] theorem mget_mset_same (m : Memory) (a : Nat) (b : Byte) : mget (mset m a b) a = b :=
  tget_tset_same unlisted m a b

theorem mget_mset_other (m : Memory) {a c : Nat} (b : Byte) (h : c ≠ a) : mget (mset m a b) c = mget m c :=
  tget_tset_other unlisted m b h

/-- A write of consecutive bytes leaves every other byte alone. -/
theorem mget_mwrite_outside (m : Memory) (a c : Nat) (bs : List Byte) (h : c < a ∨ a + bs.length ≤ c) :
    mget (mwrite m a bs) c = mget m c := by
  induction bs generalizing m a with
  | nil => rfl
  | cons b bs ih =>
    simp only [List.length_cons] at h
    simp only [mwrite]
    rw [ih (mset m a b) (a + 1) (by omega), mget_mset_other m b (by omega)]

/-- A write of consecutive bytes puts each in its place. -/
theorem mget_mwrite_inside (m : Memory) (a i : Nat) (bs : List Byte) (h : i < bs.length) :
    mget (mwrite m a bs) (a + i) = bs[i] := by
  induction bs generalizing m a i with
  | nil => simp at h
  | cons b bs ih =>
    simp only [mwrite]
    cases i with
    | zero =>
      rw [mget_mwrite_outside _ _ _ _ (by omega)]
      simp
    | succ i =>
      have := ih (mset m a b) (a + 1) i (by simpa using h)
      rw [show a + (i + 1) = a + 1 + i by omega, this]
      simp

/-- Every memory operation keeps the canonical form. -/
theorem Memory.wf_mset {m : Memory} {a : Nat} {b : Byte} (h : m.wf = true) : (mset m a b : Memory).wf = true :=
  twf_tset h

theorem Memory.wf_mwrite {m : Memory} {a : Nat} {bs : List Byte} (h : m.wf = true) :
    (mwrite m a bs : Memory).wf = true := by
  induction bs generalizing m a with
  | nil => exact h
  | cons b bs ih => exact ih (Memory.wf_mset h)

theorem Memory.wf_mputWord {m : Memory} {a : Nat} {v : Word} (h : m.wf = true) :
    (mputWord m a v : Memory).wf = true := Memory.wf_mwrite h

theorem Memory.wf_mclear {m : Memory} {a n : Nat} (h : m.wf = true) : (mclear m a n : Memory).wf = true :=
  twf_filter h

/-! ### Stored registers and the parts of the state -/

@[simp] theorem State.reg_setReg_same (s : State) (a : Nat) (v : Word) : (s.setReg a v).reg a = v :=
  tget_tset_same regReset s.regs a v

theorem State.reg_setReg_other (s : State) {a b : Nat} (v : Word) (h : b ≠ a) : (s.setReg a v).reg b = s.reg b :=
  tget_tset_other regReset s.regs v h

@[simp] theorem State.cell_setCell_same (s : State) (p : Nat) (c : Cell) : (s.setCell p c).cell p = c :=
  tget_tset_same _ s.cells p c

theorem State.cell_setCell_other (s : State) {p q : Nat} (c : Cell) (h : q ≠ p) : (s.setCell p c).cell q = s.cell q :=
  tget_tset_other _ s.cells c h

@[simp] theorem State.cell_modCell_same (s : State) (p : Nat) (f : Cell → Cell) :
    (s.modCell p f).cell p = f (s.cell p) := State.cell_setCell_same s p _

theorem State.cell_modCell_other (s : State) {p q : Nat} (f : Cell → Cell) (h : q ≠ p) :
    (s.modCell p f).cell q = s.cell q := State.cell_setCell_other s _ h

@[simp] theorem State.cloud_modCloud_same (s : State) (c : Nat) (f : Cloud → Cloud) :
    (s.modCloud c f).cloud c = f (s.cloud c) := tget_tset_same _ s.clouds c _

theorem State.cloud_modCloud_other (s : State) {c d : Nat} (f : Cloud → Cloud) (h : d ≠ c) :
    (s.modCloud c f).cloud d = s.cloud d := tget_tset_other _ s.clouds _ h

@[simp] theorem State.bank_modBank_same (s : State) (b : Nat) (f : Bank → Bank) :
    (s.modBank b f).bank b = f (s.bank b) := tget_tset_same _ s.mem.banks b _

@[simp] theorem State.pin_modPin_same (s : State) (n : Nat) (f : Pin → Pin) :
    (s.modPin n f).pin n = (s.pin n).settled s.zen.cycle (f (s.pin n)) := tget_tset_same _ s.fio.pins n _

@[simp] theorem State.port_modPort_same (s : State) (p : Nat) (f : SerialPort → SerialPort) :
    (s.modPort p f).port p = f (s.port p) := tget_tset_same _ s.fio.ports p _

@[simp] theorem State.part_modPart_same (s : State) (p : Nat) (f : SeqPart → SeqPart) :
    (s.modPart p f).part p = f (s.part p) := tget_tset_same _ s.seq p _

@[simp] theorem State.station_modStation_same (s : State) (i : Nat) (f : Station → Station) :
    (s.modStation i f).station i = f (s.station i) := tget_tset_same _ s.pairs i _

@[simp] theorem State.link_modLink_same (s : State) (k : Nat) (f : LinkPort → LinkPort) :
    (s.modLink k f).link k = f (s.link k) := tget_tset_same _ s.hor.ports k _

@[simp] theorem State.ring_modRing_same (s : State) (r : Nat) (f : Ring → Ring) :
    (s.modRing r f).ring r = f (s.ring r) := tget_tset_same _ s.hor.rings r _

@[simp] theorem State.key_modKey_same (s : State) (i : Nat) (f : KeySlot → KeySlot) :
    (s.modKey i f).key i = f (s.key i) := tget_tset_same _ s.hor.keys i _

theorem State.key_modKey_other (s : State) {i j : Nat} (f : KeySlot → KeySlot) (h : j ≠ i) :
    (s.modKey i f).key j = s.key j := tget_tset_other _ s.hor.keys _ h

@[simp] theorem State.events_postEvent_same (s : State) (n : Nat) (e : Event) :
    (s.postEvent n e).events n = s.events n ++ [e] := tget_tset_same _ s.dsp.events n _

end Sys2Proof.Machine
end

