-- ==== Sys2Proof/Laws/SoundBase.lean ====
section
/-! SUPPORT. Soundness: what every step of the block keeps. The variant and the queue stay as they are; the
registers and the memories keep their canonical form; a revoked key slot is a programmed one; what a programmed slot
holds is never written again, and a revocation is never undone (R468, R471, R472, R498). -/

namespace Sys2Proof.Machine

/-- What stays fixed: the variant, the commands that wait, key slots with what they hold, and revoked slots. -/
structure Fix where
  variant : Variant
  pending : List Instr
  keys    : List (Nat × BitVec 256 × BitVec 2)
  revoked : List Nat

/-- A key slot in a table of them. -/
def keyAt (t : Table KeySlot) (i : Nat) : KeySlot := tget (fun _ => KeySlot.blank) t i

/-- The parts of a state that soundness is about: variant, queue, registers, global memory, DRAM, MRAM, key slots. -/
structure Fix.ok (F : Fix) (v : Variant) (q : List Instr) (r : Table Word) (g d m : Memory) (k : Table KeySlot) :
    Prop where
  variant : v = F.variant
  pending : q = F.pending
  regs    : twf regReset r = true
  glob    : g.wf = true
  dram    : d.wf = true
  mram    : m.wf = true
  rev     : ∀ i, (keyAt k i).revoked = true → (keyAt k i).prog = true
  keys    : ∀ e ∈ F.keys, (keyAt k e.1).prog = true ∧ (keyAt k e.1).digest = e.2.1 ∧ (keyAt k e.1).usage = e.2.2
  revoked : ∀ i ∈ F.revoked, (keyAt k i).revoked = true

/-- A state is sound for what stays fixed. -/
def State.Sound (F : Fix) (s : State) : Prop :=
  F.ok s.variant s.pending s.regs s.mem.glob s.mem.dram s.mem.mram s.hor.keys

/-- A step's outcome is sound: its next state is. -/
def outSound (F : Fix) : Out → Prop
  | .next t => t.Sound F
  | .fault _ => True
  | .refused _ => True

/-- A state that may be absent is sound. -/
def optSound (F : Fix) : Option State → Prop
  | some t => t.Sound F
  | none => True

variable {F : Fix} {v : Variant} {q : List Instr} {r : Table Word} {g d m : Memory} {k : Table KeySlot}

@[simp] theorem sound_ok {s : State} (h : s.Sound F) :
    F.ok s.variant s.pending s.regs s.mem.glob s.mem.dram s.mem.mram s.hor.keys := h

@[simp] theorem sound_mk {p v r md z fl ds sq je me pa re fi ba ho cl ce fr} :
    (State.mk p v r md z fl ds sq je me pa re fi ba ho cl ce fr).Sound F
      = F.ok v p r me.glob me.dram me.mram ho.keys := (rfl)

/-! ### Parts that are written -/

@[simp] theorem ok_reg {a x} (h : F.ok v q r g d m k) : F.ok v q (tset regReset r a x) g d m k :=
  { h with regs := twf_tset h.regs }

@[simp] theorem ok_regs_nil (h : F.ok v q r g d m k) : F.ok v q [] g d m k := { h with regs := by simp }

@[simp] theorem ok_regs_filter {p} (h : F.ok v q r g d m k) : F.ok v q (r.filter p) g d m k :=
  { h with regs := twf_filter h.regs }

@[simp] theorem ok_glob {a x} (h : F.ok v q r g d m k) : F.ok v q r (mwrite g a x) d m k :=
  { h with glob := Memory.wf_mwrite h.glob }

@[simp] theorem ok_globB {a x} (h : F.ok v q r g d m k) : F.ok v q r (mset g a x) d m k :=
  { h with glob := Memory.wf_mset h.glob }

@[simp] theorem ok_glob_word {a x} (h : F.ok v q r g d m k) : F.ok v q r (mputWord g a x) d m k :=
  { h with glob := Memory.wf_mputWord h.glob }

@[simp] theorem ok_glob_clear {a x} (h : F.ok v q r g d m k) : F.ok v q r (mclear g a x) d m k :=
  { h with glob := Memory.wf_mclear h.glob }

@[simp] theorem ok_glob_nil (h : F.ok v q r g d m k) : F.ok v q r [] d m k := { h with glob := by simp [Memory.wf] }

@[simp] theorem ok_dram {a x} (h : F.ok v q r g d m k) : F.ok v q r g (mwrite d a x) m k :=
  { h with dram := Memory.wf_mwrite h.dram }

@[simp] theorem ok_dram_nil (h : F.ok v q r g d m k) : F.ok v q r g [] m k := { h with dram := by simp [Memory.wf] }

@[simp] theorem ok_mram {a x} (h : F.ok v q r g d m k) : F.ok v q r g d (mwrite m a x) k :=
  { h with mram := Memory.wf_mwrite h.mram }

/-! ### Choices and folds -/

@[simp] theorem sound_ite {c : Prop} [Decidable c] {a b : State} :
    (if c then a else b).Sound F ↔ (c → a.Sound F) ∧ (¬c → b.Sound F) := by split <;> simp [*]

theorem sound_if {c : Prop} [Decidable c] {a b : State} (ha : a.Sound F) (hb : b.Sound F) :
    (if c then a else b).Sound F := by split <;> assumption

theorem sound_foldl {α : Type _} (l : List α) (f : State → α → State)
    (hf : ∀ t x, t.Sound F → (f t x).Sound F) (s : State) (h : s.Sound F) : (l.foldl f s).Sound F := by
  induction l generalizing s with
  | nil => exact h
  | cons x l ih => exact ih _ (hf _ _ h)

@[simp] theorem outSound_next {t : State} : outSound F (.next t) = t.Sound F := (rfl)

@[simp] theorem optSound_some {t : State} : optSound F (some t) = t.Sound F := (rfl)

@[simp] theorem optSound_none : optSound F none = True := (rfl)

@[simp] theorem outSound_unitOk {b : Bool} {s t : State} (hs : s.Sound F) (h : t.Sound F) :
    outSound F (unitOk s b t) := by
  unfold unitOk; split <;> assumption

@[simp] theorem getD_sound {o : Option State} {s : State} (h : s.Sound F) (ho : optSound F o) :
    (o.getD s).Sound F := by
  cases o <;> simp_all

end Sys2Proof.Machine
end

