-- ==== Sys2Proof/Laws/SoundCore.lean ====
section
/-! SUPPORT. Soundness (SoundBase): what the named operations, the field side, zenith and the barrier keep. One lemma per operation. -/

set_option linter.all false

namespace Sys2Proof.Machine

/-! ### Ops -/

@[simp] theorem State.setCell_sound {F : Fix} (s : State) (p : Nat) (c : Cell) (hs : s.Sound F) :
    (State.setCell s p c).Sound F := by
  unfold State.setCell
  (repeat' split) <;> simp_all (maxDischargeDepth := 40)

@[simp] theorem State.modCell_sound {F : Fix} (s : State) (p : Nat) (f : Cell → Cell) (hs : s.Sound F) :
    (State.modCell s p f).Sound F := by
  unfold State.modCell
  (repeat' split) <;> simp_all (maxDischargeDepth := 40)

@[simp] theorem State.mapCells_sound {F : Fix} (s : State) (f : Nat → Cell → Cell) (hs : s.Sound F) :
    (State.mapCells s f).Sound F := by
  unfold State.mapCells
  (repeat' split) <;> simp_all (maxDischargeDepth := 40)

@[simp] theorem State.modCloud_sound {F : Fix} (s : State) (c : Nat) (f : Cloud → Cloud) (hs : s.Sound F) :
    (State.modCloud s c f).Sound F := by
  unfold State.modCloud
  (repeat' split) <;> simp_all (maxDischargeDepth := 40)

@[simp] theorem State.mapClouds_sound {F : Fix} (s : State) (f : Nat → Cloud → Cloud) (hs : s.Sound F) :
    (State.mapClouds s f).Sound F := by
  unfold State.mapClouds
  (repeat' split) <;> simp_all (maxDischargeDepth := 40)

@[simp] theorem State.modBank_sound {F : Fix} (s : State) (b : Nat) (f : Bank → Bank) (hs : s.Sound F) :
    (State.modBank s b f).Sound F := by
  unfold State.modBank
  (repeat' split) <;> simp_all (maxDischargeDepth := 40)

@[simp] theorem State.modPin_sound {F : Fix} (s : State) (n : Nat) (f : Pin → Pin) (hs : s.Sound F) :
    (State.modPin s n f).Sound F := by
  unfold State.modPin
  (repeat' split) <;> simp_all (maxDischargeDepth := 40)

@[simp] theorem State.modPort_sound {F : Fix} (s : State) (p : Nat) (f : SerialPort → SerialPort) (hs : s.Sound F) :
    (State.modPort s p f).Sound F := by
  unfold State.modPort
  (repeat' split) <;> simp_all (maxDischargeDepth := 40)

@[simp] theorem State.modPart_sound {F : Fix} (s : State) (p : Nat) (f : SeqPart → SeqPart) (hs : s.Sound F) :
    (State.modPart s p f).Sound F := by
  unfold State.modPart
  (repeat' split) <;> simp_all (maxDischargeDepth := 40)

@[simp] theorem State.modStation_sound {F : Fix} (s : State) (i : Nat) (f : Station → Station) (hs : s.Sound F) :
    (State.modStation s i f).Sound F := by
  unfold State.modStation
  (repeat' split) <;> simp_all (maxDischargeDepth := 40)

@[simp] theorem State.modLink_sound {F : Fix} (s : State) (k : Nat) (f : LinkPort → LinkPort) (hs : s.Sound F) :
    (State.modLink s k f).Sound F := by
  unfold State.modLink
  (repeat' split) <;> simp_all (maxDischargeDepth := 40)

@[simp] theorem State.modRing_sound {F : Fix} (s : State) (r : Nat) (f : Ring → Ring) (hs : s.Sound F) :
    (State.modRing s r f).Sound F := by
  unfold State.modRing
  (repeat' split) <;> simp_all (maxDischargeDepth := 40)

theorem State.modKey_sound {F : Fix} (s : State) (i : Nat) (f : KeySlot → KeySlot) (hs : s.Sound F)
    (h1 : (f (s.key i)).revoked = true → (f (s.key i)).prog = true)
    (h2 : (s.key i).prog = true → (f (s.key i)).prog = true ∧ (f (s.key i)).digest = (s.key i).digest ∧
      (f (s.key i)).usage = (s.key i).usage)
    (h3 : (s.key i).revoked = true → (f (s.key i)).revoked = true) : (s.modKey i f).Sound F := by
  have h := sound_ok hs
  have e : ∀ j, keyAt (s.modKey i f).hor.keys j = if j = i then f (s.key i) else keyAt s.hor.keys j := by
    intro j
    split
    · rename_i hj; subst hj; exact State.key_modKey_same s j f
    · rename_i hj; exact State.key_modKey_other s f hj
  refine { variant := h.variant, pending := h.pending, regs := h.regs, glob := h.glob, dram := h.dram, mram := h.mram, rev := ?_, keys := ?_, revoked := ?_ }
  · intro j; rw [e j]; split
    · exact h1
    · exact h.rev j
  · intro x hx; rw [e x.1]; split
    · rename_i hj
      have hk := h.keys x hx
      rw [hj] at hk
      have := h2 hk.1
      exact ⟨this.1, this.2.1.trans hk.2.1, this.2.2.trans hk.2.2⟩
    · exact h.keys x hx
  · intro j hj; rw [e j]; split
    · rename_i hk; subst hk; exact h3 (h.revoked j hj)
    · exact h.revoked j hj

@[simp] theorem State.modTimer_sound {F : Fix} (s : State) (n : Nat) (f : Timer → Timer) (hs : s.Sound F) :
    (State.modTimer s n f).Sound F := by
  unfold State.modTimer
  (repeat' split) <;> simp_all (maxDischargeDepth := 40)

@[simp] theorem State.takeFresh_sound {F : Fix} (s : State) (hs : s.Sound F) :
    (State.takeFresh s).2.Sound F := by
  unfold State.takeFresh
  (repeat' split) <;> simp_all (maxDischargeDepth := 40)

@[simp] theorem State.setReg_sound {F : Fix} (s : State) (a : Nat) (v : Word) (hs : s.Sound F) :
    (State.setReg s a v).Sound F := by
  unfold State.setReg
  (repeat' split) <;> simp_all (maxDischargeDepth := 40)

@[simp] theorem State.setRegF_sound {F : Fix} (s : State) (a : Nat) (hi : Nat) (lo : Nat) (x : Nat) (hs : s.Sound
    F) :
    (State.setRegF s a hi lo x).Sound F := by
  unfold State.setRegF
  (repeat' split) <;> simp_all (maxDischargeDepth := 40)

@[simp] theorem State.addRegF_sound {F : Fix} (s : State) (a : Nat) (hi : Nat) (lo : Nat) (n : Nat) (hs : s.Sound
    F) :
    (State.addRegF s a hi lo n).Sound F := by
  unfold State.addRegF
  (repeat' split) <;> simp_all (maxDischargeDepth := 40)

@[simp] theorem State.bump_sound {F : Fix} (s : State) (a : Nat) (hs : s.Sound F) :
    (State.bump s a).Sound F := by
  unfold State.bump
  (repeat' split) <;> simp_all (maxDischargeDepth := 40)

@[simp] theorem State.raise_sound {F : Fix} (s : State) (source : Nat) (master : BitVec 10) (access : BitVec 3)
    (addr : Word) (syn : Word) (hs : s.Sound F) :
    (State.raise s source master access addr syn).Sound F := by
  unfold State.raise
  (repeat' split) <;> simp_all (maxDischargeDepth := 40)

@[simp] theorem State.setupRsv_sound {F : Fix} (s : State) (loader : Bool) (a : Nat) (v : Word) (hs : s.Sound F) :
    (State.setupRsv s loader a v).Sound F := by
  unfold State.setupRsv
  (repeat' split) <;> simp_all (maxDischargeDepth := 40)

@[simp] theorem State.countRsv_sound {F : Fix} (s : State) (loader : Bool) (a : Nat) (v : Word) (hs : s.Sound F) :
    (State.countRsv s loader a v).Sound F := by
  unfold State.countRsv
  (repeat' split) <;> simp_all (maxDischargeDepth := 40)

@[simp] theorem State.ownWrite_sound {F : Fix} (s : State) (a : Nat) (v : Word) (t : State) (hs : s.Sound F) (ht : t.Sound F) :
    (State.ownWrite s a v t).Sound F := by
  unfold State.ownWrite
  (repeat' split) <;> simp_all (maxDischargeDepth := 40)

@[simp] theorem State.noteSensed_sound {F : Fix} (s : State) (source : Nat) (d : Details) (hs : s.Sound F) :
    (State.noteSensed s source d).Sound F := by
  unfold State.noteSensed
  (repeat' split) <;> simp_all (maxDischargeDepth := 40)

@[simp] theorem State.assertLevel_sound {F : Fix} (s : State) (source : Nat) (master : BitVec 10) (access : BitVec
    3) (addr : Word) (syn : Word) (hs : s.Sound F) :
    (State.assertLevel s source master access addr syn).Sound F := by
  unfold State.assertLevel
  (repeat' split) <;> simp_all (maxDischargeDepth := 40)

@[simp] theorem State.endLevel_sound {F : Fix} (s : State) (source : Nat) (hs : s.Sound F) :
    (State.endLevel s source).Sound F := by
  unfold State.endLevel
  (repeat' split) <;> simp_all (maxDischargeDepth := 40)

@[simp] theorem State.toHost_sound {F : Fix} (s : State) (m : BarMsg) (hs : s.Sound F) :
    (State.toHost s m).Sound F := by
  unfold State.toHost
  (repeat' split) <;> simp_all (maxDischargeDepth := 40)

@[simp] theorem State.toField_sound {F : Fix} (s : State) (m : BarMsg) (hs : s.Sound F) :
    (State.toField s m).Sound F := by
  unfold State.toField
  (repeat' split) <;> simp_all (maxDischargeDepth := 40)

@[simp] theorem State.logField_sound {F : Fix} (s : State) (kind : Byte) (body : List Byte) (hs : s.Sound F) :
    (State.logField s kind body).Sound F := by
  unfold State.logField
  (repeat' split) <;> simp_all (maxDischargeDepth := 40)

@[simp] theorem State.logRing_sound {F : Fix} (s : State) (kind : Byte) (body : List Byte) (hs : s.Sound F) :
    (State.logRing s kind body).Sound F := by
  unfold State.logRing
  (repeat' split) <;> simp_all (maxDischargeDepth := 40)

@[simp] theorem State.relay_sound {F : Fix} (s : State) (source : Nat) (asserting : Bool) (port : Nat) (detail :
    Nat) (hs : s.Sound F) :
    (State.relay s source asserting port detail).Sound F := by
  unfold State.relay
  (repeat' split) <;> simp_all (maxDischargeDepth := 40)

@[simp] theorem State.statusChanged_sound {F : Fix} (s : State) (hs : s.Sound F) :
    (State.statusChanged s).Sound F := by
  unfold State.statusChanged
  (repeat' split) <;> simp_all (maxDischargeDepth := 40)

@[simp] theorem State.transit_sound {F : Fix} (s : State) (new : Mode) (cause : Nat) (hs : s.Sound F) :
    (State.transit s new cause).Sound F := by
  unfold State.transit
  (repeat' split) <;> simp_all (maxDischargeDepth := 40)

@[simp] theorem State.settle_sound {F : Fix} (s : State) (hs : s.Sound F) :
    (State.settle s).Sound F := by
  unfold State.settle
  (repeat' split) <;> simp_all (maxDischargeDepth := 40)

@[simp] theorem State.postEvent_sound {F : Fix} (s : State) (src : Nat) (e : Event) (hs : s.Sound F) :
    (State.postEvent s src e).Sound F := by
  unfold State.postEvent
  (repeat' split) <;> simp_all (maxDischargeDepth := 40)

@[simp] theorem State.report_sound {F : Fix} (s : State) (r : Report) (hs : s.Sound F) :
    (State.report s r).Sound F := by
  unfold State.report
  (repeat' split) <;> simp_all (maxDischargeDepth := 40)

@[simp] theorem State.setPoison_sound {F : Fix} (s : State) (memory : Nat) (word : Nat) (hs : s.Sound F) :
    (State.setPoison s memory word).Sound F := by
  unfold State.setPoison
  (repeat' split) <;> simp_all (maxDischargeDepth := 40)

@[simp] theorem State.clearPoison_sound {F : Fix} (s : State) (memory : Nat) (word : Nat) (hs : s.Sound F) :
    (State.clearPoison s memory word).Sound F := by
  unfold State.clearPoison
  (repeat' split) <;> simp_all (maxDischargeDepth := 40)

@[simp] theorem State.carryPoison_sound {F : Fix} (s : State) (from_ to_ n : Nat) (hs : s.Sound F) :
    (State.carryPoison s from_ to_ n).Sound F := by
  unfold State.carryPoison
  (repeat' split) <;> simp_all (maxDischargeDepth := 40)

@[simp] theorem State.mramWrite_sound {F : Fix} (s : State) (a : Nat) (bs : List Byte) (hs : s.Sound F) :
    (State.mramWrite s a bs).Sound F := by
  unfold State.mramWrite
  (repeat' split) <;> simp_all (maxDischargeDepth := 40)

@[simp] theorem whenHolds_sound {F : Fix} (cond : Bool) (s : State) (t : State) (hs : s.Sound F) (ht : t.Sound F) :
    (whenHolds cond s t).Sound F := by
  unfold whenHolds
  (repeat' split) <;> simp_all (maxDischargeDepth := 40)

/-! ### Route -/

@[simp] theorem State.sink_sound {F : Fix} (s : State) (p : Packet) (reason : Nat) (hs : s.Sound F) :
    (State.sink s p reason).Sound F := by
  simp only [State.sink]
  (repeat' first | split | (refine sound_foldl _ _ ?_ _ ?_ <;> intros)) <;> simp_all (maxDischargeDepth := 40)

@[simp] theorem State.rootSend_sound {F : Fix} (s : State) (p : Packet) (hs : s.Sound F) :
    (State.rootSend s p).Sound F := by
  unfold State.rootSend
  (repeat' split) <;> simp_all (maxDischargeDepth := 40)

@[simp] theorem State.sendToLid_sound {F : Fix} (s : State) (lid : Nat) (vc : Vc) (m : Msg) (hs : s.Sound F) :
    (State.sendToLid s lid vc m).Sound F := by
  unfold State.sendToLid
  (repeat' split) <;> simp_all (maxDischargeDepth := 40)

/-! ### Path -/

@[simp] theorem State.writeBudgets_sound {F : Fix} (s : State) (hs : s.Sound F) :
    (State.writeBudgets s).Sound F := by
  simp only [State.writeBudgets]
  (repeat' first | split | (refine sound_foldl _ _ ?_ _ ?_ <;> intros)) <;> simp_all (maxDischargeDepth := 40)

@[simp] theorem State.noteMargins_sound {F : Fix} (s t : State) (hs : s.Sound F) (ht : t.Sound F) :
    (State.noteMargins s t).Sound F := by
  simp only [State.noteMargins]
  (repeat' first | split | (refine sound_foldl _ _ ?_ _ ?_ <;> intros)) <;> simp_all (maxDischargeDepth := 40)

@[simp] theorem State.recordMargins_sound {F : Fix} (s : State) (hs : s.Sound F) :
    (State.recordMargins s).Sound F := by
  simp only [State.recordMargins]
  (repeat' first | split | (refine sound_foldl _ _ ?_ _ ?_ <;> intros)) <;> simp_all (maxDischargeDepth := 40)

/-! ### FieldIO -/

@[simp] theorem State.drivePin_sound {F : Fix} (s : State) (n : Nat) (l : Level) (hs : s.Sound F) :
    (State.drivePin s n l).Sound F := by
  unfold State.drivePin
  (repeat' split) <;> simp_all (maxDischargeDepth := 40)

@[simp] theorem State.releaseOutputs_sound {F : Fix} (s : State) (hs : s.Sound F) :
    (State.releaseOutputs s).Sound F := by
  unfold State.releaseOutputs
  (repeat' split) <;> simp_all (maxDischargeDepth := 40)

@[simp] theorem State.loseCapture_sound {F : Fix} (s : State) (n : Nat) (hs : s.Sound F) :
    (State.loseCapture s n).Sound F := by
  unfold State.loseCapture
  (repeat' split) <;> simp_all (maxDischargeDepth := 40)

@[simp] theorem State.pumpPin_sound {F : Fix} (s : State) (n k : Nat) (hs : s.Sound F) :
    (s.pumpPin n k).Sound F := by
  induction k generalizing s with
  | zero => simpa [State.pumpPin]
  | succ k ih => simp only [State.pumpPin]; grind [optSound, sound_ok, sound_mk, ok_globB, ok_reg,
      State.postEvent_sound, State.modPin_sound]

@[simp] theorem State.pumpPins_sound {F : Fix} (s : State) (hs : s.Sound F) :
    (State.pumpPins s).Sound F := by
  simp only [State.pumpPins]
  (repeat' first | split | (refine sound_foldl _ _ ?_ _ ?_ <;> intros)) <;> simp_all (maxDischargeDepth := 40)

@[simp] theorem State.writeCapture_sound {F : Fix} (s : State) (n : Nat) (c : Capture) (hs : s.Sound F) :
    (State.writeCapture s n c).Sound F := by
  unfold State.writeCapture
  (repeat' split) <;> simp_all (maxDischargeDepth := 40)

theorem execCaptureEdge_sound {F : Fix} (pin : Nat) (rising : Bool) (edge : EdgeTime) (s : State) (hs : s.Sound F) :
    outSound F (execCaptureEdge pin rising edge s) := by
  unfold execCaptureEdge
  (repeat' split) <;> simp_all (maxDischargeDepth := 40)

theorem execQuadratureStep_sound {F : Fix} (pin : Nat) (a : Bool) (b : Bool) (time : Nat) (s : State) (hs : s.Sound
    F) :
    outSound F (execQuadratureStep pin a b time s) := by
  unfold execQuadratureStep
  (repeat' split) <;> simp_all (maxDischargeDepth := 40)

@[simp] theorem State.refuseRelease_sound {F : Fix} (s : State) (flow : BitVec 12) (hs : s.Sound F) :
    (State.refuseRelease s flow).Sound F := by
  unfold State.refuseRelease
  (repeat' split) <;> simp_all (maxDischargeDepth := 40)

@[simp] theorem State.refuseAction_sound {F : Fix} (s : State) (hs : s.Sound F) :
    (State.refuseAction s).Sound F := by
  unfold State.refuseAction
  (repeat' split) <;> simp_all (maxDischargeDepth := 40)

@[simp] theorem State.drainPort_sound {F : Fix} (s : State) (p : Nat) (hs : s.Sound F) :
    (State.drainPort s p).Sound F := by
  unfold State.drainPort
  (repeat' split) <;> simp_all (maxDischargeDepth := 40)

@[simp] theorem State.serialAction_sound {F : Fix} (s : State) (p : Nat) (r : Release) (hs : s.Sound F) :
    (State.serialAction s p r).Sound F := by
  unfold State.serialAction
  (repeat' split) <;> simp_all (maxDischargeDepth := 40)

@[simp] theorem State.pinAction_sound {F : Fix} (s : State) (n : Nat) (action : Nat) (param : Nat) (time : Nat) (hs
    : s.Sound F) :
    (State.pinAction s n action param time).Sound F := by
  unfold State.pinAction
  (try dsimp only)
  (repeat' first | with_reducible assumption | split | with_reducible apply outSound_unitOk | with_reducible rw [outSound_next] | with_reducible apply State.drivePin_sound | with_reducible apply State.modPin_sound | (with_reducible apply sound_foldl <;> intros) | (rw [sound_mk]; with_reducible apply sound_ok) | with_reducible apply ok_reg | simp [outSound, optSound])

@[simp] theorem State.lateRelease_sound {F : Fix} (s : State) (r : Release) (hs : s.Sound F) :
    (State.lateRelease s r).Sound F := by
  unfold State.lateRelease
  (repeat' split) <;> simp_all (maxDischargeDepth := 40)

@[simp] theorem State.passReleases_sound {F : Fix} (s : State) (new : Nat) (hs : s.Sound F) :
    (State.passReleases s new).Sound F := by
  simp only [State.passReleases]
  (repeat' first | split | (refine sound_foldl _ _ ?_ _ ?_ <;> intros)) <;> simp_all (maxDischargeDepth := 40)

theorem execReleaseToken_sound {F : Fix} (s : State) (hs : s.Sound F) :
    outSound F (execReleaseToken s) := by
  simp only [execReleaseToken]
  (repeat' split) <;> simp_all (maxDischargeDepth := 40)

@[simp] theorem State.releasePin_sound {F : Fix} (s : State) (pin : Nat) (action : Nat) (hs : s.Sound F) :
    (State.releasePin s pin action).Sound F := by
  unfold State.releasePin
  (repeat' split) <;> simp_all (maxDischargeDepth := 40)

theorem execLow_sound {F : Fix} (pin : Nat) (s : State) (hs : s.Sound F) :
    outSound F (execLow pin s) := by
  unfold execLow
  (repeat' split) <;> simp_all (maxDischargeDepth := 40)

theorem execHigh_sound {F : Fix} (pin : Nat) (s : State) (hs : s.Sound F) :
    outSound F (execHigh pin s) := by
  unfold execHigh
  (repeat' split) <;> simp_all (maxDischargeDepth := 40)

theorem execToggle_sound {F : Fix} (pin : Nat) (s : State) (hs : s.Sound F) :
    outSound F (execToggle pin s) := by
  unfold execToggle
  (repeat' split) <;> simp_all (maxDischargeDepth := 40)

theorem execHiz_sound {F : Fix} (pin : Nat) (s : State) (hs : s.Sound F) :
    outSound F (execHiz pin s) := by
  unfold execHiz
  (repeat' split) <;> simp_all (maxDischargeDepth := 40)

theorem execPulse_sound {F : Fix} (pin : Nat) (s : State) (hs : s.Sound F) :
    outSound F (execPulse pin s) := by
  unfold execPulse
  (repeat' split) <;> simp_all (maxDischargeDepth := 40)

theorem execDuty_sound {F : Fix} (pin : Nat) (s : State) (hs : s.Sound F) :
    outSound F (execDuty pin s) := by
  unfold execDuty
  (repeat' split) <;> simp_all (maxDischargeDepth := 40)

theorem execPulseEnd_sound {F : Fix} (pin : Nat) (s : State) (hs : s.Sound F) :
    outSound F (execPulseEnd pin s) := by
  unfold execPulseEnd
  (repeat' split) <;> simp_all (maxDischargeDepth := 40)

theorem execPwmPeriodStart_sound {F : Fix} (pin : Nat) (s : State) (hs : s.Sound F) :
    outSound F (execPwmPeriodStart pin s) := by
  unfold execPwmPeriodStart
  (repeat' split) <;> simp_all (maxDischargeDepth := 40)

theorem execReadbackMismatch_sound {F : Fix} (pin : Nat) (s : State) (hs : s.Sound F) :
    outSound F (execReadbackMismatch pin s) := by
  unfold execReadbackMismatch
  (repeat' split) <;> simp_all (maxDischargeDepth := 40)

@[simp] theorem State.readbackAgrees_sound {F : Fix} (s : State) (pin : Nat) (hs : s.Sound F) :
    (State.readbackAgrees s pin).Sound F := by
  unfold State.readbackAgrees
  (repeat' split) <;> simp_all (maxDischargeDepth := 40)

@[simp] theorem State.refitPin_sound {F : Fix} (b s : State) (m : Nat) (hs : s.Sound F) :
    (State.refitPin b s m).Sound F := by
  unfold State.refitPin
  (repeat' split) <;> simp_all (maxDischargeDepth := 40)

@[simp] theorem State.writeTioCfg_sound {F : Fix} (s : State) (n : Nat) (v : Word) (hs : s.Sound F) :
    (State.writeTioCfg s n v).Sound F := by
  unfold State.writeTioCfg
  (repeat' split) <;> simp_all (maxDischargeDepth := 40)

@[simp] theorem State.latchSample_sound {F : Fix} (s : State) (src : Nat) (hs : s.Sound F) :
    (State.latchSample s src).Sound F := by
  unfold State.latchSample
  (repeat' split) <;> simp_all (maxDischargeDepth := 40)

@[simp] theorem State.releasePort_sound {F : Fix} (s : State) (port : Nat) (action : Nat) (hs : s.Sound F) :
    (State.releasePort s port action).Sound F := by
  unfold State.releasePort
  (repeat' split) <;> simp_all (maxDischargeDepth := 40)

theorem execTxb_sound {F : Fix} (port : Nat) (s : State) (hs : s.Sound F) :
    outSound F (execTxb port s) := by
  unfold execTxb
  (repeat' split) <;> simp_all (maxDischargeDepth := 40)

theorem execTxh_sound {F : Fix} (port : Nat) (s : State) (hs : s.Sound F) :
    outSound F (execTxh port s) := by
  unfold execTxh
  (repeat' split) <;> simp_all (maxDischargeDepth := 40)

theorem execTxend_sound {F : Fix} (port : Nat) (s : State) (hs : s.Sound F) :
    outSound F (execTxend port s) := by
  unfold execTxend
  (repeat' split) <;> simp_all (maxDischargeDepth := 40)

theorem execI2cStart_sound {F : Fix} (port : Nat) (s : State) (hs : s.Sound F) :
    outSound F (execI2cStart port s) := by
  unfold execI2cStart
  (repeat' split) <;> simp_all (maxDischargeDepth := 40)

@[simp] theorem State.moveBytes_sound {F : Fix} (s : State) (n k : Nat) (hs : s.Sound F) :
    (s.moveBytes n k).Sound F := by
  induction k generalizing s with
  | zero => simpa [State.moveBytes]
  | succ k ih => simp only [State.moveBytes]; grind [optSound, sound_ok, sound_mk, ok_globB, ok_reg,
      State.modPort_sound]

@[simp] theorem State.pumpPort_sound {F : Fix} (s : State) (n k : Nat) (hs : s.Sound F) :
    (s.pumpPort n k).Sound F := by
  induction k generalizing s with
  | zero => simpa [State.pumpPort]
  | succ k ih => simp only [State.pumpPort]; grind [optSound, sound_ok, sound_mk, ok_globB, ok_reg,
      State.postEvent_sound, State.modPort_sound]

@[simp] theorem State.pumpPorts_sound {F : Fix} (s : State) (hs : s.Sound F) :
    (State.pumpPorts s).Sound F := by
  simp only [State.pumpPorts]
  (repeat' first | split | (refine sound_foldl _ _ ?_ _ ?_ <;> intros)) <;> simp_all (maxDischargeDepth := 40)

@[simp] theorem State.endFrame_sound {F : Fix} (s : State) (p : Nat) (hs : s.Sound F) :
    (State.endFrame s p).Sound F := by
  unfold State.endFrame
  (repeat' split) <;> simp_all (maxDischargeDepth := 40)

theorem execUartRxByte_sound {F : Fix} (port : Nat) (b : Byte) (err : Bool) (brk : Bool) (s : State) (hs : s.Sound
    F) :
    outSound F (execUartRxByte port b err brk s) := by
  unfold execUartRxByte
  refine outSound_unitOk hs ?_
  (repeat' split) <;> simp_all (maxDischargeDepth := 40)

theorem execFrameEnd_sound {F : Fix} (port : Nat) (e : FrameEnd) (s : State) (hs : s.Sound F) :
    outSound F (execFrameEnd port e s) := by
  unfold execFrameEnd
  refine outSound_unitOk hs ?_
  (repeat' split) <;> simp_all (maxDischargeDepth := 40)

theorem execTxUnderrun_sound {F : Fix} (port : Nat) (s : State) (hs : s.Sound F) :
    outSound F (execTxUnderrun port s) := by
  unfold execTxUnderrun
  (repeat' split) <;> simp_all (maxDischargeDepth := 40)

theorem execDeOff_sound {F : Fix} (port : Nat) (s : State) (hs : s.Sound F) :
    outSound F (execDeOff port s) := by
  unfold execDeOff
  (repeat' split) <;> simp_all (maxDischargeDepth := 40)

theorem execI2cNack_sound {F : Fix} (port : Nat) (s : State) (hs : s.Sound F) :
    outSound F (execI2cNack port s) := by
  unfold execI2cNack
  (repeat' split) <;> simp_all (maxDischargeDepth := 40)

theorem execClockStretchTimeout_sound {F : Fix} (port : Nat) (s : State) (hs : s.Sound F) :
    outSound F (execClockStretchTimeout port s) := by
  unfold execClockStretchTimeout
  (repeat' split) <;> simp_all (maxDischargeDepth := 40)

theorem execEchoMismatch_sound {F : Fix} (port : Nat) (s : State) (hs : s.Sound F) :
    outSound F (execEchoMismatch port s) := by
  unfold execEchoMismatch
  (repeat' split) <;> simp_all (maxDischargeDepth := 40)

@[simp] theorem State.dropPort_sound {F : Fix} (s : State) (p : Nat) (hs : s.Sound F) :
    (State.dropPort s p).Sound F := by
  unfold State.dropPort
  (repeat' split) <;> simp_all (maxDischargeDepth := 40)

@[simp] theorem State.configureField_sound {F : Fix} (s : State) (hs : s.Sound F) :
    (State.configureField s).Sound F := by
  simp only [State.configureField]
  (repeat' first | split | (refine sound_foldl _ _ ?_ _ ?_ <;> intros)) <;> simp_all (maxDischargeDepth := 40)

/-! ### Clock -/

@[simp] theorem State.setRate_sound {F : Fix} (s : State) (r : Int) (hs : s.Sound F) :
    (State.setRate s r).Sound F := by
  unfold State.setRate
  (repeat' split) <;> simp_all (maxDischargeDepth := 40)

@[simp] theorem State.coreCycle_sound {F : Fix} (s : State) (hs : s.Sound F) :
    (State.coreCycle s).Sound F := by
  unfold State.coreCycle
  (repeat' split) <;> simp_all (maxDischargeDepth := 40)

/-! ### Zenith -/

@[simp] theorem State.zenReport_sound {F : Fix} (s : State) (source : Nat) (before : ZenState) (after : ZenState)
    (syn : Int) (hs : s.Sound F) :
    (State.zenReport s source before after syn).Sound F := by
  unfold State.zenReport
  (repeat' split) <;> simp_all (maxDischargeDepth := 40)

@[simp] theorem State.zenTo_sound {F : Fix} (s : State) (new : ZenState) (hs : s.Sound F) :
    (State.zenTo s new).Sound F := by
  unfold State.zenTo
  (repeat' split) <;> simp_all (maxDischargeDepth := 40)

@[simp] theorem State.realign_sound {F : Fix} (s : State) (old : Nat) (new : Nat) (hs : s.Sound F) :
    (State.realign s old new).Sound F := by
  simp only [State.realign]
  (repeat' first | split | (refine sound_foldl _ _ ?_ _ ?_ <;> intros)) <;> simp_all (maxDischargeDepth := 40)

@[simp] theorem State.skipTicks_sound {F : Fix} (s : State) (new : Nat) (hs : s.Sound F) :
    (State.skipTicks s new).Sound F := by
  simp only [State.skipTicks]
  (repeat' first | split | (refine sound_foldl _ _ ?_ _ ?_ <;> intros)) <;> simp_all (maxDischargeDepth := 40)

@[simp] theorem State.stepCount_sound {F : Fix} (s : State) (new : Int) (hs : s.Sound F) :
    optSound F (State.stepCount s new) := by
  simp only [State.stepCount]
  (repeat' split) <;> simp_all (maxDischargeDepth := 40)

theorem State.stepCount_some {F : Fix} (s : State) (new : Int) (hs : s.Sound F) (z : State) (ez : (State.stepCount
    s new) = some z) : z.Sound F := by
  have h := State.stepCount_sound (F := F) s new hs
  rw [ez] at h; exact h

@[simp] theorem State.servoRate_sound {F : Fix} (s : State) (r : Int) (hs : s.Sound F) :
    (State.servoRate s r).Sound F := by
  unfold State.servoRate
  (repeat' split) <;> simp_all (maxDischargeDepth := 40)

@[simp] theorem State.servo_sound {F : Fix} (s : State) (off : Int) (hs : s.Sound F) :
    (State.servo s off).Sound F := by
  simp only [State.servo]
  (repeat' split) <;> simp_all (maxDischargeDepth := 40)

@[simp] theorem State.acquire_sound {F : Fix} (s : State) (off : Int) (hs : s.Sound F) :
    (State.acquire s off).Sound F := by
  unfold State.acquire
  (repeat' split) <;> simp_all (maxDischargeDepth := 40)

@[simp] theorem State.discipline_sound {F : Fix} (s : State) (off : Int) (hs : s.Sound F) :
    (State.discipline s off).Sound F := by
  unfold State.discipline
  (repeat' split) <;> simp_all (maxDischargeDepth := 40)

theorem execSyncResult_sound {F : Fix} (s : State) (hs : s.Sound F) :
    outSound F (execSyncResult s) := by
  simp only [execSyncResult]
  (repeat' split) <;> simp_all (maxDischargeDepth := 40)

theorem execSyncTimeout_sound {F : Fix} (s : State) (hs : s.Sound F) :
    outSound F (execSyncTimeout s) := by
  unfold execSyncTimeout
  (repeat' split) <;> simp_all (maxDischargeDepth := 40)

theorem execHoldoverExpiry_sound {F : Fix} (s : State) (hs : s.Sound F) :
    outSound F (execHoldoverExpiry s) := by
  unfold execHoldoverExpiry
  (repeat' split) <;> simp_all (maxDischargeDepth := 40)

@[simp] theorem State.zenCmdDone_sound {F : Fix} (s : State) (status : Nat) (hs : s.Sound F) :
    (State.zenCmdDone s status).Sound F := by
  unfold State.zenCmdDone
  (repeat' split) <;> simp_all (maxDischargeDepth := 40)

@[simp] theorem State.zenSet_sound {F : Fix} (s : State) (hs : s.Sound F) : (s.zenSet).Sound F := by
  have key : ∀ n : Int, (match s.stepCount n with
      | some t => t.zenCmdDone 0
      | none => s.zenCmdDone 2).Sound F := by
    intro n
    split
    · rename_i z hz
      exact State.zenCmdDone_sound _ _ (State.stepCount_some s n hs z hz)
    · exact State.zenCmdDone_sound _ _ hs
  unfold State.zenSet
  split
  · exact key _
  · exact State.zenCmdDone_sound _ _ hs

@[simp] theorem State.endSlew_sound {F : Fix} (s : State) (hs : s.Sound F) :
    (State.endSlew s).Sound F := by
  unfold State.endSlew
  (repeat' split) <;> simp_all (maxDischargeDepth := 40)

@[simp] theorem State.zenStepCmd_sound {F : Fix} (s : State) (hs : s.Sound F) :
    (State.zenStepCmd s).Sound F := by
  unfold State.zenStepCmd
  split
  · simp_all
  · dsimp only
    split
    · rename_i z hz
      exact State.zenCmdDone_sound _ _ (State.stepCount_some _ _ (State.endSlew_sound s hs) z hz)
    · simp_all

theorem execZenCmdSet_sound {F : Fix} (s : State) (hs : s.Sound F) :
    outSound F (execZenCmdSet s) := by
  unfold execZenCmdSet
  (repeat' split) <;> simp_all (maxDischargeDepth := 40)

theorem execZenCmdStep_sound {F : Fix} (s : State) (hs : s.Sound F) :
    outSound F (execZenCmdStep s) := by
  unfold execZenCmdStep
  (repeat' split) <;> simp_all (maxDischargeDepth := 40)

@[simp] theorem State.writeZenCtrl_sound {F : Fix} (s : State) (v : Word) (hs : s.Sound F) :
    (State.writeZenCtrl s v).Sound F := by
  unfold State.writeZenCtrl
  (repeat' split) <;> simp_all (maxDischargeDepth := 40)

theorem execDiscEnWrite_sound {F : Fix} (v : Word) (s : State) (hs : s.Sound F) :
    outSound F (execDiscEnWrite v s) := by
  unfold execDiscEnWrite
  (repeat' split) <;> simp_all (maxDischargeDepth := 40)

@[simp] theorem State.captureNow_sound {F : Fix} (s : State) (hs : s.Sound F) :
    (State.captureNow s).Sound F := by
  unfold State.captureNow
  (repeat' split) <;> simp_all (maxDischargeDepth := 40)

theorem execZenNowloRead_sound {F : Fix} (s : State) (hs : s.Sound F) :
    outSound F (execZenNowloRead s) := by
  unfold execZenNowloRead
  (repeat' split) <;> simp_all (maxDischargeDepth := 40)

@[simp] theorem State.pumpTimers_sound {F : Fix} (s : State) (hs : s.Sound F) :
    (State.pumpTimers s).Sound F := by
  simp only [State.pumpTimers]
  (repeat' first | split | (refine sound_foldl _ _ ?_ _ ?_ <;> intros)) <;> simp_all (maxDischargeDepth := 40)

theorem execTimerTick_sound {F : Fix} (n : Nat) (s : State) (hs : s.Sound F) :
    outSound F (execTimerTick n s) := by
  unfold execTimerTick
  (repeat' split) <;> simp_all (maxDischargeDepth := 40)

@[simp] theorem State.rearmTimer_sound {F : Fix} (s : State) (n : Nat) (hs : s.Sound F) :
    (State.rearmTimer s n).Sound F := by
  unfold State.rearmTimer
  (repeat' split) <;> simp_all (maxDischargeDepth := 40)

@[simp] theorem State.startTimers_sound {F : Fix} (s : State) (hs : s.Sound F) :
    (State.startTimers s).Sound F := by
  simp only [State.startTimers]
  (repeat' first | split | (refine sound_foldl _ _ ?_ _ ?_ <;> intros)) <;> simp_all (maxDischargeDepth := 40)

@[simp] theorem State.timerWritten_sound {F : Fix} (s : State) (a n : Nat) (hs : s.Sound F) :
    (State.timerWritten s a n).Sound F := by
  unfold State.timerWritten
  split <;> simp_all (maxDischargeDepth := 40)

theorem execTimeMarker_sound {F : Fix} (s : State) (hs : s.Sound F) :
    outSound F (execTimeMarker s) := by
  unfold execTimeMarker
  (repeat' split) <;> simp_all (maxDischargeDepth := 40)

@[simp] theorem State.takeMarker_sound {F : Fix} (s : State) (z : Nat) (hs : s.Sound F) :
    (State.takeMarker s z).Sound F := by
  unfold State.takeMarker
  (repeat' split) <;> simp_all (maxDischargeDepth := 40)

@[simp] theorem State.sendPort_sound {F : Fix} (s : State) (k : Nat) (f : Frame) (hs : s.Sound F) :
    (State.sendPort s k f).Sound F := by
  unfold State.sendPort
  (repeat' split) <;> simp_all (maxDischargeDepth := 40)

@[simp] theorem State.sendUp_sound {F : Fix} (s : State) (type : Byte) (payload : List Byte) (hs : s.Sound F) :
    (State.sendUp s type payload).Sound F := by
  unfold State.sendUp
  (repeat' split) <;> simp_all (maxDischargeDepth := 40)

@[simp] theorem State.syncOut_sound {F : Fix} (s : State) (seq : BitVec 16) (arrival : Nat) (master : Int)
    (complete : Bool) (hs : s.Sound F) :
    (State.syncOut s seq arrival master complete).Sound F := by
  unfold State.syncOut
  split
  · exact hs
  · split
    · exact State.toField_sound _ _ hs
    · exact State.toField_sound _ _ (State.takeFresh_sound _ hs)

theorem execSync_sound {F : Fix} (m : TimingMsg) (arrival : BitVec 64) (departs : List (Nat × BitVec 64)) (s :
    State) (hs : s.Sound F) :
    outSound F (execSync m arrival departs s) := by
  simp only [execSync]
  (repeat' first | split | (refine sound_foldl _ _ ?_ _ ?_ <;> intros)) <;> simp_all (maxDischargeDepth := 40)

theorem execFollowUp_sound {F : Fix} (m : TimingMsg) (s : State) (hs : s.Sound F) :
    outSound F (execFollowUp m s) := by
  unfold execFollowUp
  grind [sound_foldl, optSound, outSound, sound_ok, sound_mk,
    outSound_unitOk, ok_reg, ok_glob, ok_dram, ok_mram, State.sendPort_sound, State.syncOut_sound]

theorem execDelayReqSend_sound {F : Fix} (departure : BitVec 64) (s : State) (hs : s.Sound F) :
    outSound F (execDelayReqSend departure s) := by
  unfold execDelayReqSend
  (repeat' split) <;> simp_all (maxDischargeDepth := 40)

theorem execDelayReq_sound {F : Fix} (port : Nat) (m : TimingMsg) (b : BitVec 64) (c : BitVec 64) (s : State) (hs :
    s.Sound F) :
    outSound F (execDelayReq port m b c s) := by
  unfold execDelayReq
  (repeat' split) <;> simp_all (maxDischargeDepth := 40)

theorem execDelayResp_sound {F : Fix} (m : TimingMsg) (arrival : BitVec 64) (s : State) (hs : s.Sound F) :
    outSound F (execDelayResp m arrival s) := by
  unfold execDelayResp
  (repeat' split) <;> simp_all (maxDischargeDepth := 40)

/-! ### Barrier -/

@[simp] theorem State.lnkDown_sound {F : Fix} (s : State) (port : Nat) (detail : Nat) (hs : s.Sound F) :
    (State.lnkDown s port detail).Sound F := by
  unfold State.lnkDown
  (repeat' split) <;> simp_all (maxDischargeDepth := 40)

@[simp] theorem State.takeRelay_sound {F : Fix} (s : State) (w : Word) (hs : s.Sound F) :
    (State.takeRelay s w).Sound F := by
  unfold State.takeRelay
  (repeat' split) <;> simp_all (maxDischargeDepth := 40)

@[simp] theorem State.takeField_sound {F : Fix} (s : State) (m : BarMsg) (hs : s.Sound F) :
    (State.takeField s m).Sound F := by
  unfold State.takeField
  (repeat' split) <;> simp_all (maxDischargeDepth := 40)

@[simp] theorem State.takeHost_sound {F : Fix} (s : State) (m : BarMsg) (hs : s.Sound F) :
    (State.takeHost s m).Sound F := by
  unfold State.takeHost
  (repeat' split) <;> simp_all (maxDischargeDepth := 40)

theorem execBarrierMessage_sound {F : Fix} (toField : Bool) (ok : Bool) (s : State) (hs : s.Sound F) :
    outSound F (execBarrierMessage toField ok s) := by
  simp only [execBarrierMessage]
  (repeat' split) <;> simp_all (maxDischargeDepth := 40)

theorem execBarrierLaneLoss_sound {F : Fix} (s : State) (hs : s.Sound F) :
    outSound F (execBarrierLaneLoss s) := by
  unfold execBarrierLaneLoss
  (repeat' split) <;> simp_all (maxDischargeDepth := 40)

theorem execHeartbeatMissing_sound {F : Fix} (s : State) (hs : s.Sound F) :
    outSound F (execHeartbeatMissing s) := by
  unfold execHeartbeatMissing
  (repeat' split) <;> simp_all (maxDischargeDepth := 40)

@[simp] theorem State.barrierUp_sound {F : Fix} (s : State) (hs : s.Sound F) :
    (State.barrierUp s).Sound F := by
  unfold State.barrierUp
  (repeat' split) <;> simp_all (maxDischargeDepth := 40)

end Sys2Proof.Machine
end

