-- ==== Sys2Proof/Laws/SoundCell.lean ====
section
/-! SUPPORT. Soundness (SoundBase): what the cells and the strands keep. One lemma per operation. -/

set_option linter.all false

namespace Sys2Proof.Machine

/-! ### Match -/

@[simp] theorem State.tokenFault_sound {F : Fix} (s : State) (source : Nat) (pcell : Nat) (t : Token) (hs : s.Sound
    F) :
    (State.tokenFault s source pcell t).Sound F := by
  unfold State.tokenFault
  (repeat' split) <;> simp_all (maxDischargeDepth := 40)

@[simp] theorem State.schedTag_sound {F : Fix} (s : State) (pcell : Nat) (t : Token) (slot : Nat) (hs : s.Sound F) :
    (State.schedTag s pcell t slot).Sound F := by
  unfold State.schedTag
  (repeat' split) <;> simp_all (maxDischargeDepth := 40)

@[simp] theorem State.dupFault_sound {F : Fix} (s : State) (pcell : Nat) (t : Token) (hs : s.Sound F) :
    (State.dupFault s pcell t).Sound F := by
  unfold State.dupFault
  (repeat' split) <;> simp_all (maxDischargeDepth := 40)

@[simp] theorem State.house_sound {F : Fix} (s : State) (pcell : Nat) (what : Pending) (ea : Word) (op : Byte) (data : BitVec 64) (seq : OutputSeq) (hs : s.Sound F) :
    (State.house s pcell what ea op data seq).Sound F := by
  unfold State.house
  (repeat' split) <;> simp_all (maxDischargeDepth := 40)

@[simp] theorem State.toEngine_sound {F : Fix} (s : State) (pcell : Nat) (what : Pending) (op : Byte) (addr : Word) (data : BitVec 64) (body : List Byte) (hs : s.Sound F) :
    (State.toEngine s pcell what op addr data body).Sound F := by
  unfold State.toEngine
  (repeat' split) <;> simp_all (maxDischargeDepth := 40)

@[simp] theorem State.sendSpill_sound {F : Fix} (s : State) (pcell : Nat) (set : Nat) (e : Entry) (hs : s.Sound F) :
    (State.sendSpill s pcell set e).Sound F := by
  simp only [State.sendSpill]
  (repeat' split) <;> simp_all (maxDischargeDepth := 40)

@[simp] theorem State.sendRecall_sound {F : Fix} (s : State) (pcell : Nat) (set : Nat) (t : Token) (hs : s.Sound F) :
    (State.sendRecall s pcell set t).Sound F := by
  simp only [State.sendRecall]
  (repeat' split) <;> simp_all (maxDischargeDepth := 40)

@[simp] theorem State.sendFetch_sound {F : Fix} (s : State) (pcell : Nat) (set : Nat) (hs : s.Sound F) :
    (State.sendFetch s pcell set).Sound F := by
  simp only [State.sendFetch]
  (repeat' split) <;> simp_all (maxDischargeDepth := 40)

@[simp] theorem State.sendSweep_sound {F : Fix} (s : State) (pcell : Nat) (t : Token) (hs : s.Sound F) :
    (State.sendSweep s pcell t).Sound F := by
  simp only [State.sendSweep]
  (repeat' split) <;> simp_all (maxDischargeDepth := 40)

@[simp] theorem State.purgeEngine_sound {F : Fix} (s : State) (pcell : Nat) (p : Purge) (hs : s.Sound F) :
    (State.purgeEngine s pcell p).Sound F := by
  simp only [State.purgeEngine]
  (repeat' split) <;> simp_all (maxDischargeDepth := 40)

@[simp] theorem State.giveBack_sound {F : Fix} (s : State) (c : Option Credit) (hs : s.Sound F) :
    (State.giveBack s c).Sound F := by
  unfold State.giveBack
  (repeat' split) <;> simp_all (maxDischargeDepth := 40)

@[simp] theorem State.frameMiss_sound {F : Fix} (s : State) (pcell : Nat) (a : Activation) (hs : s.Sound F) :
    (State.frameMiss s pcell a).Sound F := by
  unfold State.frameMiss
  (repeat' split) <;> simp_all (maxDischargeDepth := 40)

@[simp] theorem State.pushReady_sound {F : Fix} (s : State) (pcell : Nat) (a : Activation) (hs : s.Sound F) :
    (State.pushReady s pcell a).Sound F := by
  unfold State.pushReady
  (repeat' split) <;> simp_all (maxDischargeDepth := 40)

@[simp] theorem State.fire_sound {F : Fix} (s : State) (pcell : Nat) (a : Activation) (hs : s.Sound F) :
    (State.fire s pcell a).Sound F := by
  unfold State.fire
  (repeat' split) <;> simp_all (maxDischargeDepth := 40)

@[simp] theorem State.spillOut_sound {F : Fix} (s : State) (pcell : Nat) (set : Nat) (e : Entry) (hs : s.Sound F) :
    (State.spillOut s pcell set e).Sound F := by
  unfold State.spillOut
  (repeat' split) <;> simp_all (maxDischargeDepth := 40)

@[simp] theorem State.placeEntry_sound {F : Fix} (s : State) (pcell : Nat) (set : Nat) (e : Entry) (hs : s.Sound F)
    :
    (State.placeEntry s pcell set e).Sound F := by
  simp only [State.placeEntry]
  (repeat' split) <;> simp_all (maxDischargeDepth := 40)

@[simp] theorem State.wayFreed_sound {F : Fix} (s : State) (pcell : Nat) (set : Nat) (hs : s.Sound F) :
    (State.wayFreed s pcell set).Sound F := by
  unfold State.wayFreed
  (repeat' split) <;> simp_all (maxDischargeDepth := 40)

@[simp] theorem State.dropEntry_sound {F : Fix} (s : State) (pcell : Nat) (i : Nat) (hs : s.Sound F) :
    (State.dropEntry s pcell i).Sound F := by
  unfold State.dropEntry
  (repeat' split) <;> simp_all (maxDischargeDepth := 40)

@[simp] theorem State.arriveLatch_sound {F : Fix} (s : State) (pcell : Nat) (t : Token) (hs : s.Sound F) :
    optSound F (State.arriveLatch s pcell t) := by
  simp only [State.arriveLatch]
  (repeat' split) <;> simp_all (maxDischargeDepth := 40)

theorem State.arriveLatch_some {F : Fix} (s : State) (pcell : Nat) (t : Token) (hs : s.Sound F) (z : State) (ez :
    (State.arriveLatch s pcell t) = some z) : z.Sound F := by
  have h := State.arriveLatch_sound (F := F) s pcell t hs
  rw [ez] at h; exact h

@[simp] theorem State.arrivePaired_sound {F : Fix} (s : State) (pcell : Nat) (t : Token) (returned : Bool) (hs :
    s.Sound F) :
    optSound F (State.arrivePaired s pcell t returned) := by
  simp only [State.arrivePaired]
  (repeat' split) <;> simp_all (maxDischargeDepth := 40)

theorem State.arrivePaired_some {F : Fix} (s : State) (pcell : Nat) (t : Token) (returned : Bool) (hs : s.Sound F)
    (z : State) (ez : (State.arrivePaired s pcell t returned) = some z) : z.Sound F := by
  have h := State.arrivePaired_sound (F := F) s pcell t returned hs
  rw [ez] at h; exact h

@[simp] theorem State.arriveSched_sound {F : Fix} (s : State) (pcell : Nat) (t : Token) (hs : s.Sound F) :
    (State.arriveSched s pcell t).Sound F := by
  simp only [State.arriveSched]
  (repeat' split) <;> simp_all (maxDischargeDepth := 40)

@[simp] theorem State.storeEcc_sound {F : Fix} (s : State) (pcell : Nat) (entries : List Nat) (ecc : MatchEcc) (hs : s.Sound F) :
    (State.storeEcc s pcell entries ecc).Sound F := by
  simp only [State.storeEcc]
  (repeat' split) <;> simp_all (maxDischargeDepth := 40)

@[simp] theorem State.acceptToken_sound {F : Fix} (s : State) (pcell : Nat) (t : Token) (onS : Bool) (returned : Bool) (ecc : MatchEcc) (hs : s.Sound F) :
    optSound F (State.acceptToken s pcell t onS returned ecc) := by
  simp only [State.acceptToken]
  (repeat' split) <;> simp_all (maxDischargeDepth := 40)

theorem State.acceptToken_some {F : Fix} (s : State) (pcell : Nat) (t : Token) (onS : Bool) (returned : Bool) (ecc : MatchEcc) (hs : s.Sound F) (z : State) (ez : (State.acceptToken s pcell t onS returned ecc) = some z) : z.Sound F := by
  have h := State.acceptToken_sound (F := F) s pcell t onS returned ecc hs
  rw [ez] at h; exact h

@[simp] theorem State.trapFire_sound {F : Fix} (s : State) (pcell : Nat) (t : Token) (hs : s.Sound F) :
    optSound F (State.trapFire s pcell t) := by
  simp only [State.trapFire]
  (repeat' split) <;> simp_all (maxDischargeDepth := 40)

theorem State.trapFire_some {F : Fix} (s : State) (pcell : Nat) (t : Token) (hs : s.Sound F) (z : State) (ez :
    (State.trapFire s pcell t) = some z) : z.Sound F := by
  have h := State.trapFire_sound (F := F) s pcell t hs
  rw [ez] at h; exact h

@[simp] theorem State.refuseStart_sound {F : Fix} (s : State) (pcell : Nat) (h : Header) (hs : s.Sound F) :
    (State.refuseStart s pcell h).Sound F := by
  unfold State.refuseStart
  (repeat' split) <;> simp_all (maxDischargeDepth := 40)

@[simp] theorem State.refusePrefetch_sound {F : Fix} (s : State) (pcell : Nat) (hs : s.Sound F) :
    (State.refusePrefetch s pcell).Sound F := by
  simp only [State.refusePrefetch]
  (repeat' split) <;> simp_all (maxDischargeDepth := 40)

theorem execTokenAccept_sound {F : Fix} (pcell : Nat) (ecc : MatchEcc) (s : State) (hs : s.Sound F) :
    outSound F (execTokenAccept pcell ecc s) := by
  have take : ∀ (t u : State) (credit : Option Credit) (tok : Token) (a b : Bool), t.Sound F → u.Sound F →
      (((u.giveBack credit).acceptToken pcell tok a b ecc).getD t).Sound F := fun t u credit tok a b ht hu =>
    getD_sound ht (State.acceptToken_sound _ _ _ _ _ _ (State.giveBack_sound _ _ hu))
  unfold execTokenAccept
  apply outSound_unitOk hs
  split
  · exact hs
  · split
    · exact getD_sound hs (State.acceptToken_sound _ _ _ _ _ _ (State.modCell_sound _ _ _ hs))
    · split
      · split
        · exact State.refuseStart_sound _ _ _ (State.giveBack_sound _ _ (State.modCell_sound _ _ _ hs))
        · exact take _ _ _ _ _ _ hs (State.modCell_sound _ _ _ hs)
      · exact take _ _ _ _ _ _ hs (State.modCell_sound _ _ _ hs)
      · exact take _ _ _ _ _ _ hs (State.modCell_sound _ _ _ hs)
      · apply getD_sound hs
        cases h : State.trapFire (s.modCell pcell _) pcell _ with
        | none => simp
        | some u => exact State.modCell_sound _ _ _ (State.trapFire_some _ _ _ (State.modCell_sound _ _ _ hs) _ h)
      · exact hs
      · exact hs

@[simp] theorem State.sweepEntry_sound {F : Fix} (s : State) (pcell : Nat) (i : Nat) (lat : Token) (hs : s.Sound F)
    :
    optSound F (State.sweepEntry s pcell i lat) := by
  unfold State.sweepEntry
  (repeat' split) <;> simp_all (maxDischargeDepth := 40)

theorem State.sweepEntry_some {F : Fix} (s : State) (pcell : Nat) (i : Nat) (lat : Token) (hs : s.Sound F) (z :
    State) (ez : (State.sweepEntry s pcell i lat) = some z) : z.Sound F := by
  have h := State.sweepEntry_sound (F := F) s pcell i lat hs
  rw [ez] at h; exact h

@[simp] theorem State.sweepOver_sound {F : Fix} (s : State) (p : Nat) (t : Token) (l : List Nat) (hs : s.Sound F) :
    (s.sweepOver p t l).1.Sound F := by
  induction l generalizing s with
  | nil => simpa [State.sweepOver]
  | cons k ks ih => simp only [State.sweepOver]; grind [optSound, State.sweepEntry_sound, State.sweepEntry_some]

theorem execLatchSweep_sound {F : Fix} (pcell : Nat) (s : State) (hs : s.Sound F) :
    outSound F (execLatchSweep pcell s) := by
  simp only [execLatchSweep]
  (repeat' split) <;> simp_all (maxDischargeDepth := 40)

theorem execPrefetchMessage_sound {F : Fix} (pcell : Nat) (s : State) (hs : s.Sound F) :
    outSound F (execPrefetchMessage pcell s) := by
  unfold execPrefetchMessage
  (repeat' split) <;> simp_all (maxDischargeDepth := 40)

theorem execPreMatchedActivation_sound {F : Fix} (pcell : Nat) (s : State) (hs : s.Sound F) :
    outSound F (execPreMatchedActivation pcell s) := by
  unfold execPreMatchedActivation
  (repeat' split) <;> simp_all (maxDischargeDepth := 40)

@[simp] theorem State.ageEntry_sound {F : Fix} (s : State) (pcell : Nat) (sched : Bool) (i : Nat) (hs : s.Sound F) :
    (State.ageEntry s pcell sched i).Sound F := by
  unfold State.ageEntry
  (repeat' split) <;> simp_all (maxDischargeDepth := 40)

theorem execAgerVisit_sound {F : Fix} (pcell : Nat) (ecc : MatchEcc) (s : State) (hs : s.Sound F) :
    outSound F (execAgerVisit pcell ecc s) := by
  unfold execAgerVisit
  grind [sound_foldl, optSound, outSound, sound_ok, sound_mk, outSound_unitOk, ok_reg, ok_glob, ok_dram, ok_mram, State.storeEcc_sound, State.ageEntry_sound, State.modCell_sound]

@[simp] theorem State.purgeStore_sound {F : Fix} (s : State) (pcell : Nat) (p : Purge) (hs : s.Sound F) :
    (State.purgeStore s pcell p).Sound F := by
  simp only [State.purgeStore]
  (repeat' first | split | (refine sound_foldl _ _ ?_ _ ?_ <;> intros)) <;> simp_all (maxDischargeDepth := 40)

theorem execPurge_sound {F : Fix} (at_ : CellRead) (s : State) (hs : s.Sound F) :
    outSound F (execPurge at_ s) := by
  simp only [execPurge]
  (repeat' split) <;> simp_all (maxDischargeDepth := 40)

/-! ### Strand -/

@[simp] theorem State.pairSend_sound {F : Fix} (s : State) (pcell : Nat) (vc : Vc) (kind : PairKind) (t : Strand)
    (word : Word) (hs : s.Sound F) :
    (State.pairSend s pcell vc kind t word).Sound F := by
  unfold State.pairSend
  (repeat' split) <;> simp_all (maxDischargeDepth := 40)

@[simp] theorem State.sendNotices_sound {F : Fix} (s : State) (pcell : Nat) (flow : BitVec 12) (iteration : BitVec 16) (hs : s.Sound F) :
    (State.sendNotices s pcell flow iteration).Sound F := by
  simp only [State.sendNotices]
  (repeat' first | split | (refine sound_foldl _ _ ?_ _ ?_ <;> intros)) <;> simp_all (maxDischargeDepth := 40)

@[simp] theorem State.frameCheck_sound {F : Fix} (s : State) (pcell : Nat) (flow : BitVec 12) (iteration : BitVec
    16) (hs : s.Sound F) :
    (State.frameCheck s pcell flow iteration).Sound F := by
  simp only [State.frameCheck]
  (repeat' split) <;> simp_all (maxDischargeDepth := 40)

@[simp] theorem State.endStrand_sound {F : Fix} (s : State) (pcell : Nat) (t : Strand) (hs : s.Sound F) :
    (State.endStrand s pcell t).Sound F := by
  unfold State.endStrand
  (repeat' split) <;> simp_all (maxDischargeDepth := 40)

@[simp] theorem State.dropStrand_sound {F : Fix} (s : State) (pcell : Nat) (t : Strand) (hs : s.Sound F) :
    (State.dropStrand s pcell t).Sound F := by
  unfold State.dropStrand
  (repeat' split) <;> simp_all (maxDischargeDepth := 40)

@[simp] theorem State.stopStrand_sound {F : Fix} (s : State) (pcell : Nat) (t : Strand) (hs : s.Sound F) :
    (State.stopStrand s pcell t).Sound F := by
  unfold State.stopStrand
  (repeat' split) <;> simp_all (maxDischargeDepth := 40)

@[simp] theorem State.stopActivation_sound {F : Fix} (s : State) (pcell : Nat) (flow : BitVec 12) (iteration :
    BitVec 16) (hs : s.Sound F) :
    (State.stopActivation s pcell flow iteration).Sound F := by
  simp only [State.stopActivation]
  (repeat' first | split | (refine sound_foldl _ _ ?_ _ ?_ <;> intros)) <;> simp_all (maxDischargeDepth := 40)

@[simp] theorem State.releaseLocks_sound {F : Fix} (s : State) (pcell : Nat) (flow : BitVec 12) (q : OutputSeq) (hs : s.Sound F) :
    (State.releaseLocks s pcell flow q).Sound F := by
  simp only [State.releaseLocks]
  (repeat' first | split | (refine sound_foldl _ _ ?_ _ ?_ <;> intros)) <;> simp_all (maxDischargeDepth := 40)

@[simp] theorem State.reportAbort_sound {F : Fix} (s : State) (pcell : Nat) (flow : BitVec 12) (iteration : BitVec 16) (hen : Bool) (q : OutputSeq) (hs : s.Sound F) :
    (State.reportAbort s pcell flow iteration hen q).Sound F := by
  unfold State.reportAbort
  (repeat' split) <;> simp_all (maxDischargeDepth := 40)

@[simp] theorem State.trapStrand_sound {F : Fix} (s : State) (pcell : Nat) (slot : Nat) (t : Strand) (cause : TrapCause) (code : Nat) (info : Word) (write : Bool) (hs : s.Sound F) :
    (State.trapStrand s pcell slot t cause code info write).Sound F := by
  simp only [State.trapStrand]
  (repeat' split) <;> simp_all (maxDischargeDepth := 40)

@[simp] theorem State.abortActivation_sound {F : Fix} (s : State) (pcell : Nat) (flow : BitVec 12) (iteration : BitVec 16) (hs : s.Sound F) :
    optSound F (State.abortActivation s pcell flow iteration) := by
  simp only [State.abortActivation]
  (repeat' split) <;> simp_all (maxDischargeDepth := 40)

theorem State.abortActivation_some {F : Fix} (s : State) (pcell : Nat) (flow : BitVec 12) (iteration : BitVec 16) (hs : s.Sound F) (z : State) (ez : (State.abortActivation s pcell flow iteration) = some z) : z.Sound F := by
  have h := State.abortActivation_sound (F := F) s pcell flow iteration hs
  rw [ez] at h; exact h

@[simp] theorem State.haltPartition_sound {F : Fix} (s : State) (p : Nat) (hs : s.Sound F) :
    (State.haltPartition s p).Sound F := by
  unfold State.haltPartition
  (repeat' split) <;> simp_all (maxDischargeDepth := 40)

@[simp] theorem State.debugHold_sound {F : Fix} (s : State) (pcell : Nat) (slot : Nat) (t : Strand) (hs : s.Sound
    F) :
    (State.debugHold s pcell slot t).Sound F := by
  simp only [State.debugHold]
  (repeat' split) <;> simp_all (maxDischargeDepth := 40)

@[simp] theorem State.settleStrand_sound {F : Fix} (s : State) (pcell : Nat) (slot : Nat) (t : Strand) (sent :
    Bool) (hs : s.Sound F) :
    (State.settleStrand s pcell slot t sent).Sound F := by
  unfold State.settleStrand
  (repeat' split) <;> simp_all (maxDischargeDepth := 40)

@[simp] theorem State.passFences_sound {F : Fix} (s : State) (p i n : Nat) (hs : s.Sound F) :
    (s.passFences p i n).Sound F := by
  induction n generalizing s with
  | zero => simpa [State.passFences]
  | succ k ih => simp only [State.passFences]; grind [optSound, sound_ok, sound_mk, ok_globB, ok_reg,
      State.trapStrand_sound, State.settleStrand_sound]

@[simp] theorem State.pass_sound {F : Fix} (s : State) (pcell : Nat) (slot : Nat) (hs : s.Sound F) :
    (State.pass s pcell slot).Sound F := by
  unfold State.pass
  (repeat' split) <;> simp_all (maxDischargeDepth := 40)

@[simp] theorem State.passAll_sound {F : Fix} (s : State) (pcell : Nat) (hs : s.Sound F) :
    (State.passAll s pcell).Sound F := by
  simp only [State.passAll]
  (repeat' first | split | (refine sound_foldl _ _ ?_ _ ?_ <;> intros)) <;> simp_all (maxDischargeDepth := 40)

@[simp] theorem State.completeInstr_sound {F : Fix} (s : State) (pcell : Nat) (slot : Nat) (t : Strand) (sent :
    Bool) (hs : s.Sound F) :
    (State.completeInstr s pcell slot t sent).Sound F := by
  unfold State.completeInstr
  (repeat' split) <;> simp_all (maxDischargeDepth := 40)

@[simp] theorem State.takeFiring_sound {F : Fix} (s : State) (pcell : Nat) (st : Start) (hs : s.Sound F) :
    (State.takeFiring s pcell st).Sound F := by
  simp only [State.takeFiring]
  (repeat' split) <;> simp_all (maxDischargeDepth := 40)

@[simp] theorem State.loadFiring_sound {F : Fix} (s : State) (pcell : Nat) (slot : Nat) (a : Activation) (hs :
    s.Sound F) :
    (State.loadFiring s pcell slot a).Sound F := by
  simp only [State.loadFiring]
  (repeat' split) <;> simp_all (maxDischargeDepth := 40)

theorem execStrandStart_sound {F : Fix} (pcell : Nat) (s : State) (hs : s.Sound F) :
    outSound F (execStrandStart pcell s) := by
  unfold execStrandStart
  (repeat' split) <;> simp_all (maxDischargeDepth := 40)

theorem execPreemption_sound {F : Fix} (pcell : Nat) (s : State) (hs : s.Sound F) :
    outSound F (execPreemption pcell s) := by
  have put : ∀ (v : Cell → Cell) (st : Start) (slot : Nat) (a : Activation),
      (((s.modCell pcell v).takeFiring pcell st).loadFiring pcell slot a).Sound F := fun v st slot a =>
    State.loadFiring_sound _ _ _ _ (State.takeFiring_sound _ _ _ (State.modCell_sound _ _ _ hs))
  unfold execPreemption
  apply outSound_unitOk hs
  dsimp only
  repeat' first | exact hs | apply put | split

theorem execStrandResume_sound {F : Fix} (pcell : Nat) (s : State) (hs : s.Sound F) :
    outSound F (execStrandResume pcell s) := by
  simp only [execStrandResume]
  (repeat' split) <;> simp_all (maxDischargeDepth := 40)

/-! ### Operands -/

@[simp] theorem State.noteGlobal_sound {F : Fix} (s : State) (pcell : Nat) (t : Strand) (r : Nat) (hs : s.Sound F) :
    (State.noteGlobal s pcell t r).Sound F := by
  unfold State.noteGlobal
  (repeat' split) <;> simp_all (maxDischargeDepth := 40)

@[simp] theorem State.writeReg_sound {F : Fix} (s : State) (pcell : Nat) (t : Strand) (r : Nat) (v : Word) (hs :
    s.Sound F) :
    (State.writeReg s pcell t r v).1.Sound F := by
  unfold State.writeReg
  (repeat' split) <;> simp_all (maxDischargeDepth := 40)

@[simp] theorem Ctx.trap_sound {F : Fix} (x : Ctx) (cause : TrapCause) (info : Word) (write : Bool := false) (code
    : Nat := 0) (hx : x.s.Sound F) :
    (Ctx.trap x cause info write code).Sound F := by
  unfold Ctx.trap
  (repeat' split) <;> simp_all (maxDischargeDepth := 40)

@[simp] theorem Ctx.next_sound {F : Fix} (x : Ctx) (hx : x.s.Sound F) :
    (Ctx.next x).Sound F := by
  unfold Ctx.next
  (repeat' split) <;> simp_all (maxDischargeDepth := 40)

@[simp] theorem Ctx.jump_sound {F : Fix} (x : Ctx) (a : BitVec 14) (hx : x.s.Sound F) :
    (Ctx.jump x a).Sound F := by
  unfold Ctx.jump
  (repeat' split) <;> simp_all (maxDischargeDepth := 40)

@[simp] theorem Ctx.write_sound {F : Fix} (x : Ctx) (v : Word) (hx : x.s.Sound F) :
    (Ctx.write x v).Sound F := by
  simp only [Ctx.write]
  (repeat' split) <;> simp_all (maxDischargeDepth := 40)

@[simp] theorem State.hasIssued_sound {F : Fix} (pcell : Nat) (slot : Nat) (s : State) (hs : s.Sound F) :
    (State.hasIssued pcell slot s).Sound F := by
  unfold State.hasIssued
  (repeat' split) <;> simp_all (maxDischargeDepth := 40)

@[simp] theorem State.issue_sound {F : Fix} (s : State) (pcell : Nat) (slot : Nat) (op : Opc) (effect : Ctx → State) (hs : s.Sound F) (heffect : ∀ (y0 : Ctx), y0.s.Sound F → (effect y0).Sound F) :
    outSound F (State.issue s pcell slot op effect) := by
  simp only [State.issue]
  (repeat' split) <;> simp_all (maxDischargeDepth := 40)

theorem execUndefinedEncoding_sound {F : Fix} (pcell : Nat) (slot : Nat) (s : State) (hs : s.Sound F) :
    outSound F (execUndefinedEncoding pcell slot s) := by
  simp only [execUndefinedEncoding]
  (repeat' split) <;> simp_all (maxDischargeDepth := 40)

@[simp] theorem State.wakeStrand_sound {F : Fix} (s : State) (pcell : Nat) (t : Strand) (sent : Bool) (hs : s.Sound F) :
    (State.wakeStrand s pcell t sent).Sound F := by
  simp only [State.wakeStrand]
  (repeat' split) <;> simp_all (maxDischargeDepth := 40)

theorem execDivideComplete_sound {F : Fix} (pcell : Nat) (slot : Nat) (s : State) (hs : s.Sound F) :
    outSound F (execDivideComplete pcell slot s) := by
  unfold execDivideComplete
  (repeat' split) <;> simp_all (maxDischargeDepth := 40)

/-! ### JitMem -/

@[simp] theorem State.putLoaded_sound {F : Fix} (s : State) (pcell : Nat) (t : Strand) (rd : Nat) (size : Nat)
    (signed : Bool) (v : Nat) (hs : s.Sound F) :
    (State.putLoaded s pcell t rd size signed v).1.Sound F := by
  simp only [State.putLoaded]
  (repeat' split) <;> simp_all (maxDischargeDepth := 40)

@[simp] theorem Ctx.block_sound {F : Fix} (x : Ctx) (hx : x.s.Sound F) :
    (Ctx.block x).Sound F := by
  unfold Ctx.block
  (repeat' split) <;> simp_all (maxDischargeDepth := 40)

@[simp] theorem Ctx.request_sound {F : Fix} (x : Ctx) (l : Located) (op : Byte) (data : BitVec 64) (waits : List
    WaitRec) (what : Pending) (hx : x.s.Sound F) :
    (Ctx.request x l op data waits what).Sound F := by
  simp only [Ctx.request]
  (repeat' split) <;> simp_all (maxDischargeDepth := 40)

@[simp] theorem Ctx.load_sound {F : Fix} (x : Ctx) (size : Nat) (signed : Bool) (hx : x.s.Sound F) :
    (Ctx.load x size signed).Sound F := by
  simp only [Ctx.load]
  (repeat' split) <;> simp_all (maxDischargeDepth := 40)

@[simp] theorem Ctx.store_sound {F : Fix} (x : Ctx) (size : Nat) (hx : x.s.Sound F) :
    (Ctx.store x size).Sound F := by
  simp only [Ctx.store]
  (repeat' split) <;> simp_all (maxDischargeDepth := 40)

@[simp] theorem Ctx.lockOp_sound {F : Fix} (x : Ctx) (wait : Bool) (hx : x.s.Sound F) :
    (Ctx.lockOp x wait).Sound F := by
  simp only [Ctx.lockOp]
  (repeat' split) <;> simp_all (maxDischargeDepth := 40)

@[simp] theorem Ctx.writeParcels_sound {F : Fix} (x : Ctx) (wide : Bool) (head : Bool) (hx : x.s.Sound F) :
    (Ctx.writeParcels x wide head).Sound F := by
  unfold Ctx.writeParcels
  (repeat' split) <;> simp_all (maxDischargeDepth := 40)

@[simp] theorem Ctx.sendTo_sound {F : Fix} (x : Ctx) (dest : BitVec 5 × BitVec 4) (vc : Vc) (m : Msg) (hx :
    x.s.Sound F) :
    (Ctx.sendTo x dest vc m).Sound F := by
  unfold Ctx.sendTo
  (repeat' split) <;> simp_all (maxDischargeDepth := 40)

@[simp] theorem Ctx.sendToken_sound {F : Fix} (x : Ctx) (t : Token) (hx : x.s.Sound F) :
    (Ctx.sendToken x t).Sound F := by
  unfold Ctx.sendToken
  (repeat' split) <;> simp_all (maxDischargeDepth := 40)

@[simp] theorem Ctx.sendOwn_sound {F : Fix} (x : Ctx) (addr : BitVec 14) (ordered : Bool) (hx : x.s.Sound F) :
    (Ctx.sendOwn x addr ordered).Sound F := by
  unfold Ctx.sendOwn
  (repeat' split) <;> simp_all (maxDischargeDepth := 40)

theorem execLdw_sound {F : Fix} (pcell : Nat) (slot : Nat) (s : State) (hs : s.Sound F) :
    outSound F (execLdw pcell slot s) := by
  unfold execLdw
  (repeat' split) <;> simp_all (maxDischargeDepth := 40)

theorem execLdh_sound {F : Fix} (pcell : Nat) (slot : Nat) (s : State) (hs : s.Sound F) :
    outSound F (execLdh pcell slot s) := by
  unfold execLdh
  (repeat' split) <;> simp_all (maxDischargeDepth := 40)

theorem execLdhu_sound {F : Fix} (pcell : Nat) (slot : Nat) (s : State) (hs : s.Sound F) :
    outSound F (execLdhu pcell slot s) := by
  unfold execLdhu
  (repeat' split) <;> simp_all (maxDischargeDepth := 40)

theorem execLdb_sound {F : Fix} (pcell : Nat) (slot : Nat) (s : State) (hs : s.Sound F) :
    outSound F (execLdb pcell slot s) := by
  unfold execLdb
  (repeat' split) <;> simp_all (maxDischargeDepth := 40)

theorem execLdbu_sound {F : Fix} (pcell : Nat) (slot : Nat) (s : State) (hs : s.Sound F) :
    outSound F (execLdbu pcell slot s) := by
  unfold execLdbu
  (repeat' split) <;> simp_all (maxDischargeDepth := 40)

theorem execLdd_sound {F : Fix} (pcell : Nat) (slot : Nat) (s : State) (hs : s.Sound F) :
    outSound F (execLdd pcell slot s) := by
  unfold execLdd
  (repeat' split) <;> simp_all (maxDischargeDepth := 40)

theorem execStw_sound {F : Fix} (pcell : Nat) (slot : Nat) (s : State) (hs : s.Sound F) :
    outSound F (execStw pcell slot s) := by
  unfold execStw
  (repeat' split) <;> simp_all (maxDischargeDepth := 40)

theorem execSth_sound {F : Fix} (pcell : Nat) (slot : Nat) (s : State) (hs : s.Sound F) :
    outSound F (execSth pcell slot s) := by
  unfold execSth
  (repeat' split) <;> simp_all (maxDischargeDepth := 40)

theorem execStb_sound {F : Fix} (pcell : Nat) (slot : Nat) (s : State) (hs : s.Sound F) :
    outSound F (execStb pcell slot s) := by
  unfold execStb
  (repeat' split) <;> simp_all (maxDischargeDepth := 40)

theorem execStd_sound {F : Fix} (pcell : Nat) (slot : Nat) (s : State) (hs : s.Sound F) :
    outSound F (execStd pcell slot s) := by
  unfold execStd
  (repeat' split) <;> simp_all (maxDischargeDepth := 40)

theorem execSwp_sound {F : Fix} (pcell : Nat) (slot : Nat) (s : State) (hs : s.Sound F) :
    outSound F (execSwp pcell slot s) := by
  unfold execSwp
  grind [sound_foldl, optSound, outSound, sound_ok, sound_mk,
    outSound_unitOk, ok_reg, ok_glob, ok_dram, ok_mram, State.issue_sound, Ctx.trap_sound, State.modCell_sound,
        Ctx.write_sound, Ctx.request_sound]

theorem execLck_sound {F : Fix} (pcell : Nat) (slot : Nat) (s : State) (hs : s.Sound F) :
    outSound F (execLck pcell slot s) := by
  unfold execLck
  (repeat' split) <;> simp_all (maxDischargeDepth := 40)

theorem execTlck_sound {F : Fix} (pcell : Nat) (slot : Nat) (s : State) (hs : s.Sound F) :
    outSound F (execTlck pcell slot s) := by
  unfold execTlck
  (repeat' split) <;> simp_all (maxDischargeDepth := 40)

theorem execUnl_sound {F : Fix} (pcell : Nat) (slot : Nat) (s : State) (hs : s.Sound F) :
    outSound F (execUnl pcell slot s) := by
  unfold execUnl
  grind [sound_foldl, optSound, outSound, sound_ok, sound_mk,
    outSound_unitOk, ok_reg, ok_glob, ok_dram, ok_mram, State.issue_sound, Ctx.trap_sound, Ctx.request_sound]

theorem execSti_sound {F : Fix} (pcell : Nat) (slot : Nat) (s : State) (hs : s.Sound F) :
    outSound F (execSti pcell slot s) := by
  unfold execSti
  (repeat' split) <;> simp_all (maxDischargeDepth := 40)

theorem execStiH_sound {F : Fix} (pcell : Nat) (slot : Nat) (s : State) (hs : s.Sound F) :
    outSound F (execStiH pcell slot s) := by
  unfold execStiH
  (repeat' split) <;> simp_all (maxDischargeDepth := 40)

theorem execStiW_sound {F : Fix} (pcell : Nat) (slot : Nat) (s : State) (hs : s.Sound F) :
    outSound F (execStiW pcell slot s) := by
  unfold execStiW
  (repeat' split) <;> simp_all (maxDischargeDepth := 40)

theorem execStiWh_sound {F : Fix} (pcell : Nat) (slot : Nat) (s : State) (hs : s.Sound F) :
    outSound F (execStiWh pcell slot s) := by
  unfold execStiWh
  (repeat' split) <;> simp_all (maxDischargeDepth := 40)

theorem execSend_sound {F : Fix} (pcell : Nat) (slot : Nat) (s : State) (hs : s.Sound F) :
    outSound F (execSend pcell slot s) := by
  unfold execSend
  (repeat' split) <;> simp_all (maxDischargeDepth := 40)

theorem execSendS_sound {F : Fix} (pcell : Nat) (slot : Nat) (s : State) (hs : s.Sound F) :
    outSound F (execSendS pcell slot s) := by
  unfold execSendS
  (repeat' split) <;> simp_all (maxDischargeDepth := 40)

theorem execSendc_sound {F : Fix} (pcell : Nat) (slot : Nat) (s : State) (hs : s.Sound F) :
    outSound F (execSendc pcell slot s) := by
  unfold execSendc
  (repeat' split) <;> simp_all (maxDischargeDepth := 40)

theorem execSendcn_sound {F : Fix} (pcell : Nat) (slot : Nat) (s : State) (hs : s.Sound F) :
    outSound F (execSendcn pcell slot s) := by
  unfold execSendcn
  (repeat' split) <;> simp_all (maxDischargeDepth := 40)

theorem execSendx_sound {F : Fix} (pcell : Nat) (slot : Nat) (s : State) (hs : s.Sound F) :
    outSound F (execSendx pcell slot s) := by
  unfold execSendx
  (repeat' split) <;> simp_all (maxDischargeDepth := 40)

theorem execSendt_sound {F : Fix} (pcell : Nat) (slot : Nat) (s : State) (hs : s.Sound F) :
    outSound F (execSendt pcell slot s) := by
  unfold execSendt
  (repeat' split) <;> simp_all (maxDischargeDepth := 40)

theorem execEvs_sound {F : Fix} (pcell : Nat) (slot : Nat) (s : State) (hs : s.Sound F) :
    outSound F (execEvs pcell slot s) := by
  unfold execEvs
  (repeat' split) <;> simp_all (maxDischargeDepth := 40)

theorem execIter_sound {F : Fix} (pcell : Nat) (slot : Nat) (s : State) (hs : s.Sound F) :
    outSound F (execIter pcell slot s) := by
  unfold execIter
  grind [sound_foldl, optSound, outSound, sound_ok, sound_mk,
    outSound_unitOk, ok_reg, ok_glob, ok_dram, ok_mram, State.issue_sound, Ctx.trap_sound, State.modCell_sound,
    State.frameCheck_sound, State.dropStrand_sound]

@[simp] theorem State.answerTrap_sound {F : Fix} (s : State) (pcell : Nat) (t : Strand) (ea : Word) (write : Bool)
    (hs : s.Sound F) :
    (State.answerTrap s pcell t ea write).Sound F := by
  unfold State.answerTrap
  (repeat' split) <;> simp_all (maxDischargeDepth := 40)

@[simp] theorem State.answerWrite_sound {F : Fix} (s : State) (pcell : Nat) (t : Strand) (rd : Nat) (v : Word) (hs
    : s.Sound F) :
    (State.answerWrite s pcell t rd v).Sound F := by
  simp only [State.answerWrite]
  (repeat' split) <;> simp_all (maxDischargeDepth := 40)

@[simp] theorem State.passLock_sound {F : Fix} (s : State) (pcell : Nat) (flow : BitVec 12) (ea : Word) (hs : s.Sound F) :
    (State.passLock s pcell flow ea).Sound F := by
  unfold State.passLock
  (repeat' split) <;> simp_all (maxDischargeDepth := 40)

@[simp] theorem State.lockAnswer_sound {F : Fix} (s : State) (pcell : Nat) (t? : Option Strand) (rd : Nat) (w : Option Nat) (flow : BitVec 12) (ea : Word) (status : Nat) (hs : s.Sound F) :
    (State.lockAnswer s pcell t? rd w flow ea status).Sound F := by
  unfold State.lockAnswer
  (repeat' split) <;> simp_all (maxDischargeDepth := 40)

@[simp] theorem State.takeAnswer_sound {F : Fix} (s : State) (pcell : Nat) (o : Outstanding) (r : Response) (hs :
    s.Sound F) :
    (State.takeAnswer s pcell o r).Sound F := by
  simp only [State.takeAnswer]
  (repeat' split) <;> simp_all (maxDischargeDepth := 40)

theorem execResponseArrival_sound {F : Fix} (pcell : Nat) (s : State) (hs : s.Sound F) :
    outSound F (execResponseArrival pcell s) := by
  simp only [execResponseArrival]
  (repeat' split) <;> simp_all (maxDischargeDepth := 40)

theorem execLockGrant_sound {F : Fix} (pcell : Nat) (s : State) (hs : s.Sound F) :
    outSound F (execLockGrant pcell s) := by
  simp only [execLockGrant]
  (repeat' split) <;> simp_all (maxDischargeDepth := 40)

theorem execIterGrantMessage_sound {F : Fix} (pcell : Nat) (s : State) (hs : s.Sound F) :
    outSound F (execIterGrantMessage pcell s) := by
  simp only [execIterGrantMessage]
  (repeat' split) <;> simp_all (maxDischargeDepth := 40)

theorem execBoostApply_sound {F : Fix} (pcell : Nat) (s : State) (hs : s.Sound F) :
    outSound F (execBoostApply pcell s) := by
  unfold execBoostApply
  grind [sound_foldl, optSound, outSound, sound_ok, sound_mk, outSound_unitOk, ok_reg, ok_glob, ok_dram, ok_mram, State.modCell_sound, State.house_sound]

theorem execPairAck_sound {F : Fix} (pcell : Nat) (s : State) (hs : s.Sound F) :
    outSound F (execPairAck pcell s) := by
  unfold execPairAck
  (repeat' split) <;> simp_all (maxDischargeDepth := 40)

/-! ### Jithar -/

@[simp] theorem Ctx.multiply_sound {F : Fix} (x : Ctx) (v : BitVec 64) (hx : x.s.Sound F) :
    (Ctx.multiply x v).Sound F := by
  unfold Ctx.multiply
  (repeat' split) <;> simp_all (maxDischargeDepth := 40)

@[simp] theorem Ctx.divide_sound {F : Fix} (x : Ctx) (qr : Word × Word) (hx : x.s.Sound F) :
    (Ctx.divide x qr).Sound F := by
  unfold Ctx.divide
  (repeat' split) <;> simp_all (maxDischargeDepth := 40)

@[simp] theorem Ctx.branch_sound {F : Fix} (x : Ctx) (taken : Bool) (hx : x.s.Sound F) :
    (Ctx.branch x taken).Sound F := by
  unfold Ctx.branch
  (repeat' split) <;> simp_all (maxDischargeDepth := 40)

@[simp] theorem Ctx.toRegister_sound {F : Fix} (x : Ctx) (go : BitVec 14 → State) (hx : x.s.Sound F) (hgo : ∀ (y0 :
    BitVec 14), (go y0).Sound F) :
    (Ctx.toRegister x go).Sound F := by
  unfold Ctx.toRegister
  (repeat' split) <;> simp_all (maxDischargeDepth := 40)

@[simp] theorem Ctx.callTo_sound {F : Fix} (x : Ctx) (target : BitVec 14) (hx : x.s.Sound F) :
    (Ctx.callTo x target).Sound F := by
  unfold Ctx.callTo
  (repeat' split) <;> simp_all (maxDischargeDepth := 40)

@[simp] theorem Ctx.endActivation_sound {F : Fix} (x : Ctx) (hx : x.s.Sound F) :
    (Ctx.endActivation x).Sound F := by
  simp only [Ctx.endActivation]
  (repeat' split) <;> simp_all (maxDischargeDepth := 40)

@[simp] theorem Ctx.startRepeat_sound {F : Fix} (x : Ctx) (uninterrupted : Bool) (hx : x.s.Sound F) :
    (Ctx.startRepeat x uninterrupted).Sound F := by
  unfold Ctx.startRepeat
  (repeat' split) <;> simp_all (maxDischargeDepth := 40)

theorem execAdd_sound {F : Fix} (pcell : Nat) (slot : Nat) (s : State) (hs : s.Sound F) :
    outSound F (execAdd pcell slot s) := by
  unfold execAdd
  (repeat' split) <;> simp_all (maxDischargeDepth := 40)

theorem execSub_sound {F : Fix} (pcell : Nat) (slot : Nat) (s : State) (hs : s.Sound F) :
    outSound F (execSub pcell slot s) := by
  unfold execSub
  (repeat' split) <;> simp_all (maxDischargeDepth := 40)

theorem execAddi_sound {F : Fix} (pcell : Nat) (slot : Nat) (s : State) (hs : s.Sound F) :
    outSound F (execAddi pcell slot s) := by
  unfold execAddi
  (repeat' split) <;> simp_all (maxDischargeDepth := 40)

theorem execAdds_sound {F : Fix} (pcell : Nat) (slot : Nat) (s : State) (hs : s.Sound F) :
    outSound F (execAdds pcell slot s) := by
  unfold execAdds
  (repeat' split) <;> simp_all (maxDischargeDepth := 40)

theorem execSubs_sound {F : Fix} (pcell : Nat) (slot : Nat) (s : State) (hs : s.Sound F) :
    outSound F (execSubs pcell slot s) := by
  unfold execSubs
  (repeat' split) <;> simp_all (maxDischargeDepth := 40)

theorem execAnd_sound {F : Fix} (pcell : Nat) (slot : Nat) (s : State) (hs : s.Sound F) :
    outSound F (execAnd pcell slot s) := by
  unfold execAnd
  (repeat' split) <;> simp_all (maxDischargeDepth := 40)

theorem execOr_sound {F : Fix} (pcell : Nat) (slot : Nat) (s : State) (hs : s.Sound F) :
    outSound F (execOr pcell slot s) := by
  unfold execOr
  (repeat' split) <;> simp_all (maxDischargeDepth := 40)

theorem execXor_sound {F : Fix} (pcell : Nat) (slot : Nat) (s : State) (hs : s.Sound F) :
    outSound F (execXor pcell slot s) := by
  unfold execXor
  (repeat' split) <;> simp_all (maxDischargeDepth := 40)

theorem execAndi_sound {F : Fix} (pcell : Nat) (slot : Nat) (s : State) (hs : s.Sound F) :
    outSound F (execAndi pcell slot s) := by
  unfold execAndi
  (repeat' split) <;> simp_all (maxDischargeDepth := 40)

theorem execOri_sound {F : Fix} (pcell : Nat) (slot : Nat) (s : State) (hs : s.Sound F) :
    outSound F (execOri pcell slot s) := by
  unfold execOri
  (repeat' split) <;> simp_all (maxDischargeDepth := 40)

theorem execXori_sound {F : Fix} (pcell : Nat) (slot : Nat) (s : State) (hs : s.Sound F) :
    outSound F (execXori pcell slot s) := by
  unfold execXori
  (repeat' split) <;> simp_all (maxDischargeDepth := 40)

theorem execNot_sound {F : Fix} (pcell : Nat) (slot : Nat) (s : State) (hs : s.Sound F) :
    outSound F (execNot pcell slot s) := by
  unfold execNot
  (repeat' split) <;> simp_all (maxDischargeDepth := 40)

theorem execShl_sound {F : Fix} (pcell : Nat) (slot : Nat) (s : State) (hs : s.Sound F) :
    outSound F (execShl pcell slot s) := by
  unfold execShl
  (repeat' split) <;> simp_all (maxDischargeDepth := 40)

theorem execShr_sound {F : Fix} (pcell : Nat) (slot : Nat) (s : State) (hs : s.Sound F) :
    outSound F (execShr pcell slot s) := by
  unfold execShr
  (repeat' split) <;> simp_all (maxDischargeDepth := 40)

theorem execSar_sound {F : Fix} (pcell : Nat) (slot : Nat) (s : State) (hs : s.Sound F) :
    outSound F (execSar pcell slot s) := by
  unfold execSar
  (repeat' split) <;> simp_all (maxDischargeDepth := 40)

theorem execShli_sound {F : Fix} (pcell : Nat) (slot : Nat) (s : State) (hs : s.Sound F) :
    outSound F (execShli pcell slot s) := by
  unfold execShli
  (repeat' split) <;> simp_all (maxDischargeDepth := 40)

theorem execShri_sound {F : Fix} (pcell : Nat) (slot : Nat) (s : State) (hs : s.Sound F) :
    outSound F (execShri pcell slot s) := by
  unfold execShri
  (repeat' split) <;> simp_all (maxDischargeDepth := 40)

theorem execSari_sound {F : Fix} (pcell : Nat) (slot : Nat) (s : State) (hs : s.Sound F) :
    outSound F (execSari pcell slot s) := by
  unfold execSari
  (repeat' split) <;> simp_all (maxDischargeDepth := 40)

theorem execRol_sound {F : Fix} (pcell : Nat) (slot : Nat) (s : State) (hs : s.Sound F) :
    outSound F (execRol pcell slot s) := by
  unfold execRol
  (repeat' split) <;> simp_all (maxDischargeDepth := 40)

theorem execRor_sound {F : Fix} (pcell : Nat) (slot : Nat) (s : State) (hs : s.Sound F) :
    outSound F (execRor pcell slot s) := by
  unfold execRor
  (repeat' split) <;> simp_all (maxDischargeDepth := 40)

theorem execSlt_sound {F : Fix} (pcell : Nat) (slot : Nat) (s : State) (hs : s.Sound F) :
    outSound F (execSlt pcell slot s) := by
  unfold execSlt
  (repeat' split) <;> simp_all (maxDischargeDepth := 40)

theorem execSltu_sound {F : Fix} (pcell : Nat) (slot : Nat) (s : State) (hs : s.Sound F) :
    outSound F (execSltu pcell slot s) := by
  unfold execSltu
  (repeat' split) <;> simp_all (maxDischargeDepth := 40)

theorem execSlti_sound {F : Fix} (pcell : Nat) (slot : Nat) (s : State) (hs : s.Sound F) :
    outSound F (execSlti pcell slot s) := by
  unfold execSlti
  (repeat' split) <;> simp_all (maxDischargeDepth := 40)

theorem execMin_sound {F : Fix} (pcell : Nat) (slot : Nat) (s : State) (hs : s.Sound F) :
    outSound F (execMin pcell slot s) := by
  unfold execMin
  (repeat' split) <;> simp_all (maxDischargeDepth := 40)

theorem execMax_sound {F : Fix} (pcell : Nat) (slot : Nat) (s : State) (hs : s.Sound F) :
    outSound F (execMax pcell slot s) := by
  unfold execMax
  (repeat' split) <;> simp_all (maxDischargeDepth := 40)

theorem execMinu_sound {F : Fix} (pcell : Nat) (slot : Nat) (s : State) (hs : s.Sound F) :
    outSound F (execMinu pcell slot s) := by
  unfold execMinu
  (repeat' split) <;> simp_all (maxDischargeDepth := 40)

theorem execMaxu_sound {F : Fix} (pcell : Nat) (slot : Nat) (s : State) (hs : s.Sound F) :
    outSound F (execMaxu pcell slot s) := by
  unfold execMaxu
  (repeat' split) <;> simp_all (maxDischargeDepth := 40)

theorem execAbs_sound {F : Fix} (pcell : Nat) (slot : Nat) (s : State) (hs : s.Sound F) :
    outSound F (execAbs pcell slot s) := by
  unfold execAbs
  (repeat' split) <;> simp_all (maxDischargeDepth := 40)

theorem execAbss_sound {F : Fix} (pcell : Nat) (slot : Nat) (s : State) (hs : s.Sound F) :
    outSound F (execAbss pcell slot s) := by
  unfold execAbss
  (repeat' split) <;> simp_all (maxDischargeDepth := 40)

theorem execNeg_sound {F : Fix} (pcell : Nat) (slot : Nat) (s : State) (hs : s.Sound F) :
    outSound F (execNeg pcell slot s) := by
  unfold execNeg
  (repeat' split) <;> simp_all (maxDischargeDepth := 40)

theorem execClz_sound {F : Fix} (pcell : Nat) (slot : Nat) (s : State) (hs : s.Sound F) :
    outSound F (execClz pcell slot s) := by
  unfold execClz
  (repeat' split) <;> simp_all (maxDischargeDepth := 40)

theorem execMov_sound {F : Fix} (pcell : Nat) (slot : Nat) (s : State) (hs : s.Sound F) :
    outSound F (execMov pcell slot s) := by
  unfold execMov
  (repeat' split) <;> simp_all (maxDischargeDepth := 40)

theorem execSextb_sound {F : Fix} (pcell : Nat) (slot : Nat) (s : State) (hs : s.Sound F) :
    outSound F (execSextb pcell slot s) := by
  unfold execSextb
  (repeat' split) <;> simp_all (maxDischargeDepth := 40)

theorem execSexth_sound {F : Fix} (pcell : Nat) (slot : Nat) (s : State) (hs : s.Sound F) :
    outSound F (execSexth pcell slot s) := by
  unfold execSexth
  (repeat' split) <;> simp_all (maxDischargeDepth := 40)

theorem execZextb_sound {F : Fix} (pcell : Nat) (slot : Nat) (s : State) (hs : s.Sound F) :
    outSound F (execZextb pcell slot s) := by
  unfold execZextb
  (repeat' split) <;> simp_all (maxDischargeDepth := 40)

theorem execZexth_sound {F : Fix} (pcell : Nat) (slot : Nat) (s : State) (hs : s.Sound F) :
    outSound F (execZexth pcell slot s) := by
  unfold execZexth
  (repeat' split) <;> simp_all (maxDischargeDepth := 40)

theorem execMovi_sound {F : Fix} (pcell : Nat) (slot : Nat) (s : State) (hs : s.Sound F) :
    outSound F (execMovi pcell slot s) := by
  unfold execMovi
  (repeat' split) <;> simp_all (maxDischargeDepth := 40)

theorem execMovhi_sound {F : Fix} (pcell : Nat) (slot : Nat) (s : State) (hs : s.Sound F) :
    outSound F (execMovhi pcell slot s) := by
  unfold execMovhi
  (repeat' split) <;> simp_all (maxDischargeDepth := 40)

theorem execMovS_sound {F : Fix} (pcell : Nat) (slot : Nat) (s : State) (hs : s.Sound F) :
    outSound F (execMovS pcell slot s) := by
  unfold execMovS
  (repeat' split) <;> simp_all (maxDischargeDepth := 40)

theorem execMoviS_sound {F : Fix} (pcell : Nat) (slot : Nat) (s : State) (hs : s.Sound F) :
    outSound F (execMoviS pcell slot s) := by
  unfold execMoviS
  (repeat' split) <;> simp_all (maxDischargeDepth := 40)

theorem execAddS_sound {F : Fix} (pcell : Nat) (slot : Nat) (s : State) (hs : s.Sound F) :
    outSound F (execAddS pcell slot s) := by
  unfold execAddS
  (repeat' split) <;> simp_all (maxDischargeDepth := 40)

theorem execSubS_sound {F : Fix} (pcell : Nat) (slot : Nat) (s : State) (hs : s.Sound F) :
    outSound F (execSubS pcell slot s) := by
  unfold execSubS
  (repeat' split) <;> simp_all (maxDischargeDepth := 40)

theorem execAddiS_sound {F : Fix} (pcell : Nat) (slot : Nat) (s : State) (hs : s.Sound F) :
    outSound F (execAddiS pcell slot s) := by
  unfold execAddiS
  (repeat' split) <;> simp_all (maxDischargeDepth := 40)

theorem execSubiS_sound {F : Fix} (pcell : Nat) (slot : Nat) (s : State) (hs : s.Sound F) :
    outSound F (execSubiS pcell slot s) := by
  unfold execSubiS
  (repeat' split) <;> simp_all (maxDischargeDepth := 40)

theorem execMul_sound {F : Fix} (pcell : Nat) (slot : Nat) (s : State) (hs : s.Sound F) :
    outSound F (execMul pcell slot s) := by
  unfold execMul
  (repeat' split) <;> simp_all (maxDischargeDepth := 40)

theorem execMulu_sound {F : Fix} (pcell : Nat) (slot : Nat) (s : State) (hs : s.Sound F) :
    outSound F (execMulu pcell slot s) := by
  unfold execMulu
  (repeat' split) <;> simp_all (maxDischargeDepth := 40)

theorem execMacc_sound {F : Fix} (pcell : Nat) (slot : Nat) (s : State) (hs : s.Sound F) :
    outSound F (execMacc pcell slot s) := by
  unfold execMacc
  (repeat' split) <;> simp_all (maxDischargeDepth := 40)

theorem execMaccs_sound {F : Fix} (pcell : Nat) (slot : Nat) (s : State) (hs : s.Sound F) :
    outSound F (execMaccs pcell slot s) := by
  unfold execMaccs
  (repeat' split) <;> simp_all (maxDischargeDepth := 40)

theorem execDiv_sound {F : Fix} (pcell : Nat) (slot : Nat) (s : State) (hs : s.Sound F) :
    outSound F (execDiv pcell slot s) := by
  unfold execDiv
  (repeat' split) <;> simp_all (maxDischargeDepth := 40)

theorem execDivu_sound {F : Fix} (pcell : Nat) (slot : Nat) (s : State) (hs : s.Sound F) :
    outSound F (execDivu pcell slot s) := by
  unfold execDivu
  (repeat' split) <;> simp_all (maxDischargeDepth := 40)

theorem execBeqzS_sound {F : Fix} (pcell : Nat) (slot : Nat) (s : State) (hs : s.Sound F) :
    outSound F (execBeqzS pcell slot s) := by
  unfold execBeqzS
  (repeat' split) <;> simp_all (maxDischargeDepth := 40)

theorem execBnezS_sound {F : Fix} (pcell : Nat) (slot : Nat) (s : State) (hs : s.Sound F) :
    outSound F (execBnezS pcell slot s) := by
  unfold execBnezS
  (repeat' split) <;> simp_all (maxDischargeDepth := 40)

theorem execBeq_sound {F : Fix} (pcell : Nat) (slot : Nat) (s : State) (hs : s.Sound F) :
    outSound F (execBeq pcell slot s) := by
  unfold execBeq
  (repeat' split) <;> simp_all (maxDischargeDepth := 40)

theorem execBne_sound {F : Fix} (pcell : Nat) (slot : Nat) (s : State) (hs : s.Sound F) :
    outSound F (execBne pcell slot s) := by
  unfold execBne
  (repeat' split) <;> simp_all (maxDischargeDepth := 40)

theorem execBlt_sound {F : Fix} (pcell : Nat) (slot : Nat) (s : State) (hs : s.Sound F) :
    outSound F (execBlt pcell slot s) := by
  unfold execBlt
  (repeat' split) <;> simp_all (maxDischargeDepth := 40)

theorem execBge_sound {F : Fix} (pcell : Nat) (slot : Nat) (s : State) (hs : s.Sound F) :
    outSound F (execBge pcell slot s) := by
  unfold execBge
  (repeat' split) <;> simp_all (maxDischargeDepth := 40)

theorem execBltu_sound {F : Fix} (pcell : Nat) (slot : Nat) (s : State) (hs : s.Sound F) :
    outSound F (execBltu pcell slot s) := by
  unfold execBltu
  (repeat' split) <;> simp_all (maxDischargeDepth := 40)

theorem execBgeu_sound {F : Fix} (pcell : Nat) (slot : Nat) (s : State) (hs : s.Sound F) :
    outSound F (execBgeu pcell slot s) := by
  unfold execBgeu
  (repeat' split) <;> simp_all (maxDischargeDepth := 40)

theorem execBeqz_sound {F : Fix} (pcell : Nat) (slot : Nat) (s : State) (hs : s.Sound F) :
    outSound F (execBeqz pcell slot s) := by
  unfold execBeqz
  (repeat' split) <;> simp_all (maxDischargeDepth := 40)

theorem execBnez_sound {F : Fix} (pcell : Nat) (slot : Nat) (s : State) (hs : s.Sound F) :
    outSound F (execBnez pcell slot s) := by
  unfold execBnez
  (repeat' split) <;> simp_all (maxDischargeDepth := 40)

theorem execBltz_sound {F : Fix} (pcell : Nat) (slot : Nat) (s : State) (hs : s.Sound F) :
    outSound F (execBltz pcell slot s) := by
  unfold execBltz
  (repeat' split) <;> simp_all (maxDischargeDepth := 40)

theorem execBgez_sound {F : Fix} (pcell : Nat) (slot : Nat) (s : State) (hs : s.Sound F) :
    outSound F (execBgez pcell slot s) := by
  unfold execBgez
  (repeat' split) <;> simp_all (maxDischargeDepth := 40)

theorem execBgtz_sound {F : Fix} (pcell : Nat) (slot : Nat) (s : State) (hs : s.Sound F) :
    outSound F (execBgtz pcell slot s) := by
  unfold execBgtz
  (repeat' split) <;> simp_all (maxDischargeDepth := 40)

theorem execBlez_sound {F : Fix} (pcell : Nat) (slot : Nat) (s : State) (hs : s.Sound F) :
    outSound F (execBlez pcell slot s) := by
  unfold execBlez
  (repeat' split) <;> simp_all (maxDischargeDepth := 40)

theorem execJ_sound {F : Fix} (pcell : Nat) (slot : Nat) (s : State) (hs : s.Sound F) :
    outSound F (execJ pcell slot s) := by
  unfold execJ
  (repeat' split) <;> simp_all (maxDischargeDepth := 40)

theorem execJr_sound {F : Fix} (pcell : Nat) (slot : Nat) (s : State) (hs : s.Sound F) :
    outSound F (execJr pcell slot s) := by
  unfold execJr
  (repeat' split) <;> simp_all (maxDischargeDepth := 40)

theorem execCall_sound {F : Fix} (pcell : Nat) (slot : Nat) (s : State) (hs : s.Sound F) :
    outSound F (execCall pcell slot s) := by
  unfold execCall
  (repeat' split) <;> simp_all (maxDischargeDepth := 40)

theorem execCallr_sound {F : Fix} (pcell : Nat) (slot : Nat) (s : State) (hs : s.Sound F) :
    outSound F (execCallr pcell slot s) := by
  unfold execCallr
  (repeat' split) <;> simp_all (maxDischargeDepth := 40)

theorem execRet_sound {F : Fix} (pcell : Nat) (slot : Nat) (s : State) (hs : s.Sound F) :
    outSound F (execRet pcell slot s) := by
  unfold execRet
  (repeat' split) <;> simp_all (maxDischargeDepth := 40)

theorem execNop_sound {F : Fix} (pcell : Nat) (slot : Nat) (s : State) (hs : s.Sound F) :
    outSound F (execNop pcell slot s) := by
  unfold execNop
  (repeat' split) <;> simp_all (maxDischargeDepth := 40)

theorem execEndStrand_sound {F : Fix} (pcell : Nat) (slot : Nat) (s : State) (hs : s.Sound F) :
    outSound F (execEndStrand pcell slot s) := by
  unfold execEndStrand
  (repeat' split) <;> simp_all (maxDischargeDepth := 40)

theorem execEndr_sound {F : Fix} (pcell : Nat) (slot : Nat) (s : State) (hs : s.Sound F) :
    outSound F (execEndr pcell slot s) := by
  unfold execEndr
  (repeat' split) <;> simp_all (maxDischargeDepth := 40)

theorem execBrk_sound {F : Fix} (pcell : Nat) (slot : Nat) (s : State) (hs : s.Sound F) :
    outSound F (execBrk pcell slot s) := by
  unfold execBrk
  (repeat' split) <;> simp_all (maxDischargeDepth := 40)

theorem execFencei_sound {F : Fix} (pcell : Nat) (slot : Nat) (s : State) (hs : s.Sound F) :
    outSound F (execFencei pcell slot s) := by
  unfold execFencei
  (repeat' split) <;> simp_all (maxDischargeDepth := 40)

theorem execTrap_sound {F : Fix} (pcell : Nat) (slot : Nat) (s : State) (hs : s.Sound F) :
    outSound F (execTrap pcell slot s) := by
  unfold execTrap
  (repeat' split) <;> simp_all (maxDischargeDepth := 40)

theorem execRep_sound {F : Fix} (pcell : Nat) (slot : Nat) (s : State) (hs : s.Sound F) :
    outSound F (execRep pcell slot s) := by
  unfold execRep
  (repeat' split) <;> simp_all (maxDischargeDepth := 40)

theorem execRepu_sound {F : Fix} (pcell : Nat) (slot : Nat) (s : State) (hs : s.Sound F) :
    outSound F (execRepu pcell slot s) := by
  unfold execRepu
  (repeat' split) <;> simp_all (maxDischargeDepth := 40)

end Sys2Proof.Machine
end

