-- ==== Sys2Proof/Laws/SoundFlow.lean ====
section
/-! SUPPORT. Soundness (SoundBase): what the dispatcher, the spill engine, the banks and the sequencer keep. One lemma per operation. -/

set_option linter.all false

namespace Sys2Proof.Machine

/-! ### Flow -/

@[simp] theorem State.globWrite_sound {F : Fix} (s : State) (a : Nat) (bs : List Byte) (hs : s.Sound F) :
    (State.globWrite s a bs).Sound F := by
  unfold State.globWrite
  (repeat' split) <;> simp_all (maxDischargeDepth := 40)

@[simp] theorem State.setFlowW_sound {F : Fix} (s : State) (f : Nat) (w : Nat) (v : Word) (hs : s.Sound F) :
    (State.setFlowW s f w v).Sound F := by
  unfold State.setFlowW
  (repeat' split) <;> simp_all (maxDischargeDepth := 40)

@[simp] theorem State.setFlowF_sound {F : Fix} (s : State) (f : Nat) (w : Nat) (hi : Nat) (lo : Nat) (x : Nat) (hs
    : s.Sound F) :
    (State.setFlowF s f w hi lo x).Sound F := by
  unfold State.setFlowF
  (repeat' split) <;> simp_all (maxDischargeDepth := 40)

@[simp] theorem State.dspCount_sound {F : Fix} (s : State) (k : Nat) (hs : s.Sound F) :
    (State.dspCount s k).Sound F := by
  unfold State.dspCount
  (repeat' split) <;> simp_all (maxDischargeDepth := 40)

@[simp] theorem State.putTrace_sound {F : Fix} (s : State) (rec_ : Nat) (kind : Byte) (hs : s.Sound F) :
    (State.putTrace s rec_ kind).1.Sound F := by
  simp only [State.putTrace]
  (repeat' split) <;> simp_all (maxDischargeDepth := 40)

@[simp] theorem State.trace_sound {F : Fix} (s : State) (r : Reason) (f : Nat) (i : TraceInfo) (hs : s.Sound F) :
    (State.trace s r f i).Sound F := by
  unfold State.trace
  grind [sound_foldl, optSound, outSound, sound_ok, sound_mk,
    outSound_unitOk, ok_reg, ok_glob, ok_dram, ok_mram, State.putTrace_sound, State.dspCount_sound]

@[simp] theorem State.drainTrace_sound {F : Fix} (s : State) (hs : s.Sound F) :
    (State.drainTrace s).Sound F := by
  unfold State.drainTrace
  (repeat' split) <;> simp_all (maxDischargeDepth := 40)

@[simp] theorem State.setPend_sound {F : Fix} (s : State) (f : Nat) (q : List PendAct) (hs : s.Sound F) :
    (State.setPend s f q).Sound F := by
  unfold State.setPend
  (repeat' split) <;> simp_all (maxDischargeDepth := 40)

@[simp] theorem State.setSpilled_sound {F : Fix} (s : State) (f : Nat) (q : List PendAct) (hs : s.Sound F) :
    (State.setSpilled s f q).Sound F := by
  unfold State.setSpilled
  (repeat' split) <;> simp_all (maxDischargeDepth := 40)

@[simp] theorem State.setIterWaits_sound {F : Fix} (s : State) (f : Nat) (q : List IterReq) (hs : s.Sound F) :
    (State.setIterWaits s f q).Sound F := by
  unfold State.setIterWaits
  (repeat' split) <;> simp_all (maxDischargeDepth := 40)

@[simp] theorem State.returnPend_sound {F : Fix} (n : Nat) (s : State) (f : Nat) (hs : s.Sound F) :
    (State.returnPend n s f).Sound F := by
  induction n generalizing s with
  | zero => simpa [State.returnPend]
  | succ k ih => simp only [State.returnPend]; grind [optSound, sound_ok, sound_mk, ok_globB, ok_reg,
      State.setSpilled_sound, State.setPend_sound, State.dspCount_sound, State.trace_sound]

@[simp] theorem State.allocIter_sound {F : Fix} (s : State) (f : Nat) (hs : s.Sound F) :
    (State.allocIter s f).Sound F := by
  unfold State.allocIter
  (repeat' split) <;> simp_all (maxDischargeDepth := 40)

theorem State.openOn_sound {F : Fix} (s : State) (f : Nat) (lid : Nat) (hs : s.Sound F) :
    ∀ z, (State.openOn s f lid) = some z → z.1.Sound F := by
  unfold State.openOn
  (repeat' split) <;> simp_all (maxDischargeDepth := 40)

@[simp] theorem State.startOn_sound {F : Fix} (s : State) (f lid : Nat) (r : Reason) (p : PendAct) (rest : List
    PendAct)
    (hs : s.Sound F) : optSound F (s.startOn f lid r p rest) := by
  have h := State.openOn_sound s f lid hs
  unfold State.startOn
  cases e : s.openOn f lid with
  | none => simp
  | some z =>
    have hz := h z e
    obtain ⟨t, hd⟩ := z
    simp only [Option.map_some, optSound_some]
    dsimp only at hz ⊢
    apply State.returnPend_sound
    apply State.trace_sound
    apply State.sendToLid_sound
    have h2 : ((t.setPend f rest).setFlowF f 5 23 16 lid |>.setFlowF f 5 24 24 0).Sound F :=
      State.setFlowF_sound _ _ _ _ _ _ (State.setFlowF_sound _ _ _ _ _ _ (State.setPend_sound _ _ _ hz))
    rw [sound_mk]
    apply sound_ok
    apply sound_if
    · apply State.dspCount_sound
      rw [sound_mk]
      exact sound_ok h2
    · exact h2

theorem State.startOn_some {F : Fix} (s : State) (f lid : Nat) (r : Reason) (p : PendAct) (rest : List PendAct)
    (hs : s.Sound F) (z : State) (ez : s.startOn f lid r p rest = some z) : z.Sound F := by
  have h := State.startOn_sound (F := F) s f lid r p rest hs
  rw [ez] at h; exact h

@[simp] theorem State.tryGrant_sound {F : Fix} (s : State) (f : Nat) (hs : s.Sound F) : optSound F (s.tryGrant f)
    := by
  unfold State.tryGrant
  split
  · simp
  · rename_i q rest _
    split
    · simp
    · have h := State.openOn_sound s f q.lid hs
      cases e : s.openOn f q.lid with
      | none => simp
      | some z =>
        have hz := h z e
        obtain ⟨t, hd⟩ := z
        simp only [Option.map_some, optSound_some]
        dsimp only at hz ⊢
        exact State.trace_sound _ _ _ _ (State.sendToLid_sound _ _ _ _ (State.dspCount_sound _ _
          (State.setIterWaits_sound _ _ _ hz)))

theorem State.tryGrant_some {F : Fix} (s : State) (f : Nat) (hs : s.Sound F) (z : State)
    (ez : s.tryGrant f = some z) : z.Sound F := by
  have h := State.tryGrant_sound (F := F) s f hs
  rw [ez] at h; exact h

@[simp] theorem State.tryPending_sound {F : Fix} (s : State) (f : Nat) (hs : s.Sound F) :
    optSound F (State.tryPending s f) := by
  unfold State.tryPending
  (repeat' split) <;> simp_all (maxDischargeDepth := 40)

theorem State.tryPending_some {F : Fix} (s : State) (f : Nat) (hs : s.Sound F) (z : State) (ez : (State.tryPending
    s f) = some z) : z.Sound F := by
  have h := State.tryPending_sound (F := F) s f hs
  rw [ez] at h; exact h

@[simp] theorem State.noCellCheck_sound {F : Fix} (s : State) (f : Nat) (hs : s.Sound F) :
    (State.noCellCheck s f).Sound F := by
  unfold State.noCellCheck
  (repeat' split) <;> simp_all (maxDischargeDepth := 40)

@[simp] theorem State.tryStartN_sound {F : Fix} (n : Nat) (s : State) (f : Nat) (hs : s.Sound F) :
    (State.tryStartN n s f).Sound F := by
  induction n generalizing s with
  | zero => simpa [State.tryStartN]
  | succ k ih => simp only [State.tryStartN]; grind [optSound, sound_ok, sound_mk, ok_globB, ok_reg,
      State.tryGrant_sound, State.tryGrant_some, State.tryPending_sound, State.tryPending_some,
      State.noCellCheck_sound]

@[simp] theorem State.tryStart_sound {F : Fix} (s : State) (f : Nat) (hs : s.Sound F) :
    (State.tryStart s f).Sound F := by
  unfold State.tryStart
  (repeat' split) <;> simp_all (maxDischargeDepth := 40)

@[simp] theorem State.noCellAll_sound {F : Fix} (s : State) (hs : s.Sound F) :
    (State.noCellAll s).Sound F := by
  simp only [State.noCellAll]
  (repeat' first | split | (refine sound_foldl _ _ ?_ _ ?_ <;> intros)) <;> simp_all (maxDischargeDepth := 40)

@[simp] theorem State.tryAll_sound {F : Fix} (s : State) (hs : s.Sound F) :
    (State.tryAll s).Sound F := by
  simp only [State.tryAll]
  (repeat' first | split | (refine sound_foldl _ _ ?_ _ ?_ <;> intros)) <;> simp_all (maxDischargeDepth := 40)

@[simp] theorem State.returnAll_sound {F : Fix} (s : State) (hs : s.Sound F) :
    (State.returnAll s).Sound F := by
  simp only [State.returnAll]
  (repeat' first | split | (refine sound_foldl _ _ ?_ _ ?_ <;> intros)) <;> simp_all (maxDischargeDepth := 40)

@[simp] theorem State.wakeCloud_sound {F : Fix} (s : State) (c : Nat) (hs : s.Sound F) :
    (State.wakeCloud s c).Sound F := by
  unfold State.wakeCloud
  (repeat' split) <;> simp_all (maxDischargeDepth := 40)

@[simp] theorem State.sendPurge_sound {F : Fix} (s : State) (p : Purge) (lids : List Nat) (src : Nat) (hs : s.Sound
    F) :
    (State.sendPurge s p lids src).Sound F := by
  simp only [State.sendPurge]
  (repeat' first | split | (refine sound_foldl _ _ ?_ _ ?_ <;> intros)) <;> simp_all (maxDischargeDepth := 40)

@[simp] theorem State.purgeAll_sound {F : Fix} (s : State) (f : Nat) (hs : s.Sound F) :
    (State.purgeAll s f).Sound F := by
  unfold State.purgeAll
  (repeat' split) <;> simp_all (maxDischargeDepth := 40)

@[simp] theorem State.purgeDone_sound {F : Fix} (s : State) (lid : Nat) (p : Purge) (hs : s.Sound F) :
    (State.purgeDone s lid p).Sound F := by
  unfold State.purgeDone
  (repeat' split) <;> simp_all (maxDischargeDepth := 40)

@[simp] theorem State.completeIter_sound {F : Fix} (s : State) (lid : Nat) (f : Nat) (i : Nat) (hs : s.Sound F) :
    (State.completeIter s lid f i).Sound F := by
  simp only [State.completeIter]
  (repeat' split) <;> simp_all (maxDischargeDepth := 40)

@[simp] theorem State.abortIter_sound {F : Fix} (s : State) (lid : Nat) (f : Nat) (i : Nat) (hen : Bool) (hs :
    s.Sound F) :
    (State.abortIter s lid f i hen).Sound F := by
  unfold State.abortIter
  (repeat' split) <;> simp_all (maxDischargeDepth := 40)

@[simp] theorem State.discardPending_sound {F : Fix} (s : State) (f : Nat) (hs : s.Sound F) :
    (State.discardPending s f).Sound F := by
  simp only [State.discardPending]
  (repeat' first | split | (refine sound_foldl _ _ ?_ _ ?_ <;> intros)) <;> simp_all (maxDischargeDepth := 40)

/-! ### Dispatcher -/

@[simp] theorem State.appendPending_sound {F : Fix} (s : State) (src : Nat) (f : Nat) (p : PendAct) (hs : s.Sound
    F) :
    (State.appendPending s src f p).Sound F := by
  unfold State.appendPending
  (repeat' split) <;> simp_all (maxDischargeDepth := 40)

@[simp] theorem State.handleEvent_sound {F : Fix} (s : State) (src : Nat) (e : Event) (hs : s.Sound F) :
    optSound F (State.handleEvent s src e) := by
  simp only [State.handleEvent]
  (repeat' split) <;> simp_all (maxDischargeDepth := 40)

theorem State.handleEvent_some {F : Fix} (s : State) (src : Nat) (e : Event) (hs : s.Sound F) (z : State) (ez :
    (State.handleEvent s src e) = some z) : z.Sound F := by
  have h := State.handleEvent_sound (F := F) s src e hs
  rw [ez] at h; exact h

@[simp] theorem State.beginHold_sound {F : Fix} (s : State) (src : Nat) (e : Event) (hs : s.Sound F) :
    (State.beginHold s src e).Sound F := by
  unfold State.beginHold
  (repeat' split) <;> simp_all (maxDischargeDepth := 40)

@[simp] theorem State.refill_sound {F : Fix} (s : State) (src : Nat) (hs : s.Sound F) :
    (State.refill s src).Sound F := by
  unfold State.refill
  split
  · exact State.pumpPins_sound s hs
  · exact State.pumpPorts_sound s hs
  · exact State.pumpTimers_sound s hs
  · exact hs

theorem execDispatchEvent_sound {F : Fix} (source : Nat) (s : State) (hs : s.Sound F) :
    outSound F (execDispatchEvent source s) := by
  unfold execDispatchEvent
  apply outSound_unitOk hs
  split
  · exact hs
  · split
    · exact hs
    · dsimp only
      have hu : ({ s with dsp := { s.dsp with lastSrc := source } } : State).Sound F := by rw [sound_mk]; exact sound_ok hs
      split
      · exact State.beginHold_sound _ _ _ hu
      · rename_i z hz
        have h := State.handleEvent_some _ _ _ hu z hz
        exact State.refill_sound _ _ (State.returnAll_sound _ (by rw [sound_mk]; exact sound_ok h))

@[simp] theorem State.takeReport_sound {F : Fix} (s : State) (f : Report → State → Option State) (hs : s.Sound F) (hf : ∀ (y0 : Report) (y1 : State), y1.Sound F → optSound F (f y0 y1)) :
    outSound F (State.takeReport s f) := by
  unfold State.takeReport
  grind [sound_foldl, optSound, outSound, sound_ok, sound_mk, outSound_unitOk, ok_reg, ok_glob, ok_dram, ok_mram, Ctx.next_sound, State.returnAll_sound]

theorem execCompletionReport_sound {F : Fix} (s : State) (hs : s.Sound F) :
    outSound F (execCompletionReport s) := by
  unfold execCompletionReport
  grind [sound_foldl, optSound, outSound, sound_ok, sound_mk,
    outSound_unitOk, ok_reg, ok_glob, ok_dram, ok_mram, State.takeReport_sound, State.completeIter_sound]

theorem execAbortReport_sound {F : Fix} (s : State) (hs : s.Sound F) :
    outSound F (execAbortReport s) := by
  unfold execAbortReport
  grind [sound_foldl, optSound, outSound, sound_ok, sound_mk,
    outSound_unitOk, ok_reg, ok_glob, ok_dram, ok_mram, State.takeReport_sound, State.abortIter_sound]

theorem execFrameFreeReport_sound {F : Fix} (s : State) (hs : s.Sound F) :
    outSound F (execFrameFreeReport s) := by
  unfold execFrameFreeReport
  grind [sound_foldl, optSound, outSound, sound_ok, sound_mk,
    outSound_unitOk, ok_reg, ok_glob, ok_dram, ok_mram, State.takeReport_sound, State.sendPurge_sound,
        State.tryAll_sound]

theorem execPrefetchTakenReport_sound {F : Fix} (s : State) (hs : s.Sound F) :
    outSound F (execPrefetchTakenReport s) := by
  unfold execPrefetchTakenReport
  grind [sound_foldl, optSound, outSound, sound_ok, sound_mk,
    outSound_unitOk, ok_reg, ok_glob, ok_dram, ok_mram, State.takeReport_sound]

theorem execPurgeComplete_sound {F : Fix} (s : State) (hs : s.Sound F) :
    outSound F (execPurgeComplete s) := by
  unfold execPurgeComplete
  grind [sound_foldl, optSound, outSound, sound_ok, sound_mk,
    outSound_unitOk, ok_reg, ok_glob, ok_dram, ok_mram, State.takeReport_sound, State.purgeDone_sound]

@[simp] theorem State.sendBoost_sound {F : Fix} (s : State) (lid : Nat) (flow : BitVec 12) (hs : s.Sound F) :
    (State.sendBoost s lid flow).Sound F := by
  unfold State.sendBoost
  (repeat' split) <;> simp_all (maxDischargeDepth := 40)

theorem execBoost_sound {F : Fix} (s : State) (hs : s.Sound F) : outSound F (execBoost s) := by
  unfold execBoost
  apply State.takeReport_sound (hs := hs)
  intro r t ht
  split
  · dsimp only
    split <;> simp (maxDischargeDepth := 20) [ht]
  · simp

theorem execUnboost_sound {F : Fix} (s : State) (hs : s.Sound F) :
    outSound F (execUnboost s) := by
  unfold execUnboost
  grind [sound_foldl, optSound, outSound, sound_ok, sound_mk,
    outSound_unitOk, ok_reg, ok_glob, ok_dram, ok_mram, State.takeReport_sound, State.trace_sound,
        State.sendBoost_sound]

theorem execIterRequest_sound {F : Fix} (s : State) (hs : s.Sound F) :
    outSound F (execIterRequest s) := by
  unfold execIterRequest
  (repeat' split) <;> simp_all (maxDischargeDepth := 40)

@[simp] theorem State.selectFlow_sound {F : Fix} (s : State) (v : Word) (hs : s.Sound F) :
    (State.selectFlow s v).Sound F := by
  unfold State.selectFlow
  (repeat' split) <;> simp_all (maxDischargeDepth := 40)

theorem execDspFselWrite_sound {F : Fix} (v : Word) (s : State) (hs : s.Sound F) :
    outSound F (execDspFselWrite v s) := by
  unfold execDspFselWrite
  (repeat' split) <;> simp_all (maxDischargeDepth := 40)

@[simp] theorem State.stageWord_sound {F : Fix} (s : State) (w : Nat) (v : Word) (hs : s.Sound F) :
    (State.stageWord s w v).Sound F := by
  unfold State.stageWord
  (repeat' split) <;> simp_all (maxDischargeDepth := 40)

@[simp] theorem State.flowStatus_sound {F : Fix} (s : State) (x : Nat) (hs : s.Sound F) :
    (State.flowStatus s x).Sound F := by
  unfold State.flowStatus
  (repeat' split) <;> simp_all (maxDischargeDepth := 40)

@[simp] theorem State.spreadPolicy_sound {F : Fix} (s : State) (f : Nat) (late : BitVec 2) (hs : s.Sound F) :
    (State.spreadPolicy s f late).Sound F := by
  simp only [State.spreadPolicy]
  (repeat' first | split | (refine sound_foldl _ _ ?_ _ ?_ <;> intros)) <;> simp_all (maxDischargeDepth := 40)

@[simp] theorem State.setLrel_sound {F : Fix} (s : State) (f : Nat) (b : Bool) (hs : s.Sound F) :
    (State.setLrel s f b).Sound F := by
  unfold State.setLrel
  (repeat' split) <;> simp_all (maxDischargeDepth := 40)

@[simp] theorem State.applyStaging_sound {F : Fix} (s : State) (f : Nat) (hs : s.Sound F) :
    (State.applyStaging s f).Sound F := by
  unfold State.applyStaging
  (try dsimp only)
  (repeat' first | with_reducible assumption | split | with_reducible apply outSound_unitOk | with_reducible rw [outSound_next] | with_reducible apply State.setFlowW_sound | with_reducible apply State.setFlowF_sound | with_reducible apply State.spreadPolicy_sound | with_reducible apply State.setLrel_sound | with_reducible apply State.returnPend_sound | with_reducible apply State.tryStart_sound | with_reducible apply State.trace_sound | (with_reducible apply sound_foldl <;> intros) | (rw [sound_mk]; with_reducible apply sound_ok) | with_reducible apply ok_reg | simp [outSound, optSound])

@[simp] theorem State.disableFlow_sound {F : Fix} (s : State) (f : Nat) (hs : s.Sound F) :
    (State.disableFlow s f).Sound F := by
  unfold State.disableFlow
  (repeat' split) <;> simp_all (maxDischargeDepth := 40)

@[simp] theorem State.commitFlow_sound {F : Fix} (s : State) (hs : s.Sound F) :
    (State.commitFlow s).Sound F := by
  unfold State.commitFlow
  (repeat' split) <;> simp_all (maxDischargeDepth := 40)

theorem execFlowCommit_sound {F : Fix} (s : State) (hs : s.Sound F) :
    outSound F (execFlowCommit s) := by
  unfold execFlowCommit
  (repeat' split) <;> simp_all (maxDischargeDepth := 40)

theorem execDisable_sound {F : Fix} (s : State) (hs : s.Sound F) :
    outSound F (execDisable s) := by
  unfold execDisable
  (repeat' split) <;> simp_all (maxDischargeDepth := 40)

@[simp] theorem State.clearFlowFlags_sound {F : Fix} (s : State) (hs : s.Sound F) :
    (State.clearFlowFlags s).Sound F := by
  unfold State.clearFlowFlags
  (repeat' split) <;> simp_all (maxDischargeDepth := 40)

theorem execClearFlags_sound {F : Fix} (s : State) (hs : s.Sound F) :
    outSound F (execClearFlags s) := by
  unfold execClearFlags
  (repeat' split) <;> simp_all (maxDischargeDepth := 40)

@[simp] theorem State.clearFlowCounts_sound {F : Fix} (s : State) (hs : s.Sound F) :
    (State.clearFlowCounts s).Sound F := by
  unfold State.clearFlowCounts
  (repeat' split) <;> simp_all (maxDischargeDepth := 40)

theorem execClearCounts_sound {F : Fix} (s : State) (hs : s.Sound F) :
    outSound F (execClearCounts s) := by
  unfold execClearCounts
  (repeat' split) <;> simp_all (maxDischargeDepth := 40)

/-! ### Spill -/

@[simp] theorem State.engineFault_sound {F : Fix} (s : State) (source : Nat) (c : Nat) (t : Token) (hs : s.Sound F)
    :
    (State.engineFault s source c t).Sound F := by
  unfold State.engineFault
  (repeat' split) <;> simp_all (maxDischargeDepth := 40)

@[simp] theorem State.countLeft_sound {F : Fix} (s : State) (c : Nat) (t : Token) (hs : s.Sound F) :
    (State.countLeft s c t).Sound F := by
  unfold State.countLeft
  (repeat' split) <;> simp_all (maxDischargeDepth := 40)

@[simp] theorem State.moveUp_sound {F : Fix} (s : State) (c : Nat) (index : Nat) (hs : s.Sound F) :
    (State.moveUp s c index).Sound F := by
  simp only [State.moveUp]
  (repeat' split) <;> simp_all (maxDischargeDepth := 40)

@[simp] theorem State.takeSpilled_sound {F : Fix} (s : State) (c : Nat) (q : SpillPos) (e : Entry) (hs : s.Sound F)
    :
    (State.takeSpilled s c q e).Sound F := by
  unfold State.takeSpilled
  (repeat' split) <;> simp_all (maxDischargeDepth := 40)

@[simp] theorem State.engineSend_sound {F : Fix} (s : State) (c : Nat) (pcell : Nat) (vc : Vc) (m : Msg) (hs : s.Sound F) :
    (State.engineSend s c pcell vc m).Sound F := by
  unfold State.engineSend
  (repeat' split) <;> simp_all (maxDischargeDepth := 40)

@[simp] theorem State.returnToken_sound {F : Fix} (s : State) (c : Nat) (pcell : Nat) (t : Token) (hs : s.Sound F) :
    (State.returnToken s c pcell t).Sound F := by
  unfold State.returnToken
  (repeat' split) <;> simp_all (maxDischargeDepth := 40)

@[simp] theorem State.preMatch_sound {F : Fix} (s : State) (c : Nat) (pcell : Nat) (left : Token) (a : Activation) (hs : s.Sound F) :
    (State.preMatch s c pcell left a).Sound F := by
  unfold State.preMatch
  (repeat' split) <;> simp_all (maxDischargeDepth := 40)

@[simp] theorem State.pushDown_sound {F : Fix} (s : State) (c : Nat) (e : Entry) (hs : s.Sound F) :
    (State.pushDown s c e).Sound F := by
  unfold State.pushDown
  (repeat' split) <;> simp_all (maxDischargeDepth := 40)

@[simp] theorem State.enterL2_sound {F : Fix} (s : State) (c : Nat) (e : Entry) (hs : s.Sound F) :
    (State.enterL2 s c e).1.Sound F := by
  simp only [State.enterL2]
  (repeat' split) <;> simp_all (maxDischargeDepth := 40)

@[simp] theorem State.receiveSpill_sound {F : Fix} (s : State) (c : Nat) (pcell : Nat) (e : Entry) (hs : s.Sound F) :
    (State.receiveSpill s c pcell e).1.Sound F := by
  simp only [State.receiveSpill]
  (repeat' split) <;> simp_all (maxDischargeDepth := 40)

@[simp] theorem State.takeEngine_sound {F : Fix} (s : State) (c op : Nat) (f : Request → Nat → State → State × Nat)
    (hs : s.Sound F) (hf : ∀ r p t, t.Sound F → (f r p t).1.Sound F) : outSound F (State.takeEngine s c op f) := by
  unfold State.takeEngine
  apply outSound_unitOk hs
  split
  · exact hs
  · split
    · exact hs
    · exact State.modCloud_sound _ _ _ (hf _ _ _ (State.giveBack_sound _ _ (State.modCloud_sound _ _ _ hs)))

@[simp] theorem State.spillEcc_sound {F : Fix} (s : State) (c : Nat) (t : Token) (ecc : MatchEcc) (hs : s.Sound F) :
    (State.spillEcc s c t ecc).Sound F := by
  simp only [State.spillEcc]
  (repeat' split) <;> simp_all (maxDischargeDepth := 40)

theorem execSpill_sound {F : Fix} (at_ : CloudRead) (s : State) (hs : s.Sound F) :
    outSound F (execSpill at_ s) := by
  unfold execSpill
  (repeat' split) <;> simp_all (maxDischargeDepth := 40)

theorem execRecall_sound {F : Fix} (cloud : Nat) (s : State) (hs : s.Sound F) :
    outSound F (execRecall cloud s) := by
  unfold execRecall
  grind [sound_foldl, optSound, outSound, sound_ok, sound_mk,
    outSound_unitOk, ok_reg, ok_glob, ok_dram, ok_mram, State.takeEngine_sound, State.takeSpilled_sound,
        State.returnToken_sound]

theorem execFetch_sound {F : Fix} (cloud : Nat) (s : State) (hs : s.Sound F) :
    outSound F (execFetch cloud s) := by
  unfold execFetch
  grind [sound_foldl, optSound, outSound, sound_ok, sound_mk,
    outSound_unitOk, ok_reg, ok_glob, ok_dram, ok_mram, State.takeEngine_sound, State.takeSpilled_sound,
        State.returnToken_sound]

@[simp] theorem State.takeAll_sound {F : Fix} (c : Nat) (p : Entry → Bool) (f : State → Token → State) (n : Nat) (s
    : State) (hf : ∀ t x, t.Sound F → (f t x).Sound F) (hs : s.Sound F) :
    (State.takeAll c p f n s).Sound F := by
  induction n generalizing s with
  | zero => simpa [State.takeAll]
  | succ k ih => simp only [State.takeAll]; grind [optSound, sound_ok, sound_mk, ok_globB, ok_reg,
      State.takeSpilled_sound]

theorem execSweep_sound {F : Fix} (cloud : Nat) (s : State) (hs : s.Sound F) : outSound F (execSweep cloud s) := by
  unfold execSweep
  apply State.takeEngine_sound (hs := hs)
  intro m q t ht
  refine State.takeAll_sound _ _ _ _ _ (fun u x hu => ?_) ht
  split
  · exact State.engineFault_sound _ _ _ _ hu
  · exact State.preMatch_sound _ _ _ _ _ hu

theorem execEnginePurge_sound {F : Fix} (cloud : Nat) (s : State) (hs : s.Sound F) :
    outSound F (execEnginePurge cloud s) := by
  unfold execEnginePurge
  apply State.takeEngine_sound (hs := hs)
  intro m q t ht
  exact State.takeAll_sound _ _ _ _ _ (fun u x hu => State.engineFault_sound _ _ _ _ hu) ht

theorem execCount_sound {F : Fix} (pcell : Nat) (s : State) (hs : s.Sound F) :
    outSound F (execCount pcell s) := by
  simp only [execCount]
  (repeat' split) <;> simp_all (maxDischargeDepth := 40)

@[simp] theorem State.settleAge_sound {F : Fix} (s : State) (c : Nat) (q : SpillPos) (e : Entry) (late : Bool) (hs
    : s.Sound F) :
    (State.settleAge s c q e late).Sound F := by
  simp only [State.settleAge]
  (repeat' split) <;> simp_all (maxDischargeDepth := 40)

@[simp] theorem State.ageSpilled_sound {F : Fix} (s : State) (c : Nat) (q : SpillPos) (hs : s.Sound F) :
    (State.ageSpilled s c q).Sound F := by
  unfold State.ageSpilled
  (repeat' split) <;> simp_all (maxDischargeDepth := 40)

@[simp] theorem State.rebuildStamps_sound {F : Fix} (s : State) (c : Nat) (hs : s.Sound F) :
    (State.rebuildStamps s c).Sound F := by
  simp only [State.rebuildStamps]
  (repeat' first | split | (refine sound_foldl _ _ ?_ _ ?_ <;> intros)) <;> simp_all (maxDischargeDepth := 40)

@[simp] theorem State.ageLevel_sound {F : Fix} (s : State) (c : Nat) (level3 : Bool) (hs : s.Sound F) :
    (State.ageLevel s c level3).Sound F := by
  simp only [State.ageLevel]
  (repeat' first | split | (refine sound_foldl _ _ ?_ _ ?_ <;> intros)) <;> simp_all (maxDischargeDepth := 40)

theorem execSpillAger_sound {F : Fix} (cloud : Nat) (level : Nat) (s : State) (hs : s.Sound F) :
    outSound F (execSpillAger cloud level s) := by
  unfold execSpillAger
  (repeat' split) <;> simp_all (maxDischargeDepth := 40)

@[simp] theorem State.emptyL2_sound {F : Fix} (s : State) (c : Nat) (hs : s.Sound F) :
    (State.emptyL2 s c).Sound F := by
  simp only [State.emptyL2]
  (repeat' first | split | (refine sound_foldl _ _ ?_ _ ?_ <;> intros)) <;> simp_all (maxDischargeDepth := 40)

theorem execFlush_sound {F : Fix} (cloud : Nat) (s : State) (hs : s.Sound F) :
    outSound F (execFlush cloud s) := by
  unfold execFlush
  grind [sound_foldl, optSound, outSound, sound_ok, sound_mk,
    outSound_unitOk, ok_reg, ok_glob, ok_dram, ok_mram, Ctx.store_sound, State.modCell_sound, State.emptyL2_sound,
        State.modCloud_sound]

theorem execEvict_sound {F : Fix} (pcell : Nat) (s : State) (hs : s.Sound F) :
    outSound F (execEvict pcell s) := by
  unfold execEvict
  grind [sound_foldl, optSound, outSound, sound_ok, sound_mk,
    outSound_unitOk, ok_reg, ok_glob, ok_dram, ok_mram, Ctx.store_sound, State.dropEntry_sound,
        State.spillOut_sound, State.modCell_sound]

/-! ### Bank -/

@[simp] theorem State.bankWrite_sound {F : Fix} (s : State) (b : Nat) (a : Nat) (bs : List Byte) (hs : s.Sound F) :
    (State.bankWrite s b a bs).Sound F := by
  unfold State.bankWrite
  (repeat' split) <;> simp_all (maxDischargeDepth := 40)

@[simp] theorem State.bankAnswer_sound {F : Fix} (s : State) (b : Nat) (r : Request) (status : Nat) (data : BitVec
    64) (body : List Byte) (hs : s.Sound F) :
    (State.bankAnswer s b r status data body).Sound F := by
  unfold State.bankAnswer
  (repeat' split) <;> simp_all (maxDischargeDepth := 40)

@[simp] theorem State.eccReport_sound {F : Fix} (s : State) (source : Nat) (r : Request) (other : Word) (hs :
    s.Sound F) :
    (State.eccReport s source r other).Sound F := by
  simp only [State.eccReport]
  (repeat' split) <;> simp_all (maxDischargeDepth := 40)

@[simp] theorem State.bankEcc_sound {F : Fix} (s : State) (b : Nat) (r : Request) (n : Nat) (ecc : Ecc) (hs : s.Sound F) :
    (State.bankEcc s b r n ecc).Sound F := by
  simp only [State.bankEcc]
  (repeat' first | split | (refine sound_foldl _ _ ?_ _ ?_ <;> intros)) <;> simp_all (maxDischargeDepth := 40)

@[simp] theorem State.takeBank_sound {F : Fix} (s : State) (b : Nat) (ops : Nat → Bool) (f : Request → State →
    State) (hs : s.Sound F) (hf : ∀ (y0 : Request) (y1 : State), y1.Sound F → (f y0 y1).Sound F) :
    outSound F (State.takeBank s b ops f) := by
  unfold State.takeBank
  (repeat' split) <;> simp_all (maxDischargeDepth := 40)

@[simp] theorem State.bankCheck_sound {F : Fix} (s : State) (b : Nat) (r : Request) (n : Nat) (f : State → State)
    (hs : s.Sound F) (hf : ∀ (y0 : State), y0.Sound F → (f y0).Sound F) :
    (State.bankCheck s b r n f).Sound F := by
  unfold State.bankCheck
  (repeat' split) <;> simp_all (maxDischargeDepth := 40)

theorem execBankLoad_sound {F : Fix} (bank : Nat) (ecc : Ecc) (s : State) (hs : s.Sound F) :
    outSound F (execBankLoad bank ecc s) := by
  unfold execBankLoad
  (repeat' split) <;> simp_all (maxDischargeDepth := 40)

@[simp] theorem State.bankPut_sound {F : Fix} (s : State) (b : Nat) (r : Request) (ecc : Ecc) (bs : List Byte) (hs
    : s.Sound F) :
    (State.bankPut s b r ecc bs).Sound F := by
  unfold State.bankPut
  grind [sound_foldl, optSound, outSound, sound_ok, sound_mk,
    outSound_unitOk, ok_reg, ok_glob, ok_dram, ok_mram, State.clearPoison_sound, State.bankWrite_sound,
        State.bankAnswer_sound, State.bankEcc_sound]

theorem execBankStore_sound {F : Fix} (bank : Nat) (ecc : Ecc) (s : State) (hs : s.Sound F) :
    outSound F (execBankStore bank ecc s) := by
  unfold execBankStore
  (repeat' split) <;> simp_all (maxDischargeDepth := 40)

theorem execBlockLoad_sound {F : Fix} (bank : Nat) (ecc : Ecc) (s : State) (hs : s.Sound F) :
    outSound F (execBlockLoad bank ecc s) := by
  unfold execBlockLoad
  (repeat' split) <;> simp_all (maxDischargeDepth := 40)

theorem execBlockStore_sound {F : Fix} (bank : Nat) (s : State) (hs : s.Sound F) :
    outSound F (execBlockStore bank s) := by
  unfold execBlockStore
  (repeat' split) <;> simp_all (maxDischargeDepth := 40)

@[simp] theorem State.aliasStore_sound {F : Fix} (s : State) (b : Nat) (r : Request) (ecc : Ecc) (f : Nat → Nat →
    Nat) (hs : s.Sound F) :
    (State.aliasStore s b r ecc f).Sound F := by
  unfold State.aliasStore
  (repeat' split) <;> simp_all (maxDischargeDepth := 40)

theorem execSetAliasStore_sound {F : Fix} (bank : Nat) (ecc : Ecc) (s : State) (hs : s.Sound F) :
    outSound F (execSetAliasStore bank ecc s) := by
  unfold execSetAliasStore
  (repeat' split) <;> simp_all (maxDischargeDepth := 40)

theorem execClearAliasStore_sound {F : Fix} (bank : Nat) (ecc : Ecc) (s : State) (hs : s.Sound F) :
    outSound F (execClearAliasStore bank ecc s) := by
  unfold execClearAliasStore
  (repeat' split) <;> simp_all (maxDischargeDepth := 40)

theorem execBankSwp_sound {F : Fix} (bank : Nat) (ecc : Ecc) (s : State) (hs : s.Sound F) :
    outSound F (execBankSwp bank ecc s) := by
  unfold execBankSwp
  (repeat' split) <;> simp_all (maxDischargeDepth := 40)

@[simp] theorem State.putLock_sound {F : Fix} (s : State) (b : Nat) (i : Nat) (e : LockEntry) (hs : s.Sound F) :
    (State.putLock s b i e).Sound F := by
  unfold State.putLock
  (repeat' split) <;> simp_all (maxDischargeDepth := 40)

@[simp] theorem State.reboost_sound {F : Fix} (s : State) (b : Nat) (i : Nat) (hs : s.Sound F) :
    (State.reboost s b i).Sound F := by
  unfold State.reboost
  (repeat' split) <;> simp_all (maxDischargeDepth := 40)

@[simp] theorem State.grantLock_sound {F : Fix} (s : State) (b : Nat) (w : Waiter) (a : Nat) (status : Nat) (hs :
    s.Sound F) :
    (State.grantLock s b w a status).Sound F := by
  unfold State.grantLock
  (repeat' split) <;> simp_all (maxDischargeDepth := 40)

@[simp] theorem State.releaseLock_sound {F : Fix} (s : State) (b : Nat) (i : Nat) (e : LockEntry) (abandoned :
    Bool) (hs : s.Sound F) :
    (State.releaseLock s b i e abandoned).Sound F := by
  unfold State.releaseLock
  (repeat' split) <;> simp_all (maxDischargeDepth := 40)

@[simp] theorem State.abandonReport_sound {F : Fix} (s : State) (b : Nat) (i : Nat) (ea : Word) (master : BitVec
    10) (hs : s.Sound F) :
    (State.abandonReport s b i ea master).Sound F := by
  unfold State.abandonReport
  (repeat' split) <;> simp_all (maxDischargeDepth := 40)

@[simp] theorem State.lockEcc_sound {F : Fix} (s : State) (b : Nat) (reads : LockEntry → Bool) (ecc : LockEcc) (hs : s.Sound F) :
    (State.lockEcc s b reads ecc).Sound F := by
  simp only [State.lockEcc]
  (repeat' split) <;> simp_all (maxDischargeDepth := 40)

@[simp] theorem State.takeLock_sound {F : Fix} (s : State) (b : Nat) (op : Nat) (ecc : LockEcc) (f : Request → State → State) (hs : s.Sound F) (hf : ∀ (y0 : Request) (y1 : State), y1.Sound F → (f y0 y1).Sound F) :
    outSound F (State.takeLock s b op ecc f) := by
  simp only [State.takeLock]
  (repeat' split) <;> simp_all (maxDischargeDepth := 40)

theorem State.acquireLock_sound {F : Fix} (s : State) (b : Nat) (a : Nat) (p : LockParty) (hs : s.Sound F) :
    ∀ z, (State.acquireLock s b a p) = some z → z.1.Sound F := by
  simp only [State.acquireLock]
  (repeat' split) <;> simp_all (maxDischargeDepth := 40)

theorem execBankLck_sound {F : Fix} (bank : Nat) (ecc : LockEcc) (s : State) (hs : s.Sound F) :
    outSound F (execBankLck bank ecc s) := by
  unfold execBankLck
  apply State.takeLock_sound (hs := hs)
  intro r v hv
  dsimp only
  split
  · rename_i z st e
    exact State.bankAnswer_sound _ _ _ _ _ _ (State.acquireLock_sound _ _ _ _ hv _ e)
  · split
    · exact hv
    · split
      · exact State.bankAnswer_sound _ _ _ _ _ _ (State.bump_sound _ _ hv)
      · exact State.reboost_sound _ _ _ (State.bankAnswer_sound _ _ _ _ _ _ (State.bump_sound _ _
          (State.putLock_sound _ _ _ _ hv)))

theorem execBankTlck_sound {F : Fix} (at_ : LockRead) (s : State) (hs : s.Sound F) :
    outSound F (execBankTlck at_ s) := by
  unfold execBankTlck
  apply State.takeLock_sound (hs := hs)
  intro r v hv
  split
  · rename_i z st e
    exact State.bankAnswer_sound _ _ _ _ _ _ (State.acquireLock_sound _ _ _ _ hv _ e)
  · exact State.bankAnswer_sound _ _ _ _ _ _ hv

theorem execBankUnl_sound {F : Fix} (at_ : LockRead) (s : State) (hs : s.Sound F) :
    outSound F (execBankUnl at_ s) := by
  unfold execBankUnl
  grind [sound_foldl, optSound, outSound, sound_ok, sound_mk, outSound_unitOk, ok_reg, ok_glob, ok_dram, ok_mram, State.takeLock_sound, State.releaseLock_sound, State.bankAnswer_sound]

theorem execReleaseAbandoned_sound {F : Fix} (at_ : LockRead) (s : State) (hs : s.Sound F) :
    outSound F (execReleaseAbandoned at_ s) := by
  unfold execReleaseAbandoned
  grind [sound_foldl, optSound, outSound, sound_ok, sound_mk, outSound_unitOk, ok_reg, ok_glob, ok_dram, ok_mram, State.takeLock_sound, State.abandonReport_sound, State.releaseLock_sound, State.bankAnswer_sound]

theorem execCancelWait_sound {F : Fix} (at_ : LockRead) (s : State) (hs : s.Sound F) :
    outSound F (execCancelWait at_ s) := by
  unfold execCancelWait
  grind [sound_foldl, optSound, outSound, sound_ok, sound_mk, outSound_unitOk, ok_reg, ok_glob, ok_dram, ok_mram, State.takeLock_sound, State.bankAnswer_sound, State.putLock_sound, State.reboost_sound]

theorem execReprioritiseWaiter_sound {F : Fix} (at_ : LockRead) (s : State) (hs : s.Sound F) :
    outSound F (execReprioritiseWaiter at_ s) := by
  unfold execReprioritiseWaiter
  grind [sound_foldl, optSound, outSound, sound_ok, sound_mk, outSound_unitOk, ok_reg, ok_glob, ok_dram, ok_mram, State.takeLock_sound, State.bankAnswer_sound, State.putLock_sound, State.reboost_sound]

@[simp] theorem State.dropOwner_sound {F : Fix} (s : State) (b : Nat) (i : Nat) (lid : BitVec 8) (hs : s.Sound F) :
    (State.dropOwner s b i lid).Sound F := by
  unfold State.dropOwner
  (repeat' split) <;> simp_all (maxDischargeDepth := 40)

theorem execOwnerGone_sound {F : Fix} (at_ : LockRead) (s : State) (hs : s.Sound F) :
    outSound F (execOwnerGone at_ s) := by
  unfold execOwnerGone
  grind [sound_foldl, optSound, outSound, sound_ok, sound_mk, outSound_unitOk, ok_reg, ok_glob, ok_dram, ok_mram, State.dropOwner_sound, State.lockEcc_sound, State.modBank_sound]

@[simp] theorem State.lockCommand_sound {F : Fix} (s : State) (force : Bool) (hs : s.Sound F) :
    (State.lockCommand s force).Sound F := by
  simp only [State.lockCommand]
  (repeat' split) <;> simp_all (maxDischargeDepth := 40)

theorem execClearAbandon_sound {F : Fix} (s : State) (hs : s.Sound F) :
    outSound F (execClearAbandon s) := by
  unfold execClearAbandon
  (repeat' split) <;> simp_all (maxDischargeDepth := 40)

theorem execForceRelease_sound {F : Fix} (s : State) (hs : s.Sound F) :
    outSound F (execForceRelease s) := by
  unfold execForceRelease
  (repeat' split) <;> simp_all (maxDischargeDepth := 40)

@[simp] theorem State.rootAnswer_sound {F : Fix} (s : State) (r : Request) (status : Nat) (data : BitVec 64) (hs :
    s.Sound F) :
    (State.rootAnswer s r status data).Sound F := by
  unfold State.rootAnswer
  (repeat' split) <;> simp_all (maxDischargeDepth := 40)

@[simp] theorem State.takeSem_sound {F : Fix} (s : State) (ops : Nat → Bool) (f : Request → State → State) (hs :
    s.Sound F) (hf : ∀ (y0 : Request) (y1 : State), y1.Sound F → (f y0 y1).Sound F) :
    outSound F (State.takeSem s ops f) := by
  unfold State.takeSem
  (repeat' split) <;> simp_all (maxDischargeDepth := 40)

@[simp] theorem State.semAcquire_sound {F : Fix} (s : State) (n : Nat) (hs : s.Sound F) :
    (State.semAcquire s n).1.Sound F := by
  simp only [State.semAcquire]
  (repeat' split) <;> simp_all (maxDischargeDepth := 40)

@[simp] theorem State.semRelease_sound {F : Fix} (s : State) (n : Nat) (master : BitVec 10) (hs : s.Sound F) :
    (State.semRelease s n master).1.Sound F := by
  simp only [State.semRelease]
  (repeat' split) <;> simp_all (maxDischargeDepth := 40)

theorem execSemaphoreAcquire_sound {F : Fix} (s : State) (hs : s.Sound F) :
    outSound F (execSemaphoreAcquire s) := by
  unfold execSemaphoreAcquire
  (repeat' split) <;> simp_all (maxDischargeDepth := 40)

theorem execSemaphoreRelease_sound {F : Fix} (s : State) (hs : s.Sound F) :
    outSound F (execSemaphoreRelease s) := by
  unfold execSemaphoreRelease
  (repeat' split) <;> simp_all (maxDischargeDepth := 40)

@[simp] theorem State.semHop_sound {F : Fix} (s : State) (n : Nat) (release : Bool) (hs : s.Sound F) :
    (State.semHop s n release).Sound F := by
  unfold State.semHop
  (repeat' split) <;> simp_all (maxDischargeDepth := 40)

theorem execHostAcquire_sound {F : Fix} (sem : BitVec 6) (s : State) (hs : s.Sound F) :
    outSound F (execHostAcquire sem s) := by
  unfold execHostAcquire
  (repeat' split) <;> simp_all (maxDischargeDepth := 40)

theorem execHostRelease_sound {F : Fix} (sem : BitVec 6) (s : State) (hs : s.Sound F) :
    outSound F (execHostRelease sem s) := by
  unfold execHostRelease
  (repeat' split) <;> simp_all (maxDischargeDepth := 40)

theorem execDramAccess_sound {F : Fix} (ecc : Ecc) (s : State) (hs : s.Sound F) :
    outSound F (execDramAccess ecc s) := by
  simp only [execDramAccess]
  (repeat' split) <;> simp_all (maxDischargeDepth := 40)

theorem execMramAccess_sound {F : Fix} (ecc : Ecc) (s : State) (hs : s.Sound F) :
    outSound F (execMramAccess ecc s) := by
  unfold execMramAccess
  (repeat' split) <;> simp_all (maxDischargeDepth := 40)

/-! ### Sequencer -/

theorem execSeqSlotStart_sound {F : Fix} (part : Nat) (s : State) (hs : s.Sound F) :
    outSound F (execSeqSlotStart part s) := by
  unfold execSeqSlotStart
  grind [sound_foldl, optSound, outSound, sound_ok, sound_mk,
    outSound_unitOk, ok_reg, ok_glob, ok_dram, ok_mram, State.latchSample_sound, State.sendToLid_sound,
        State.modPart_sound]

@[simp] theorem State.slotFault_sound {F : Fix} (s : State) (source : Nat) (master : BitVec 10) (e : Slotting) (hs
    : s.Sound F) :
    (State.slotFault s source master e).Sound F := by
  unfold State.slotFault
  (repeat' split) <;> simp_all (maxDischargeDepth := 40)

@[simp] theorem State.takeOperand_sound {F : Fix} (s : State) (pcell : Nat) (n : SlotNeed) (has : Bool) (hs :
    s.Sound F) :
    (State.takeOperand s pcell n has).Sound F := by
  unfold State.takeOperand
  (repeat' split) <;> simp_all (maxDischargeDepth := 40)

@[simp] theorem State.missOperand_sound {F : Fix} (s : State) (pcell : Nat) (e : Slotting) (n : SlotNeed) (has :
    Bool) (orphan : Bool) (hs : s.Sound F) :
    (State.missOperand s pcell e n has orphan).Sound F := by
  unfold State.missOperand
  (repeat' split) <;> simp_all (maxDischargeDepth := 40)

@[simp] theorem State.applyEntry_sound {F : Fix} (s : State) (pcell : Nat) (e : Slotting) (o : SlotOutcome) (fseq :
    BitVec 20) (has0 : Bool) (has1 : Bool) (mcount : Nat) (hs : s.Sound F) :
    (State.applyEntry s pcell e o fseq has0 has1 mcount).Sound F := by
  unfold State.applyEntry
  (repeat' split) <;> simp_all (maxDischargeDepth := 40)

@[simp] theorem State.sendMirror_sound {F : Fix} (s : State) (pcell : Nat) (e : Slotting) (o : SlotOutcome) (fseq :
    BitVec 20) (has0 : Bool) (has1 : Bool) (mcount : Nat) (hs : s.Sound F) :
    (State.sendMirror s pcell e o fseq has0 has1 mcount).Sound F := by
  unfold State.sendMirror
  (repeat' split) <;> simp_all (maxDischargeDepth := 40)

@[simp] theorem State.admitEntry_sound {F : Fix} (s : State) (pcell : Nat) (part : Nat) (e : Slotting) (hs : s.Sound F) :
    (State.admitEntry s pcell part e).Sound F := by
  unfold State.admitEntry
  (repeat' split) <;> simp_all (maxDischargeDepth := 40)

theorem execSlotAdmit_sound {F : Fix} (pcell : Nat) (s : State) (hs : s.Sound F) :
    outSound F (execSlotAdmit pcell s) := by
  unfold execSlotAdmit
  (repeat' split) <;> simp_all (maxDischargeDepth := 40)

@[simp] theorem State.modCells_sound {F : Fix} (s : State) (p : Nat) (f : Cell → Cell) (hs : s.Sound F) :
    (State.modCells s p f).Sound F := by
  simp only [State.modCells]
  (repeat' first | split | (refine sound_foldl _ _ ?_ _ ?_ <;> intros)) <;> simp_all (maxDischargeDepth := 40)

@[simp] theorem State.swapDone_sound {F : Fix} (s : State) (p : Nat) (status : Nat) (hs : s.Sound F) :
    (State.swapDone s p status).Sound F := by
  unfold State.swapDone
  (repeat' split) <;> simp_all (maxDischargeDepth := 40)

@[simp] theorem State.armSwap_sound {F : Fix} (s : State) (p : Nat) (handover : Bool) (target : BitVec 16) (hs :
    s.Sound F) :
    (State.armSwap s p handover target).Sound F := by
  simp only [State.armSwap]
  (repeat' split) <;> simp_all (maxDischargeDepth := 40)

@[simp] theorem State.cancelSwap_sound {F : Fix} (s : State) (p : Nat) (hs : s.Sound F) :
    (State.cancelSwap s p).Sound F := by
  unfold State.cancelSwap
  (repeat' split) <;> simp_all (maxDischargeDepth := 40)

theorem execArmHandover_sound {F : Fix} (part : Nat) (target : BitVec 16) (s : State) (hs : s.Sound F) :
    outSound F (execArmHandover part target s) := by
  unfold execArmHandover
  (repeat' split) <;> simp_all (maxDischargeDepth := 40)

theorem execArmGap_sound {F : Fix} (part : Nat) (target : BitVec 16) (s : State) (hs : s.Sound F) :
    outSound F (execArmGap part target s) := by
  unfold execArmGap
  (repeat' split) <;> simp_all (maxDischargeDepth := 40)

theorem execCancel_sound {F : Fix} (part : Nat) (s : State) (hs : s.Sound F) :
    outSound F (execCancel part s) := by
  unfold execCancel
  (repeat' split) <;> simp_all (maxDischargeDepth := 40)

@[simp] theorem State.flipBanks_sound {F : Fix} (s : State) (p : Nat) (hs : s.Sound F) :
    (State.flipBanks s p).Sound F := by
  simp only [State.flipBanks]
  (repeat' first | split | (refine sound_foldl _ _ ?_ _ ?_ <;> intros)) <;> simp_all (maxDischargeDepth := 40)

@[simp] theorem State.clearWaiting_sound {F : Fix} (s : State) (pcell : Nat) (hs : s.Sound F) :
    (State.clearWaiting s pcell).Sound F := by
  simp only [State.clearWaiting]
  (repeat' first | split | (refine sound_foldl _ _ ?_ _ ?_ <;> intros)) <;> simp_all (maxDischargeDepth := 40)

@[simp] theorem State.endSwap_sound {F : Fix} (s : State) (p : Nat) (hs : s.Sound F) :
    (State.endSwap s p).Sound F := by
  unfold State.endSwap
  (repeat' split) <;> simp_all (maxDischargeDepth := 40)

@[simp] theorem State.stepSwap_sound {F : Fix} (s : State) (p : Nat) (k : Int) (hs : s.Sound F) :
    (State.stepSwap s p k).Sound F := by
  unfold State.stepSwap
  (try dsimp only)
  (repeat' first | with_reducible assumption | split | with_reducible apply outSound_unitOk | with_reducible rw [outSound_next] | with_reducible apply State.endSwap_sound | with_reducible apply State.clearWaiting_sound | with_reducible apply State.flipBanks_sound | with_reducible apply State.modPart_sound | with_reducible apply State.writeBudgets_sound | (with_reducible apply sound_foldl <;> intros) | (rw [sound_mk]; with_reducible apply sound_ok) | with_reducible apply ok_reg | simp [outSound, optSound])

@[simp] theorem State.wakePart_sound {F : Fix} (s : State) (p : Nat) (start : Int) (hs : s.Sound F) :
    (State.wakePart s p start).Sound F := by
  unfold State.wakePart
  (repeat' split) <;> simp_all (maxDischargeDepth := 40)

@[simp] theorem State.haltNow_sound {F : Fix} (s : State) (p : Nat) (hs : s.Sound F) :
    (State.haltNow s p).Sound F := by
  unfold State.haltNow
  (repeat' split) <;> simp_all (maxDischargeDepth := 40)

@[simp] theorem State.enterFrame_sound {F : Fix} (s : State) (p : Nat) (k : Int) (hs : s.Sound F) :
    (State.enterFrame s p k).Sound F := by
  unfold State.enterFrame
  (try dsimp only)
  (repeat' first | with_reducible assumption | split | with_reducible apply outSound_unitOk | with_reducible rw [outSound_next] | with_reducible apply State.modCell_sound | with_reducible apply State.stepSwap_sound | with_reducible apply State.wakePart_sound | with_reducible apply State.haltNow_sound | with_reducible apply State.modPart_sound | (with_reducible apply sound_foldl <;> intros) | (rw [sound_mk]; with_reducible apply sound_ok) | with_reducible apply ok_reg | simp [outSound, optSound])

theorem execFrameBoundary_sound {F : Fix} (part : Nat) (s : State) (hs : s.Sound F) :
    outSound F (execFrameBoundary part s) := by
  unfold execFrameBoundary
  (repeat' split) <;> simp_all (maxDischargeDepth := 40)

@[simp] theorem State.pairMismatch_sound {F : Fix} (s : State) (station : Nat) (j : Nat) (hs : s.Sound F) :
    (State.pairMismatch s station j).Sound F := by
  unfold State.pairMismatch
  (repeat' split) <;> simp_all (maxDischargeDepth := 40)

@[simp] theorem State.pairReport_sound {F : Fix} (s : State) (source : Nat) (station : Nat) (pid : Nat) (fseq :
    BitVec 20) (n : BitVec 8) (hs : s.Sound F) :
    (State.pairReport s source station pid fseq n).Sound F := by
  unfold State.pairReport
  (repeat' split) <;> simp_all (maxDischargeDepth := 40)

@[simp] theorem State.pairFault_sound {F : Fix} (s : State) (source : Nat) (station : Nat) (j : Nat) (pid : Nat)
    (fseq : BitVec 20) (n : BitVec 8) (hs : s.Sound F) :
    (State.pairFault s source station j pid fseq n).Sound F := by
  unfold State.pairFault
  (repeat' split) <;> simp_all (maxDischargeDepth := 40)

theorem execMirrorRecord_sound {F : Fix} (pcell : Nat) (s : State) (hs : s.Sound F) :
    outSound F (execMirrorRecord pcell s) := by
  simp only [execMirrorRecord]
  (repeat' split) <;> simp_all (maxDischargeDepth := 40)

theorem execCheckerOperandTimeout_sound {F : Fix} (pcell : Nat) (s : State) (hs : s.Sound F) :
    outSound F (execCheckerOperandTimeout pcell s) := by
  simp only [execCheckerOperandTimeout]
  (repeat' split) <;> simp_all (maxDischargeDepth := 40)

end Sys2Proof.Machine
end

