-- ==== Sys2Proof/Laws/SoundNet.lean ====
section
/-! SUPPORT. Soundness (SoundBase): what the network, the clouds and the repair keep. One lemma per operation. -/

set_option linter.all false

namespace Sys2Proof.Machine

/-! ### Hop -/

@[simp] theorem State.jetReport_sound {F : Fix} (s : State) (source : Nat) (detector : Place) (link : Nat) (p :
    Packet) (head : Nat) (se : Nat) (hs : s.Sound F) :
    (State.jetReport s source detector link p head se).Sound F := by
  unfold State.jetReport
  (repeat' split) <;> simp_all (maxDischargeDepth := 40)

@[simp] theorem State.receiveFlit_sound {F : Fix} (s : State) (p : Packet) (detector : Place) (link flit : Nat)
    (flips : BitVec 160) (hs : s.Sound F) : (State.receiveFlit s p detector link flit flips).1.Sound F := by
  unfold State.receiveFlit
  (repeat' split) <;> simp_all (maxDischargeDepth := 40)

@[simp] theorem State.receive_sound {F : Fix} (s : State) (p : Packet) (detector : Place) (link : Nat)
    (flips : Table (BitVec 160)) (hs : s.Sound F) : (State.receive s p detector link flips).1.Sound F := by
  unfold State.receive
  split
  · exact hs
  · have key : ∀ (l : List Nat) (r : State × Option Packet), r.1.Sound F →
        (l.foldl (fun r i =>
          match r.2 with
          | some q => r.1.receiveFlit q detector link i (tget (fun _ => 0) flips i)
          | none => r) r).1.Sound F := by
      intro l
      induction l with
      | nil => intro r h; exact h
      | cons x l ih =>
        intro r h
        refine ih _ ?_
        dsimp only
        split
        · exact State.receiveFlit_sound _ _ _ _ _ _ h
        · exact h
    exact key _ (s, some p) hs

@[simp] theorem State.probeFlit_sound {F : Fix} (s : State) (link : Nat) (p : Packet) (i : Nat) (hs : s.Sound F) :
    (State.probeFlit s link p i).Sound F := by
  unfold State.probeFlit
  grind [sound_foldl, optSound, outSound, sound_ok, sound_mk,
    outSound_unitOk, ok_reg, ok_glob, ok_dram, ok_mram, State.bump_sound, State.putTrace_sound]

@[simp] theorem State.probe_sound {F : Fix} (s : State) (at_ : Place) (port : Nat) (p : Packet) (hs : s.Sound F) :
    (State.probe s at_ port p).Sound F := by
  unfold State.probe
  grind [sound_foldl, optSound, outSound, sound_ok, sound_mk,
    outSound_unitOk, ok_reg, ok_glob, ok_dram, ok_mram, State.probeFlit_sound]

@[simp] theorem State.writePrbCfg_sound {F : Fix} (s : State) (n : Nat) (v : Word) (hs : s.Sound F) :
    (State.writePrbCfg s n v).Sound F := by
  unfold State.writePrbCfg
  (repeat' split) <;> simp_all (maxDischargeDepth := 40)

theorem execPrbCfgWrite_sound {F : Fix} (probe : Nat) (v : Word) (s : State) (hs : s.Sound F) :
    outSound F (execPrbCfgWrite probe v s) := by
  unfold execPrbCfgWrite
  (repeat' split) <;> simp_all (maxDischargeDepth := 40)

/-! ### Network -/

theorem State.spend_sound {F : Fix} (s : State) (h : Holder) (p : Packet) (hs : s.Sound F) :
    ∀ z, (State.spend s h p) = some z → z.1.Sound F := by
  unfold State.spend
  (repeat' split) <;> simp_all (maxDischargeDepth := 40)

@[simp] theorem State.fly_sound {F : Fix} (s : State) (p : Packet) (hs : s.Sound F) :
    (State.fly s p).Sound F := by
  unfold State.fly
  (repeat' split) <;> simp_all (maxDischargeDepth := 40)

@[simp] theorem State.sinkPacket_sound {F : Fix} (s : State) (p : Packet) (reason : Nat) (hs : s.Sound F) :
    (State.sinkPacket s p reason).Sound F := by
  unfold State.sinkPacket
  (repeat' split) <;> simp_all (maxDischargeDepth := 40)

@[simp] theorem State.answerAt_sound {F : Fix} (s : State) (p : Packet) (hs : s.Sound F) :
    (State.answerAt s p).Sound F := by
  unfold State.answerAt
  (repeat' split) <;> simp_all (maxDischargeDepth := 40)

@[simp] theorem State.errorAnswer_sound {F : Fix} (s : State) (p : Packet) (place : Place) (hs : s.Sound F) :
    (State.errorAnswer s p place).Sound F := by
  unfold State.errorAnswer
  (repeat' split) <;> simp_all (maxDischargeDepth := 40)

@[simp] theorem State.holdIngress_sound {F : Fix} (s : State) (c : Nat) (p : Packet) (hs : s.Sound F) :
    (State.holdIngress s c p).Sound F := by
  unfold State.holdIngress
  (repeat' split) <;> simp_all (maxDischargeDepth := 40)

@[simp] theorem State.ingressGone_sound {F : Fix} (s : State) (c : Nat) (p : Packet) (hs : s.Sound F) :
    (State.ingressGone s c p).Sound F := by
  unfold State.ingressGone
  (repeat' split) <;> simp_all (maxDischargeDepth := 40)

@[simp] theorem State.ingressArrive_sound {F : Fix} (s : State) (c : Nat) (p : Packet) (hs : s.Sound F) :
    (State.ingressArrive s c p).Sound F := by
  unfold State.ingressArrive
  (repeat' split) <;> simp_all (maxDischargeDepth := 40)

@[simp] theorem State.egressArrive_sound {F : Fix} (s : State) (c : Nat) (p : Packet) (hs : s.Sound F) :
    (State.egressArrive s c p).Sound F := by
  unfold State.egressArrive
  (repeat' split) <;> simp_all (maxDischargeDepth := 40)

@[simp] theorem State.deliverRequest_sound {F : Fix} (s : State) (c : Nat) (k : Nat) (p : Packet) (r : Request) (hs
    : s.Sound F) :
    (State.deliverRequest s c k p r).Sound F := by
  unfold State.deliverRequest
  (repeat' split) <;> simp_all (maxDischargeDepth := 40)

@[simp] theorem State.deliverCell_sound {F : Fix} (s : State) (c : Nat) (k : Nat) (p : Packet) (cargo : Cargo) (hs
    : s.Sound F) :
    optSound F (State.deliverCell s c k p cargo) := by
  simp only [State.deliverCell]
  (repeat' split) <;> simp_all (maxDischargeDepth := 40)

theorem State.deliverCell_some {F : Fix} (s : State) (c : Nat) (k : Nat) (p : Packet) (cargo : Cargo) (hs : s.Sound
    F) (z : State) (ez : (State.deliverCell s c k p cargo) = some z) : z.Sound F := by
  have h := State.deliverCell_sound (F := F) s c k p cargo hs
  rw [ez] at h; exact h

@[simp] theorem State.rootRequest_sound {F : Fix} (s : State) (unit : Nat) (p : Packet) (r : Request) (hs : s.Sound
    F) :
    (State.rootRequest s unit p r).Sound F := by
  unfold State.rootRequest
  (repeat' split) <;> simp_all (maxDischargeDepth := 40)

@[simp] theorem State.deliverRoot_sound {F : Fix} (s : State) (unit : Nat) (p : Packet) (cargo : Cargo) (hs :
    s.Sound F) :
    optSound F (State.deliverRoot s unit p cargo) := by
  simp only [State.deliverRoot]
  (repeat' split) <;> simp_all (maxDischargeDepth := 40)

theorem State.deliverRoot_some {F : Fix} (s : State) (unit : Nat) (p : Packet) (cargo : Cargo) (hs : s.Sound F) (z
    : State) (ez : (State.deliverRoot s unit p cargo) = some z) : z.Sound F := by
  have h := State.deliverRoot_sound (F := F) s unit p cargo hs
  rw [ez] at h; exact h

@[simp] theorem State.deliverStation_sound {F : Fix} (s : State) (i : Nat) (p : Packet) (cargo : Cargo) (hs :
    s.Sound F) :
    (State.deliverStation s i p cargo).Sound F := by
  unfold State.deliverStation
  (repeat' split) <;> simp_all (maxDischargeDepth := 40)

@[simp] theorem State.badEnd_sound {F : Fix} (s : State) (at_ : Place) (port : Nat) (p : Packet) (flit : Nat) (hs :
    s.Sound F) :
    (State.badEnd s at_ port p flit).1.Sound F := by
  unfold State.badEnd
  (repeat' split) <;> simp_all (maxDischargeDepth := 40)

@[simp] theorem State.eject_sound {F : Fix} (s : State) (at_ : Place) (port : Nat) (p : Packet) (hs : s.Sound F) :
    optSound F (State.eject s at_ port p) := by
  simp only [State.eject]
  (repeat' split) <;> simp_all (maxDischargeDepth := 40)

theorem State.eject_some {F : Fix} (s : State) (at_ : Place) (port : Nat) (p : Packet) (hs : s.Sound F) (z : State)
    (ez : (State.eject s at_ port p) = some z) : z.Sound F := by
  have h := State.eject_sound (F := F) s at_ port p hs
  rw [ez] at h; exact h

@[simp] theorem State.served_sound {F : Fix} (s : State) (p : Packet) (hs : s.Sound F) :
    (State.served s p).Sound F := by
  unfold State.served
  (repeat' split) <;> simp_all (maxDischargeDepth := 40)

@[simp] theorem State.arriveAt_sound {F : Fix} (s : State) (from_ : Place) (next : Place) (inPort : Nat) (p : Packet) (hs : s.Sound F) :
    (State.arriveAt s from_ next inPort p).Sound F := by
  unfold State.arriveAt
  (repeat' split) <;> simp_all (maxDischargeDepth := 40)

@[simp] theorem State.sendOver_sound {F : Fix} (s : State) (p : Packet) (flips : Table (BitVec 160)) (hs : s.Sound F) :
    (State.sendOver s p flips).1.Sound F := by
  unfold State.sendOver
  (repeat' split) <;> simp_all (maxDischargeDepth := 40)

@[simp] theorem State.goOver_sound {F : Fix} (s : State) (p : Packet) (flips : Table (BitVec 160)) (hs : s.Sound F) :
    optSound F (State.goOver s p flips) := by
  unfold State.goOver
  (repeat' split) <;> simp_all (maxDischargeDepth := 40)

theorem State.goOver_some {F : Fix} (s : State) (p : Packet) (flips : Table (BitVec 160)) (hs : s.Sound F) (z : State) (ez : (State.goOver s p flips) = some z) : z.Sound F := by
  have h := State.goOver_sound (F := F) s p flips hs
  rw [ez] at h; exact h

@[simp] theorem State.hopFlight_sound {F : Fix} (s : State) (i : Nat) (flips : Table (BitVec 160)) (hs :
    s.Sound F) :
    (State.hopFlight s i flips).Sound F := by
  simp only [State.hopFlight]
  (repeat' split) <;> simp_all (maxDischargeDepth := 40)

@[simp] theorem State.launch_sound {F : Fix} (s : State) (p : Packet) (flips : Table (BitVec 160)) (hs : s.Sound F) :
    optSound F (State.launch s p flips) := by
  unfold State.launch
  grind [sound_foldl, optSound, outSound, sound_ok, sound_mk, outSound_unitOk, ok_reg, ok_glob, ok_dram, ok_mram, State.receive_sound, State.fly_sound]

theorem State.launch_some {F : Fix} (s : State) (p : Packet) (flips : Table (BitVec 160)) (hs : s.Sound F) (z : State) (ez : (State.launch s p flips) = some z) : z.Sound F := by
  have h := State.launch_sound (F := F) s p flips hs
  rw [ez] at h; exact h

@[simp] theorem State.launchUnder_sound {F : Fix} (s : State) (h : Holder) (p : Packet) (flips : Table (BitVec 160))
    (hs : s.Sound F) : optSound F (State.launchUnder s h p flips) := by
  unfold State.launchUnder
  cases e : s.spend h p with
  | none => simp
  | some r => exact State.launch_sound _ _ _ (State.spend_sound _ _ _ hs _ e)

theorem State.launchUnder_some {F : Fix} (s : State) (h : Holder) (p : Packet) (flips : Table (BitVec 160))
    (hs : s.Sound F) (z : State) (ez : (State.launchUnder s h p flips) = some z) : z.Sound F := by
  have h := State.launchUnder_sound (F := F) s h p flips hs
  rw [ez] at h; exact h

@[simp] theorem State.hopFromCell_sound {F : Fix} (s : State) (pcell : Nat) (flips : Table (BitVec 160)) (hs : s.Sound F) :
    (State.hopFromCell s pcell flips).Sound F := by
  unfold State.hopFromCell
  (repeat' split) <;> simp_all (maxDischargeDepth := 40)

@[simp] theorem State.hopRequest_sound {F : Fix} (s : State) (pcell : Nat) (flips : Table (BitVec 160)) (hs : s.Sound F) :
    (State.hopRequest s pcell flips).Sound F := by
  unfold State.hopRequest
  (repeat' split) <;> simp_all (maxDischargeDepth := 40)

@[simp] theorem State.hopAnswer_sound {F : Fix} (s : State) (unit : Nat) (flips : Table (BitVec 160)) (hs : s.Sound F) :
    (State.hopAnswer s unit flips).Sound F := by
  simp only [State.hopAnswer]
  (repeat' split) <;> simp_all (maxDischargeDepth := 40)

@[simp] theorem State.hopFromRoot_sound {F : Fix} (s : State) (i : Nat) (flips : Table (BitVec 160)) (hs : s.Sound F) :
    (State.hopFromRoot s i flips).Sound F := by
  unfold State.hopFromRoot
  (repeat' split) <;> simp_all (maxDischargeDepth := 40)

@[simp] theorem State.hopEgress_sound {F : Fix} (s : State) (cloud i : Nat) (flips : Table (BitVec 160)) (hs : s.Sound F) :
    (s.hopEgress cloud i flips).Sound F := by
  unfold State.hopEgress
  split
  · exact hs
  · rename_i p _
    dsimp only
    have h1 := State.modCloud_sound (F := F) s cloud (fun k => { k with egressB := k.egressB.eraseIdx i }) hs
    split
    · exact hs
    · split
      · exact State.sinkPacket_sound _ _ _ h1
      · split
        · exact hs
        · rename_i h
          have ht := State.giveBack_sound _ p.credit (State.spend_sound _ _ _ h1 _ h)
          split
          · exact State.ingressArrive_sound _ _ _ ht
          · split
            · exact hs
            · exact getD_sound hs (State.goOver_sound _ _ _ (State.served_sound _ _ ht))

@[simp] theorem State.hopIngress_sound {F : Fix} (s : State) (cloud i : Nat) (hs : s.Sound F) :
    (s.hopIngress cloud i).Sound F := by
  have take : ∀ (p q : Packet) (t u : State) (b : Bool) (h : Holder),
      (if b = true then s.spend h p else some (s, p)) = some (t, q) → t.Sound F := by
    intro p q t u b h e
    split at e
    · exact State.spend_sound _ _ _ hs _ e
    · cases e; exact hs
  unfold State.hopIngress
  split
  · exact hs
  · dsimp only
    split
    · exact hs
    · split
      · exact hs
      · rename_i t q e
        have h := fun f => State.modCloud_sound t cloud f (take _ _ _ s _ _ e)
        apply State.fly_sound
        apply State.probe_sound
        apply State.served_sound
        split
        · exact State.giveBack_sound _ _ (h _)
        · exact h _

theorem execFlitHop_sound {F : Fix} (sel : HopSel) (index : Nat) (flips : Table (BitVec 160)) (s : State)
    (hs : s.Sound F) : outSound F (execFlitHop sel index flips s) := by
  unfold execFlitHop
  (repeat' split) <;> simp_all (maxDischargeDepth := 40)

@[simp] theorem State.slotFree_sound {F : Fix} (s : State) (c : Credit) (hs : s.Sound F) :
    (State.slotFree s c).Sound F := by
  unfold State.slotFree
  (repeat' split) <;> simp_all (maxDischargeDepth := 40)

theorem execCreditReturn_sound {F : Fix} (index : Nat) (s : State) (hs : s.Sound F) :
    outSound F (execCreditReturn index s) := by
  unfold execCreditReturn
  (repeat' split) <;> simp_all (maxDischargeDepth := 40)

theorem execCreditTimeout_sound {F : Fix} (index : Nat) (s : State) (hs : s.Sound F) :
    outSound F (execCreditTimeout index s) := by
  unfold execCreditTimeout
  (repeat' split) <;> simp_all (maxDischargeDepth := 40)

@[simp] theorem State.cellTimeout_sound {F : Fix} (s : State) (pcell : Nat) (tag : Nat) (hs : s.Sound F) :
    (State.cellTimeout s pcell tag).Sound F := by
  simp only [State.cellTimeout]
  (repeat' split) <;> simp_all (maxDischargeDepth := 40)

@[simp] theorem State.stationTimeout_sound {F : Fix} (s : State) (st : Nat) (tag : Nat) (hs : s.Sound F) :
    (State.stationTimeout s st tag).Sound F := by
  simp only [State.stationTimeout]
  (repeat' split) <;> simp_all (maxDischargeDepth := 40)

theorem execResponseTimeout_sound {F : Fix} (from_ : Requester) (tag : Nat) (s : State) (hs : s.Sound F) :
    outSound F (execResponseTimeout from_ tag s) := by
  unfold execResponseTimeout
  (repeat' split) <;> simp_all (maxDischargeDepth := 40)

theorem execStallTimeout_sound {F : Fix} (h : Holder) (s : State) (hs : s.Sound F) :
    outSound F (execStallTimeout h s) := by
  unfold execStallTimeout
  (repeat' split) <;> simp_all (maxDischargeDepth := 40)

/-! ### Clouds -/

@[simp] theorem State.startDrain_sound {F : Fix} (s : State) (c : Nat) (cause : DrainCause) (hs : s.Sound F) :
    (State.startDrain s c cause).Sound F := by
  unfold State.startDrain
  (repeat' split) <;> simp_all (maxDischargeDepth := 40)

@[simp] theorem State.onRun_sound {F : Fix} (s : State) (c : Nat) (hs : s.Sound F) :
    (State.onRun s c).Sound F := by
  simp only [State.onRun]
  (repeat' split) <;> simp_all (maxDischargeDepth := 40)

@[simp] theorem State.toRun_sound {F : Fix} (s : State) (c : Nat) (hs : s.Sound F) :
    (State.toRun s c).Sound F := by
  unfold State.toRun
  (repeat' split) <;> simp_all (maxDischargeDepth := 40)

@[simp] theorem State.powerOff_sound {F : Fix} (s : State) (c : Nat) (hs : s.Sound F) :
    (State.powerOff s c).Sound F := by
  simp only [State.powerOff]
  (repeat' first | split | (refine sound_foldl _ _ ?_ _ ?_ <;> intros)) <;> simp_all (maxDischargeDepth := 40)

@[simp] theorem State.toParked_sound {F : Fix} (s : State) (c : Nat) (hs : s.Sound F) :
    (State.toParked s c).Sound F := by
  unfold State.toParked
  (repeat' split) <;> simp_all (maxDischargeDepth := 40)

@[simp] theorem State.place_sound {F : Fix} (s : State) (lid : Nat) (pcell : Nat) (hs : s.Sound F) :
    (State.place s lid pcell).Sound F := by
  unfold State.place
  (repeat' split) <;> simp_all (maxDischargeDepth := 40)

@[simp] theorem State.unplace_sound {F : Fix} (s : State) (lid : Nat) (hs : s.Sound F) :
    (State.unplace s lid).Sound F := by
  unfold State.unplace
  (repeat' split) <;> simp_all (maxDischargeDepth := 40)

@[simp] theorem State.finishRefills_sound {F : Fix} (s : State) (c : Nat) (hs : s.Sound F) :
    (State.finishRefills s c).Sound F := by
  simp only [State.finishRefills]
  (repeat' first | split | (refine sound_foldl _ _ ?_ _ ?_ <;> intros)) <;> simp_all (maxDischargeDepth := 40)

@[simp] theorem State.drainAction_sound {F : Fix} (s : State) (c : Nat) (d : DrainCause) (hs : s.Sound F) :
    (State.drainAction s c d).Sound F := by
  unfold State.drainAction
  (repeat' split) <;> simp_all (maxDischargeDepth := 40)

theorem execDrainComplete_sound {F : Fix} (cloud : Nat) (s : State) (hs : s.Sound F) :
    outSound F (execDrainComplete cloud s) := by
  simp only [execDrainComplete]
  (repeat' split) <;> simp_all (maxDischargeDepth := 40)

theorem execPllRelockDone_sound {F : Fix} (cloud : Nat) (s : State) (hs : s.Sound F) :
    outSound F (execPllRelockDone cloud s) := by
  simp only [execPllRelockDone]
  (repeat' split) <;> simp_all (maxDischargeDepth := 40)

@[simp] theorem State.powerUp_sound {F : Fix} (s : State) (c : Nat) (hs : s.Sound F) :
    (State.powerUp s c).Sound F := by
  unfold State.powerUp
  (repeat' split) <;> simp_all (maxDischargeDepth := 40)

@[simp] theorem State.writeCldCtrl_sound {F : Fix} (s : State) (c : Nat) (v : Word) (hs : s.Sound F) :
    (State.writeCldCtrl s c v).Sound F := by
  unfold State.writeCldCtrl
  (repeat' split) <;> simp_all (maxDischargeDepth := 40)

theorem execCldCtrlSlowWrite_sound {F : Fix} (cloud : Nat) (v : Word) (s : State) (hs : s.Sound F) :
    outSound F (execCldCtrlSlowWrite cloud v s) := by
  unfold execCldCtrlSlowWrite
  (repeat' split) <;> simp_all (maxDischargeDepth := 40)

theorem execCldCtrlKeepOnWrite_sound {F : Fix} (cloud : Nat) (v : Word) (s : State) (hs : s.Sound F) :
    outSound F (execCldCtrlKeepOnWrite cloud v s) := by
  unfold execCldCtrlKeepOnWrite
  (repeat' split) <;> simp_all (maxDischargeDepth := 40)

theorem execParkIdle_sound {F : Fix} (cloud : Nat) (s : State) (hs : s.Sound F) :
    outSound F (execParkIdle cloud s) := by
  unfold execParkIdle
  (repeat' split) <;> simp_all (maxDischargeDepth := 40)

theorem execWakeComplete_sound {F : Fix} (cloud : Nat) (s : State) (hs : s.Sound F) :
    outSound F (execWakeComplete cloud s) := by
  unfold execWakeComplete
  (repeat' split) <;> simp_all (maxDischargeDepth := 40)

theorem execPowerUpComplete_sound {F : Fix} (cloud : Nat) (s : State) (hs : s.Sound F) :
    outSound F (execPowerUpComplete cloud s) := by
  unfold execPowerUpComplete
  grind [sound_foldl, optSound, outSound, sound_ok, sound_mk, outSound_unitOk, ok_reg, ok_glob, ok_dram, ok_mram, State.modCell_sound, State.modCloud_sound, State.toRun_sound]

@[simp] theorem State.lockLost_sound {F : Fix} (s : State) (pcell : Nat) (w : WaitRec) (hs : s.Sound F) :
    (State.lockLost s pcell w).Sound F := by
  simp only [State.lockLost]
  (repeat' split) <;> simp_all (maxDischargeDepth := 40)

@[simp] theorem State.fenceLocks_sound {F : Fix} (s : State) (c : Nat) (hs : s.Sound F) :
    (State.fenceLocks s c).Sound F := by
  simp only [State.fenceLocks]
  (repeat' first | split | (refine sound_foldl _ _ ?_ _ ?_ <;> intros)) <;> simp_all (maxDischargeDepth := 40)

@[simp] theorem State.fenceCloud_sound {F : Fix} (s : State) (c : Nat) (hs : s.Sound F) :
    (State.fenceCloud s c).Sound F := by
  simp only [State.fenceCloud]
  (repeat' first | split | (refine sound_foldl _ _ ?_ _ ?_ <;> intros)) <;> simp_all (maxDischargeDepth := 40)

/-! ### Repair -/

@[simp] theorem State.noteMove_sound {F : Fix} (s : State) (lid pcell : Nat) (hs : s.Sound F) :
    (State.noteMove s lid pcell).Sound F := by
  unfold State.noteMove
  (repeat' split) <;> simp_all (maxDischargeDepth := 40)

@[simp] theorem State.logRepair_sound {F : Fix} (s : State) (kind : Nat) (target : Nat) (spare : Nat) (index : Nat) (origin : Nat) (addr : Word) (hs : s.Sound F) :
    (State.logRepair s kind target spare index origin addr).Sound F := by
  unfold State.logRepair
  (repeat' split) <;> simp_all (maxDischargeDepth := 40)

@[simp] theorem State.applySpare_sound {F : Fix} (s : State) (id : Nat) (origin : Nat) (bits : List FailBit) (line : Bool × Nat) (hs : s.Sound F) :
    (State.applySpare s id origin bits line).Sound F := by
  unfold State.applySpare
  (repeat' split) <;> simp_all (maxDischargeDepth := 40)

@[simp] theorem State.poisonMacro_sound {F : Fix} (s : State) (id : Nat) (row : Nat) (col : Nat) (hs : s.Sound F) :
    (State.poisonMacro s id row col).Sound F := by
  simp only [State.poisonMacro]
  (repeat' split) <;> simp_all (maxDischargeDepth := 40)

@[simp] theorem State.poisonFails_sound {F : Fix} (s : State) (id : Nat) (bits : List FailBit) (left : List
    FailBit) (hs : s.Sound F) :
    (State.poisonFails s id bits left).Sound F := by
  simp only [State.poisonFails]
  (repeat' first | split | (refine sound_foldl _ _ ?_ _ ?_ <;> intros)) <;> simp_all (maxDischargeDepth := 40)

@[simp] theorem State.unrepairable_sound {F : Fix} (s : State) (id : Nat) (row : Nat) (origin : Nat) (hs : s.Sound F) :
    (State.unrepairable s id row origin).Sound F := by
  simp only [State.unrepairable]
  (repeat' split) <;> simp_all (maxDischargeDepth := 40)

@[simp] theorem State.repairMacro_sound {F : Fix} (s : State) (f : MacroFail) (origin : Nat) (hs : s.Sound F) :
    (State.repairMacro s f origin).Sound F := by
  unfold State.repairMacro
  grind [sound_foldl, optSound, outSound, sound_ok, sound_mk,
    outSound_unitOk, ok_reg, ok_glob, ok_dram, ok_mram, State.applySpare_sound, State.unrepairable_sound]

@[simp] theorem State.mendMacro_sound {F : Fix} (s : State) (f : MacroFail) (origin : Nat) (hs : s.Sound F) :
    (State.mendMacro s f origin).Sound F := by
  unfold State.mendMacro
  (repeat' split) <;> simp_all (maxDischargeDepth := 40)

theorem execRollSegment_sound {F : Fix} (engine : Nat) (bits : List FailBit) (s : State) (hs : s.Sound F) :
    outSound F (execRollSegment engine bits s) := by
  unfold execRollSegment
  (repeat' split) <;> simp_all (maxDischargeDepth := 40)

/-! ### Roll -/

@[simp] theorem State.repReport_sound {F : Fix} (s : State) (source : Nat) (lid : Nat) (pcell : Nat) (hs : s.Sound
    F) :
    (State.repReport s source lid pcell).Sound F := by
  unfold State.repReport
  (repeat' split) <;> simp_all (maxDischargeDepth := 40)

@[simp] theorem State.rollSkip_sound {F : Fix} (s : State) (lid : Nat) (hs : s.Sound F) :
    (State.rollSkip s lid).Sound F := by
  unfold State.rollSkip
  (repeat' split) <;> simp_all (maxDischargeDepth := 40)

@[simp] theorem State.endRoll_sound {F : Fix} (s : State) (hs : s.Sound F) :
    (State.endRoll s).Sound F := by
  unfold State.endRoll
  (repeat' split) <;> simp_all (maxDischargeDepth := 40)

@[simp] theorem State.beginRoll_sound {F : Fix} (s : State) (lid : Nat) (shadow : Bool) (hs : s.Sound F) :
    (State.beginRoll s lid shadow).Sound F := by
  unfold State.beginRoll
  (repeat' split) <;> simp_all (maxDischargeDepth := 40)

theorem execRollStart_sound {F : Fix} (s : State) (hs : s.Sound F) :
    outSound F (execRollStart s) := by
  simp only [execRollStart]
  (repeat' split) <;> simp_all (maxDischargeDepth := 40)

theorem execRollDrainDone_sound {F : Fix} (s : State) (hs : s.Sound F) :
    outSound F (execRollDrainDone s) := by
  unfold execRollDrainDone
  (repeat' split) <;> simp_all (maxDischargeDepth := 40)

theorem execRollDrainTimeout_sound {F : Fix} (s : State) (hs : s.Sound F) :
    outSound F (execRollDrainTimeout s) := by
  unfold execRollDrainTimeout
  (repeat' split) <;> simp_all (maxDischargeDepth := 40)

@[simp] theorem State.drainBoth_sound {F : Fix} (s : State) (hs : s.Sound F) :
    (State.drainBoth s).Sound F := by
  unfold State.drainBoth
  (repeat' split) <;> simp_all (maxDischargeDepth := 40)

theorem execRollCopyDone_sound {F : Fix} (s : State) (hs : s.Sound F) :
    outSound F (execRollCopyDone s) := by
  unfold execRollCopyDone
  (repeat' split) <;> simp_all (maxDischargeDepth := 40)

@[simp] theorem State.replyTo_sound {F : Fix} (s : State) (status : Byte) (data : List Byte) (hs : s.Sound F) :
    (State.replyTo s status data).Sound F := by
  unfold State.replyTo
  (repeat' split) <;> simp_all (maxDischargeDepth := 40)

theorem execMoveEntry_sound {F : Fix} (old : Nat) (new : Nat) (index : Nat) (s : State) (hs : s.Sound F) :
    outSound F (execMoveEntry old new index s) := by
  unfold execMoveEntry
  (repeat' split) <;> simp_all (maxDischargeDepth := 40)

theorem execMoveSpill_sound {F : Fix} (lid : Nat) (level : Nat) (index : Nat) (s : State) (hs : s.Sound F) :
    outSound F (execMoveSpill lid level index s) := by
  simp only [execMoveSpill]
  (repeat' split) <;> simp_all (maxDischargeDepth := 40)

theorem execMoveState_sound {F : Fix} (old : Nat) (new : Nat) (part : Nat) (off : Nat) (s : State) (hs : s.Sound F)
    :
    outSound F (execMoveState old new part off s) := by
  unfold execMoveState
  (repeat' split) <;> simp_all (maxDischargeDepth := 40)

@[simp] theorem State.readdress_sound {F : Fix} (s : State) (lid : Nat) (old : Nat) (new : Nat) (hs : s.Sound F) :
    (State.readdress s lid old new).Sound F := by
  simp only [State.readdress]
  (repeat' first | split | (refine sound_foldl _ _ ?_ _ ?_ <;> intros)) <;> simp_all (maxDischargeDepth := 40)

@[simp] theorem State.switchCell_sound {F : Fix} (s : State) (lid : Nat) (old : Nat) (new : Nat) (hs : s.Sound F) :
    (State.switchCell s lid old new).Sound F := by
  unfold State.switchCell
  grind [sound_foldl, optSound, outSound, sound_ok, sound_mk,
    outSound_unitOk, ok_reg, ok_glob, ok_dram, ok_mram, State.place_sound, State.modCell_sound,
        State.modCloud_sound, State.readdress_sound]

@[simp] theorem State.runBoth_sound {F : Fix} (s : State) (hs : s.Sound F) :
    (State.runBoth s).Sound F := by
  unfold State.runBoth
  (repeat' split) <;> simp_all (maxDischargeDepth := 40)

theorem execMoveDone_sound {F : Fix} (old : Nat) (new : Nat) (s : State) (hs : s.Sound F) :
    outSound F (execMoveDone old new s) := by
  unfold execMoveDone
  (repeat' split) <;> simp_all (maxDischargeDepth := 40)

@[simp] theorem State.rollFail_sound {F : Fix} (s : State) (logic : Bool) (hs : s.Sound F) :
    (State.rollFail s logic).Sound F := by
  unfold State.rollFail
  (repeat' split) <;> simp_all (maxDischargeDepth := 40)

theorem execRollTestDone_sound {F : Fix} (passed : Bool) (macros : List MacroFail) (s : State) (hs : s.Sound F) :
    outSound F (execRollTestDone passed macros s) := by
  unfold execRollTestDone
  grind [sound_foldl, optSound, outSound, sound_ok, sound_mk, outSound_unitOk, ok_reg, ok_glob, ok_dram, ok_mram, Ctx.next_sound, State.mendMacro_sound, State.rollFail_sound, State.drainBoth_sound]

theorem execQuietSpanStart_sound {F : Fix} (s : State) (hs : s.Sound F) :
    outSound F (execQuietSpanStart s) := by
  unfold execQuietSpanStart
  (repeat' split) <;> simp_all (maxDischargeDepth := 40)

theorem execShadowCopyDone_sound {F : Fix} (s : State) (hs : s.Sound F) :
    outSound F (execShadowCopyDone s) := by
  unfold execShadowCopyDone
  (repeat' split) <;> simp_all (maxDischargeDepth := 40)

@[simp] theorem State.abandonRoll_sound {F : Fix} (s : State) (hs : s.Sound F) :
    (State.abandonRoll s).Sound F := by
  unfold State.abandonRoll
  (repeat' split) <;> simp_all (maxDischargeDepth := 40)

@[simp] theorem State.rollFenced_sound {F : Fix} (s : State) (hit : Nat → Bool) (hs : s.Sound F) :
    (State.rollFenced s hit).Sound F := by
  unfold State.rollFenced
  (repeat' split) <;> simp_all (maxDischargeDepth := 40)

end Sys2Proof.Machine
end

