-- ==== Sys2Proof/Laws/SoundModes.lean ====
section
/-! SUPPORT. Soundness (SoundBase): what the collector, the pairs, the set-up space, the start and the load keep. One lemma per operation. -/

set_option linter.all false

namespace Sys2Proof.Machine

/-! ### Image -/

@[simp] theorem State.modLid_sound {F : Fix} (s : State) (lid : Nat) (f : Cell → Cell) (hs : s.Sound F) :
    (State.modLid s lid f).Sound F := by
  unfold State.modLid
  (repeat' split) <;> simp_all (maxDischargeDepth := 40)

@[simp] theorem State.putTables_sound {F : Fix} (s : State) (g : Img) (x : Sched) (p : Nat) (bankB : Bool) (hs :
    s.Sound F) :
    (State.putTables s g x p bankB).Sound F := by
  simp only [State.putTables]
  (repeat' first | split | (refine sound_foldl _ _ ?_ _ ?_ <;> intros)) <;> simp_all (maxDischargeDepth := 40)

@[simp] theorem State.putRoots_sound {F : Fix} (s : State) (g : Img) (x : Sched) (p : Nat) (bankB : Bool) (hs :
    s.Sound F) :
    (State.putRoots s g x p bankB).Sound F := by
  unfold State.putRoots
  (repeat' split) <;> simp_all (maxDischargeDepth := 40)

@[simp] theorem State.putPreset_sound {F : Fix} (s : State) (v : Nat) (hs : s.Sound F) :
    (State.putPreset s v).Sound F := by
  simp only [State.putPreset]
  (repeat' first | split | (refine sound_foldl _ _ ?_ _ ?_ <;> intros)) <;> simp_all (maxDischargeDepth := 40)

@[simp] theorem State.restorePresets_sound {F : Fix} (s : State) (p : Nat) (hs : s.Sound F) :
    (State.restorePresets s p).Sound F := by
  simp only [State.restorePresets]
  (repeat' first | split | (refine sound_foldl _ _ ?_ _ ?_ <;> intros)) <;> simp_all (maxDischargeDepth := 40)

@[simp] theorem State.putRecords_sound {F : Fix} (s : State) (rs : List (List Word)) (hs : s.Sound F) :
    (State.putRecords s rs).Sound F := by
  simp only [State.putRecords]
  (repeat' first | split | (refine sound_foldl _ _ ?_ _ ?_ <;> intros)) <;> simp_all (maxDischargeDepth := 40)

@[simp] theorem State.refillCell_sound {F : Fix} (s : State) (lid : Nat) (hs : s.Sound F) :
    (State.refillCell s lid).Sound F := by
  unfold State.refillCell
  (repeat' split) <;> simp_all (maxDischargeDepth := 40)

/-! ### Faults -/

@[simp] theorem State.setPending_sound {F : Fix} (s : State) (n : Nat) (hs : s.Sound F) :
    (State.setPending s n).Sound F := by
  unfold State.setPending
  (repeat' split) <;> simp_all (maxDischargeDepth := 40)

@[simp] theorem State.logFault_sound {F : Fix} (s : State) (info : Word) (addr : Word) (syn : Word) (mode : Nat)
    (first : Bool) (safe : Bool) (hs : s.Sound F) :
    (State.logFault s info addr syn mode first safe).Sound F := by
  unfold State.logFault
  (repeat' split) <;> simp_all (maxDischargeDepth := 40)

@[simp] theorem State.scanFaultLog_sound {F : Fix} (s : State) (hs : s.Sound F) :
    (State.scanFaultLog s).Sound F := by
  simp only [State.scanFaultLog]
  (repeat' split) <;> simp_all (maxDischargeDepth := 40)

@[simp] theorem State.refuseStarts_sound {F : Fix} (s : State) (pcell : Nat) (hs : s.Sound F) :
    (State.refuseStarts s pcell).Sound F := by
  unfold State.refuseStarts
  grind [sound_foldl, optSound, outSound, sound_ok, sound_mk, outSound_unitOk, ok_reg, ok_glob, ok_dram, ok_mram, State.modCell_sound, State.giveBack_sound, State.refuseStart_sound, State.refusePrefetch_sound]

@[simp] theorem State.abortCell_sound {F : Fix} (s : State) (pcell : Nat) (hs : s.Sound F) :
    (State.abortCell s pcell).Sound F := by
  have stops : ∀ (l : List Strand) (t : State), t.Sound F → (l.foldl (fun s x => s.stopStrand pcell x) t).Sound F :=
    fun l t ht => sound_foldl _ _ (fun t x h => State.stopStrand_sound _ _ _ h) _ ht
  unfold State.abortCell
  dsimp only
  split
  · exact State.modCell_sound _ _ _ (sound_foldl _ _ (fun t x h => State.releaseLocks_sound _ _ _ _ h) _ (stops _ _ hs))
  · refine State.refuseStarts_sound _ _ (sound_foldl _ _ (fun t x h => State.frameCheck_sound _ _ _ _ h) _ (stops _ _ ?_))
    exact sound_foldl _ _ (fun t x h => getD_sound h (State.abortActivation_sound _ _ _ _ h)) _
      (State.modCell_sound _ _ _ hs)

@[simp] theorem State.faultLevel_sound {F : Fix} (s : State) (n : Nat) (hs : s.Sound F) :
    (State.faultLevel s n).Sound F := by
  unfold State.faultLevel
  (try dsimp only)
  (repeat' first | with_reducible assumption | split | with_reducible apply outSound_unitOk | with_reducible rw [outSound_next] | with_reducible apply State.modPin_sound | with_reducible apply State.drivePin_sound | (with_reducible apply sound_foldl <;> intros) | (rw [sound_mk]; with_reducible apply sound_ok) | with_reducible apply ok_reg | simp [outSound, optSound])

@[simp] theorem State.faultPartition_sound {F : Fix} (s : State) (p : Nat) (hs : s.Sound F) :
    (State.faultPartition s p).Sound F := by
  have stops : ∀ (l : List Nat) (t : State), t.Sound F → (l.foldl (fun (s : State) pc => s.abortCell pc) t).Sound F :=
    fun l t ht => sound_foldl _ _ (fun t x h => State.abortCell_sound _ _ h) _ ht
  unfold State.faultPartition
  refine State.settle_sound _ (sound_foldl _ _ (fun t n h => ?_) _ ?_)
  · exact sound_if (State.faultLevel_sound _ _ h) h
  · refine sound_if (State.modPart_sound _ _ _ (stops _ _ hs)) (State.returnAll_sound _ ?_)
    exact sound_foldl _ _ (fun t f h => State.discardPending_sound _ _ h) _ (stops _ _ hs)

@[simp] theorem State.breakPair_sound {F : Fix} (s : State) (lid : Nat) (hs : s.Sound F) :
    (State.breakPair s lid).Sound F := by
  unfold State.breakPair
  (repeat' split) <;> simp_all (maxDischargeDepth := 40)

@[simp] theorem State.ownerGone_sound {F : Fix} (s : State) (lid : Nat) (hs : s.Sound F) :
    (State.ownerGone s lid).Sound F := by
  simp only [State.ownerGone]
  (repeat' first | split | (refine sound_foldl _ _ ?_ _ ?_ <;> intros)) <;> simp_all (maxDischargeDepth := 40)

@[simp] theorem State.stopFenced_sound {F : Fix} (s : State) (pcell : Nat) (hs : s.Sound F) :
    (State.stopFenced s pcell).Sound F :=
  State.rollFenced_sound _ _ (State.modCell_sound _ _ _ (State.abortCell_sound _ _ hs))

@[simp] theorem State.loseLid_sound {F : Fix} (s : State) (l pcell : Nat) (hs : s.Sound F) :
    (State.loseLid s l pcell).Sound F := by
  simp only [State.loseLid]
  (repeat' split) <;> simp_all (maxDischargeDepth := 40)

@[simp] theorem State.fenceCell_sound {F : Fix} (s : State) (pcell : Nat) (hs : s.Sound F) :
    (State.fenceCell s pcell).Sound F := by
  have refills : ∀ (l : List Nat) (t : State), t.Sound F → (l.foldl (fun (s : State) x => s.refillCell x) t).Sound F :=
    fun l t ht => sound_foldl _ _ (fun t x h => State.refillCell_sound _ _ h) _ ht
  have stop : ∀ t : State, t.Sound F → (t.stopFenced pcell).Sound F := fun t h => State.stopFenced_sound t _ h
  unfold State.fenceCell
  split
  · exact hs
  · dsimp only
    split
    · exact sound_if (refills _ _ (stop _ hs)) (stop _ hs)
    · exact State.loseLid_sound _ _ _ (stop _ hs)

@[simp] theorem State.fenceStation_sound {F : Fix} (s : State) (i : Nat) (hs : s.Sound F) :
    (State.fenceStation s i).Sound F := by
  simp only [State.fenceStation]
  (repeat' first | split | (refine sound_foldl _ _ ?_ _ ?_ <;> intros)) <;> simp_all (maxDischargeDepth := 40)

@[simp] theorem State.fence_sound {F : Fix} (s : State) (u : FenceUnit) (hs : s.Sound F) :
    (State.fence s u).Sound F := by
  unfold State.fence
  grind [sound_foldl, optSound, outSound, sound_ok, sound_mk, outSound_unitOk, ok_reg, ok_glob, ok_dram, ok_mram, State.fenceCell_sound, State.fenceCloud_sound, State.rollFenced_sound, State.fenceStation_sound, State.dropPort_sound, State.modPort_sound, State.settle_sound]

@[simp] theorem State.enterSafe_sound {F : Fix} (s : State) (cause : Nat) (info : Word) (addr : Word) (syn : Word)
    (hs : s.Sound F) :
    (State.enterSafe s cause info addr syn).Sound F := by
  unfold State.enterSafe
  (repeat' split) <;> simp_all (maxDischargeDepth := 40)

@[simp] theorem State.putRecord_sound {F : Fix} (s : State) (c : Nat) (info : Word) (addr : Word) (syn : Word) (hs
    : s.Sound F) :
    (State.putRecord s c info addr syn).Sound F := by
  unfold State.putRecord
  (repeat' split) <;> simp_all (maxDischargeDepth := 40)

@[simp] theorem State.react_sound {F : Fix} (s : State) (code source : Nat) (d : Details) (info : Word)
    (hs : s.Sound F) : (s.react code source d info).Sound F := by
  unfold State.react
  split
  · split
    · exact getD_sound hs (State.abortActivation_sound _ _ _ _ hs)
    · exact hs
  · split
    · exact State.fence_sound _ _ hs
    · exact hs
  · split
    · exact State.faultPartition_sound _ _ hs
    · exact hs
  · exact State.enterSafe_sound _ _ _ _ _ hs
  · exact hs

@[simp] theorem State.collect_sound {F : Fix} (s : State) (source : Nat) (details : Option Details) (wire : Bool)
    (hs : s.Sound F) :
    (State.collect s source details wire).Sound F := by
  unfold State.collect
  (repeat' split) <;> simp_all (maxDischargeDepth := 40)

@[simp] theorem State.raisedEffect_sound {F : Fix} (s : State) (source : Nat) (d : Details) (hs : s.Sound F) :
    (State.raisedEffect s source d).Sound F := by
  simp only [State.raisedEffect]
  (repeat' split) <;> simp_all (maxDischargeDepth := 40)

@[simp] theorem State.queueReport_sound {F : Fix} (s : State) (source : Nat) (details : Option Details) (wire : Bool) (hs : s.Sound F) :
    (State.queueReport s source details wire).Sound F := by
  unfold State.queueReport
  (repeat' split) <;> simp_all (maxDischargeDepth := 40)

@[simp] theorem State.collectNext_sound {F : Fix} (s : State) (hs : s.Sound F) :
    (State.collectNext s).Sound F := by
  unfold State.collectNext
  (repeat' split) <;> simp_all (maxDischargeDepth := 40)

@[simp] theorem State.safeLineBroken_sound {F : Fix} (s : State) (hs : s.Sound F) :
    (State.safeLineBroken s).Sound F := by
  unfold State.safeLineBroken
  (repeat' split) <;> simp_all (maxDischargeDepth := 40)

theorem execFaultReport_sound {F : Fix} (r : ReportSel) (s : State) (hs : s.Sound F) :
    outSound F (execFaultReport r s) := by
  unfold execFaultReport
  (repeat' split) <;> simp_all (maxDischargeDepth := 40)

theorem execBrokenWire_sound {F : Fix} (w : WireSel) (s : State) (hs : s.Sound F) :
    outSound F (execBrokenWire w s) := by
  unfold execBrokenWire
  (repeat' split) <;> simp_all (maxDischargeDepth := 40)

@[simp] theorem State.barrierHeals_sound {F : Fix} (s : State) (n : Nat) (hs : s.Sound F) :
    (State.barrierHeals s n).Sound F := by
  unfold State.barrierHeals
  (repeat' split) <;> simp_all (maxDischargeDepth := 40)

theorem execSourceHealthy_sound {F : Fix} (w : WireSel) (s : State) (hs : s.Sound F) :
    outSound F (execSourceHealthy w s) := by
  unfold execSourceHealthy
  (repeat' split) <;> simp_all (maxDischargeDepth := 40)

@[simp] theorem State.sense_sound {F : Fix} (s : State) (source : Nat) (on : Bool) (master : BitVec 10) (addr :
    Word) (syn : Word) (hs : s.Sound F) :
    (State.sense s source on master addr syn).Sound F := by
  unfold State.sense
  (repeat' split) <;> simp_all (maxDischargeDepth := 40)

theorem execTemperatureThreshold_sound {F : Fix} (t : BitVec 8) (s : State) (hs : s.Sound F) :
    outSound F (execTemperatureThreshold t s) := by
  unfold execTemperatureThreshold
  (repeat' split) <;> simp_all (maxDischargeDepth := 40)

theorem execPllUnlock_sound {F : Fix} (cloud : Option Nat) (s : State) (hs : s.Sound F) :
    outSound F (execPllUnlock cloud s) := by
  unfold execPllUnlock
  (repeat' split) <;> simp_all (maxDischargeDepth := 40)

theorem execReferenceLoss_sound {F : Fix} (s : State) (hs : s.Sound F) :
    outSound F (execReferenceLoss s) := by
  unfold execReferenceLoss
  (repeat' split) <;> simp_all (maxDischargeDepth := 40)

theorem execFaultNReadback_sound {F : Fix} (s : State) (hs : s.Sound F) :
    outSound F (execFaultNReadback s) := by
  unfold execFaultNReadback
  (repeat' split) <;> simp_all (maxDischargeDepth := 40)

@[simp] theorem State.writeFltPend_sound {F : Fix} (s : State) (i : Nat) (v : Word) (hs : s.Sound F) :
    (State.writeFltPend s i v).Sound F := by
  simp only [State.writeFltPend]
  (repeat' first | split | (refine sound_foldl _ _ ?_ _ ?_ <;> intros)) <;> simp_all (maxDischargeDepth := 40)

theorem execFltPendWrite_sound {F : Fix} (i : Nat) (v : Word) (s : State) (hs : s.Sound F) :
    outSound F (execFltPendWrite i v s) := by
  unfold execFltPendWrite
  (repeat' split) <;> simp_all (maxDischargeDepth := 40)

@[simp] theorem State.writeFltRec_sound {F : Fix} (s : State) (c : Nat) (v : Word) (hs : s.Sound F) :
    (State.writeFltRec s c v).Sound F := by
  unfold State.writeFltRec
  (try dsimp only)
  (repeat' first | with_reducible assumption | split | with_reducible apply outSound_unitOk | with_reducible rw [outSound_next] | with_reducible apply State.setReg_sound | (with_reducible apply sound_foldl <;> intros) | (rw [sound_mk]; with_reducible apply sound_ok) | with_reducible apply ok_reg | simp [outSound, optSound])

theorem execFltRecInfoWrite_sound {F : Fix} (c : Nat) (v : Word) (s : State) (hs : s.Sound F) :
    outSound F (execFltRecInfoWrite c v s) := by
  unfold execFltRecInfoWrite
  (repeat' split) <;> simp_all (maxDischargeDepth := 40)

@[simp] theorem State.writeFltSrc_sound {F : Fix} (s : State) (n : Nat) (v : Word) (hs : s.Sound F) :
    (State.writeFltSrc s n v).Sound F := by
  unfold State.writeFltSrc
  (repeat' split) <;> simp_all (maxDischargeDepth := 40)

theorem execFltSrcWrite_sound {F : Fix} (n : Nat) (v : Word) (s : State) (hs : s.Sound F) :
    outSound F (execFltSrcWrite n v s) := by
  unfold execFltSrcWrite
  (repeat' split) <;> simp_all (maxDischargeDepth := 40)

@[simp] theorem State.fltStatus_sound {F : Fix} (s : State) (x : Nat) (hs : s.Sound F) :
    (State.fltStatus s x).Sound F := by
  unfold State.fltStatus
  (repeat' split) <;> simp_all (maxDischargeDepth := 40)

@[simp] theorem State.clearCounts_sound {F : Fix} (s : State) (hs : s.Sound F) :
    (State.clearCounts s).Sound F := by
  unfold State.clearCounts
  (try dsimp only)
  (repeat' first | with_reducible assumption | split | with_reducible apply outSound_unitOk | with_reducible rw [outSound_next] | with_reducible apply State.setRegF_sound | with_reducible apply State.fltStatus_sound | (with_reducible apply sound_foldl <;> intros) | (rw [sound_mk]; with_reducible apply sound_ok) | with_reducible apply ok_reg | simp [outSound, optSound])

theorem execFltClearCounts_sound {F : Fix} (s : State) (hs : s.Sound F) :
    outSound F (execFltClearCounts s) := by
  unfold execFltClearCounts
  (repeat' split) <;> simp_all (maxDischargeDepth := 40)

@[simp] theorem State.wipeTokens_sound {F : Fix} (s : State) (p : Nat) (hs : s.Sound F) :
    (State.wipeTokens s p).Sound F := by
  simp only [State.wipeTokens]
  (repeat' first | split | (refine sound_foldl _ _ ?_ _ ?_ <;> intros)) <;> simp_all (maxDischargeDepth := 40)

@[simp] theorem State.restartPart_sound {F : Fix} (s : State) (p : Nat) (hs : s.Sound F) :
    (State.restartPart s p).Sound F := by
  unfold State.restartPart
  (try dsimp only)
  (repeat' first | with_reducible assumption | split | with_reducible apply outSound_unitOk | with_reducible rw [outSound_next] | with_reducible apply State.wipeTokens_sound | with_reducible apply State.setFlowW_sound | with_reducible apply State.putRecords_sound | with_reducible apply State.restorePresets_sound | with_reducible apply State.modCells_sound | with_reducible apply State.modPart_sound | with_reducible apply State.settle_sound | (with_reducible apply sound_foldl <;> intros) | (rw [sound_mk]; with_reducible apply sound_ok) | with_reducible apply ok_reg | simp [outSound, optSound])

@[simp] theorem State.restart_sound {F : Fix} (s : State) (p : Nat) (hs : s.Sound F) :
    (State.restart s p).Sound F := by
  simp only [State.restart]
  (repeat' split) <;> simp_all (maxDischargeDepth := 40)

theorem execRestart_sound {F : Fix} (p : BitVec 3) (s : State) (hs : s.Sound F) :
    outSound F (execRestart p s) := by
  unfold execRestart
  (repeat' split) <;> simp_all (maxDischargeDepth := 40)

/-! ### Pairs -/

@[simp] theorem State.toHalf_sound {F : Fix} (s : State) (lid : Nat) (vc : Vc) (c : Cargo) (hs : s.Sound F) :
    (State.toHalf s lid vc c).Sound F := by
  unfold State.toHalf
  (repeat' split) <;> simp_all (maxDischargeDepth := 40)

@[simp] theorem State.ackOutput_sound {F : Fix} (s : State) (q : PairPacket) (checkerLid : Nat) (hs : s.Sound F) :
    (State.ackOutput s q checkerLid).Sound F := by
  unfold State.ackOutput
  (repeat' split) <;> simp_all (maxDischargeDepth := 40)

theorem State.stationTake_sound {F : Fix} (s : State) (st : Nat) (p : Packet → Bool) (hs : s.Sound F) :
    ∀ z, s.stationTake st p = some z → z.2.Sound F := by
  intro z hz
  unfold State.stationTake at hz
  cases e : takeFirst p (s.station st).inQ with
  | none => simp [e] at hz
  | some r =>
    simp only [e, Option.map_some, Option.some.injEq] at hz
    subst hz
    exact State.modStation_sound _ _ _ hs

theorem execPairToken_sound {F : Fix} (station : Nat) (s : State) (hs : s.Sound F) :
    outSound F (execPairToken station s) := by
  unfold execPairToken
  apply outSound_unitOk hs
  split
  · exact hs
  · split
    · exact hs
    · rename_i h
      have h1 := State.stationTake_sound _ _ _ hs _ h
      split
      · exact hs
      · dsimp only
        split
        · exact State.sink_sound _ _ _ h1
        · split
          · exact h1
          · split
            · exact State.pairReport_sound _ _ _ _ _ _ h1
            · exact State.toHalf_sound _ _ _ _ (State.toHalf_sound _ _ _ _ h1)

@[simp] theorem State.forwardPair_sound {F : Fix} (s : State) (st : Nat) (a b : PairPacket) (sender : Nat)
    (hs : s.Sound F) : optSound F (s.forwardPair st a b sender) := by
  unfold State.forwardPair
  dsimp only
  split
  · split
    · simp
    · rw [optSound_some]
      exact State.modStation_sound _ _ _ (State.rootSend_sound _ _ hs)
  · generalize (if a.checker = true then b else a) = m
    cases m.msg with
    | none => simp
    | some y => exact State.rootSend_sound _ _ hs

theorem State.forwardPair_some {F : Fix} (s : State) (st : Nat) (a b : PairPacket) (sender : Nat)
    (hs : s.Sound F) (z : State) (ez : s.forwardPair st a b sender = some z) : z.Sound F := by
  have h := State.forwardPair_sound (F := F) s st a b sender hs
  rw [ez] at h; exact h

@[simp] theorem State.comparePair_sound {F : Fix} (s : State) (st j checkerLid : Nat) (q : PairPacket)
    (cmpFault : CmpFault) (hs : s.Sound F) : optSound F (s.comparePair st j checkerLid q cmpFault) := by
  unfold State.comparePair
  dsimp only
  split
  · exact State.ackOutput_sound _ _ _ (State.pairFault_sound _ _ _ _ _ _ _ hs)
  · split
    · exact State.modStation_sound _ _ _ hs
    · rename_i e rest _
      have hf := State.ackOutput_sound _ q checkerLid (State.ackOutput_sound _ e.packet checkerLid
        (State.modStation_sound s st (fun x => x.setWindow (!q.checker) rest) hs))
      have hr := State.pairReport_sound _ srcPairCmp st q.pid.toNat q.fseq q.n hf
      split
      · apply State.pairFault_sound
        split
        · exact hf
        · exact hr
      · split
        · have h2 := State.forwardPair_sound _ st e.packet q ((s.placeOf q.pid.toNat).getD 0x3FF) hf
          revert h2
          generalize State.forwardPair _ _ _ _ _ = o
          intro h2
          cases o with
          | none => simp
          | some y => exact State.bump_sound _ _ h2
        · exact State.bump_sound _ _ hr

@[simp] theorem State.discardPair_sound {F : Fix} (s : State) (st : Nat) (checkerLid : Nat) (q : PairPacket) (hs :
    s.Sound F) :
    (State.discardPair s st checkerLid q).Sound F := by
  unfold State.discardPair
  (repeat' split) <;> simp_all (maxDischargeDepth := 40)

theorem execPairPacket_sound {F : Fix} (station : Nat) (cmpFault : CmpFault) (s : State) (hs : s.Sound F) :
    outSound F (execPairPacket station cmpFault s) := by
  unfold execPairPacket
  apply outSound_unitOk hs
  split
  · exact hs
  · split
    · rename_i h
      have h1 := State.stationTake_sound _ _ _ hs _ h
      split
      · split
        · exact h1
        · split
          · exact State.discardPair_sound _ _ _ _ h1
          · split
            · exact State.toHalf_sound _ _ _ _ h1
            · split
              · exact State.bump_sound _ _ (State.ackOutput_sound _ _ _ h1)
              · exact getD_sound hs (State.comparePair_sound _ _ _ _ _ _ h1)
      · exact hs
    · exact hs

theorem execPairWindowTimeout_sound {F : Fix} (station : Nat) (checker : Bool) (index : Nat) (s : State) (hs :
    s.Sound F) :
    outSound F (execPairWindowTimeout station checker index s) := by
  simp only [execPairWindowTimeout]
  (repeat' split) <;> simp_all (maxDischargeDepth := 40)

theorem execStationResponse_sound {F : Fix} (station : Nat) (s : State) (hs : s.Sound F) :
    outSound F (execStationResponse station s) := by
  unfold execStationResponse
  (repeat' split) <;> simp_all (maxDischargeDepth := 40)

@[simp] theorem State.trapAgreed_sound {F : Fix} (s : State) (st : Nat) (checkerLid : Nat) (q : PairPacket) (hs :
    s.Sound F) :
    (State.trapAgreed s st checkerLid q).Sound F := by
  simp only [State.trapAgreed]
  (repeat' first | split | (refine sound_foldl _ _ ?_ _ ?_ <;> intros)) <;> simp_all (maxDischargeDepth := 40)

theorem execTrapNotice_sound {F : Fix} (station : Nat) (s : State) (hs : s.Sound F) :
    outSound F (execTrapNotice station s) := by
  unfold execTrapNotice
  apply outSound_unitOk hs
  split
  · exact hs
  · split
    · rename_i h
      have h1 := State.stationTake_sound _ _ _ hs _ h
      split
      · split
        · exact h1
        · split
          · exact h1
          · split
            · exact State.modStation_sound _ _ _ h1
            · dsimp only
              split
              · exact State.trapAgreed_sound _ _ _ _ (State.modStation_sound _ _ _ h1)
              · exact State.pairFault_sound _ _ _ _ _ _ _ (State.modStation_sound _ _ _ h1)
      · exact hs
    · exact hs

theorem execDebugStop_sound {F : Fix} (station : Nat) (s : State) (hs : s.Sound F) :
    outSound F (execDebugStop station s) := by
  unfold execDebugStop
  apply outSound_unitOk hs
  split
  · rename_i h
    have h1 := State.stationTake_sound _ _ _ hs _ h
    split
    · split
      · exact h1
      · split
        · exact h1
        · split
          · exact h1
          · exact State.passAll_sound _ _ (State.modCell_sound _ _ _ h1)
    · exact hs
  · exact hs

@[simp] theorem State.debugWrite_sound {F : Fix} (s : State) (pcell : Nat) (what : Nat) (target : Nat) (rb : BitVec 14) (value : Word) (head : Bool) (hs : s.Sound F) :
    (State.debugWrite s pcell what target rb value head).Sound F := by
  unfold State.debugWrite
  grind [sound_foldl, optSound, outSound, sound_ok, sound_mk, outSound_unitOk, ok_reg, ok_glob, ok_dram, ok_mram, State.modCell_sound, State.clearPoison_sound, State.passAll_sound]

theorem execReplayRecord_sound {F : Fix} (pcell : Nat) (s : State) (hs : s.Sound F) :
    outSound F (execReplayRecord pcell s) := by
  unfold execReplayRecord
  (repeat' split) <;> simp_all (maxDischargeDepth := 40)

@[simp] theorem State.recordReplay_sound {F : Fix} (s : State) (pcell : Nat) (what : Nat) (target : Nat) (rb :
    BitVec 14) (value : Word) (head : Bool) (hs : s.Sound F) :
    (State.recordReplay s pcell what target rb value head).Sound F := by
  unfold State.recordReplay
  (repeat' split) <;> simp_all (maxDischargeDepth := 40)

/-! ### Debug -/

@[simp] theorem State.cellMessage_sound {F : Fix} (s : State) (pcell : Nat) (t : State → State) (hs : s.Sound F)
    (ht : ∀ (y0 : State), y0.Sound F → (t y0).Sound F) :
    outSound F (State.cellMessage s pcell t) := by
  unfold State.cellMessage
  (repeat' split) <;> simp_all (maxDischargeDepth := 40)

@[simp] theorem State.cleanWords_sound {F : Fix} (s : State) (memory a n : Nat) (hs : s.Sound F) :
    (State.cleanWords s memory a n).Sound F := by
  simp only [State.cleanWords]
  (repeat' first | split | (refine sound_foldl _ _ ?_ _ ?_ <;> intros)) <;> simp_all (maxDischargeDepth := 40)

@[simp] theorem State.writeStore_sound {F : Fix} (s : State) (pcell : Nat) (istore : Bool) (off : Nat) (heads :
    Nat) (bs : List Byte) (hs : s.Sound F) :
    (State.writeStore s pcell istore off heads bs).Sound F := by
  unfold State.writeStore
  (repeat' split) <;> simp_all (maxDischargeDepth := 40)

theorem execCopyBlock_sound {F : Fix} (pcell : Nat) (istore : Bool) (off : Nat) (heads : Word) (bytes : List Byte)
    (s : State) (hs : s.Sound F) :
    outSound F (execCopyBlock pcell istore off heads bytes s) := by
  unfold execCopyBlock
  (repeat' split) <;> simp_all (maxDischargeDepth := 40)

theorem execReadBlock_sound {F : Fix} (pcell : Nat) (istore : Bool) (off : Nat) (s : State) (hs : s.Sound F) :
    outSound F (execReadBlock pcell istore off s) := by
  unfold execReadBlock
  (repeat' split) <;> simp_all (maxDischargeDepth := 40)

theorem execViewSet_sound {F : Fix} (pcell : Nat) (set : Nat) (pair : Nat) (s : State) (hs : s.Sound F) :
    outSound F (execViewSet pcell set pair s) := by
  unfold execViewSet
  (repeat' split) <;> simp_all (maxDischargeDepth := 40)

theorem execViewKey_sound {F : Fix} (pcell : Nat) (flow : BitVec 12) (iteration : BitVec 16) (addr : BitVec 14) (s
    : State) (hs : s.Sound F) :
    outSound F (execViewKey pcell flow iteration addr s) := by
  unfold execViewKey
  (repeat' split) <;> simp_all (maxDischargeDepth := 40)

theorem execViewSpill_sound {F : Fix} (cloud : Nat) (cell : BitVec 4) (flow : BitVec 12) (iteration : BitVec 16)
    (addr : BitVec 14) (s : State) (hs : s.Sound F) :
    outSound F (execViewSpill cloud cell flow iteration addr s) := by
  unfold execViewSpill
  (repeat' split) <;> simp_all (maxDischargeDepth := 40)

theorem execViewSlot_sound {F : Fix} (pcell : Nat) (pair : Nat) (s : State) (hs : s.Sound F) :
    outSound F (execViewSlot pcell pair s) := by
  unfold execViewSlot
  (repeat' split) <;> simp_all (maxDischargeDepth := 40)

theorem execDbgWrite_sound {F : Fix} (pcell : Nat) (target : BitVec 2) (rb : BitVec 14) (where_ : BitVec 16) (v :
    Word) (head : Bool) (s : State) (hs : s.Sound F) :
    outSound F (execDbgWrite pcell target rb where_ v head s) := by
  unfold execDbgWrite
  (repeat' split) <;> simp_all (maxDischargeDepth := 40)

@[simp] theorem State.debugGo_sound {F : Fix} (s : State) (pcell : Nat) (rb : BitVec 14) (stepping : Bool) (hs :
    s.Sound F) :
    (State.debugGo s pcell rb stepping).Sound F := by
  unfold State.debugGo
  (repeat' split) <;> simp_all (maxDischargeDepth := 40)

theorem execDbgCtrl_sound {F : Fix} (pcell : Nat) (rb : BitVec 14) (op : BitVec 2) (s : State) (hs : s.Sound F) :
    outSound F (execDbgCtrl pcell rb op s) := by
  unfold execDbgCtrl
  (repeat' split) <;> simp_all (maxDischargeDepth := 40)

/-! ### Setup -/

@[simp] theorem State.storeRw_sound {F : Fix} (s : State) (a : Nat) (rw : Nat) (v : Word) (hs : s.Sound F) :
    (State.storeRw s a rw v).Sound F := by
  unfold State.storeRw
  (repeat' split) <;> simp_all (maxDischargeDepth := 40)

@[simp] theorem State.writeSpCfg_sound {F : Fix} (s : State) (p : Nat) (v : Word) (hs : s.Sound F) :
    (State.writeSpCfg s p v).Sound F := by
  unfold State.writeSpCfg
  (repeat' split) <;> simp_all (maxDischargeDepth := 40)

@[simp] theorem State.commandWrite_sound {F : Fix} (s : State) (a : Nat) (p : Nat) (v : Word) (hs : s.Sound F) :
    (State.commandWrite s a p v).Sound F := by
  unfold State.commandWrite
  (try dsimp only)
  (repeat' first | with_reducible assumption | split | with_reducible apply outSound_unitOk | with_reducible rw [outSound_next] | with_reducible apply State.setRegF_sound | with_reducible apply State.clearCounts_sound | with_reducible apply State.restart_sound | with_reducible apply State.zenSet_sound | with_reducible apply State.zenStepCmd_sound | with_reducible apply State.commitFlow_sound | with_reducible apply State.disableFlow_sound | with_reducible apply State.clearFlowFlags_sound | with_reducible apply State.clearFlowCounts_sound | with_reducible apply State.lockCommand_sound | with_reducible apply State.semHop_sound | with_reducible apply State.armSwap_sound | with_reducible apply State.cancelSwap_sound | (with_reducible apply sound_foldl <;> intros) | (rw [sound_mk]; with_reducible apply sound_ok) | with_reducible apply ok_reg | simp [outSound, optSound])

@[simp] theorem State.regWrite_sound {F : Fix} (s : State) (loader : Bool) (a : Nat) (row : RegRow) (i : Nat) (v :
    Word)
    (hs : s.Sound F) : (s.regWrite loader a row i v).Sound F := by
  have hst : (s.storeRw a row.rw v).Sound F := State.storeRw_sound _ _ _ _ hs
  unfold State.regWrite
  dsimp only
  repeat' with_reducible apply sound_if
  all_goals with_reducible first
    | exact hst
    | exact hs
    | exact State.commandWrite_sound _ _ _ _ hs
    | exact State.writeFltPend_sound _ _ _ hs
    | exact State.writeFltRec_sound _ _ _ hs
    | exact State.writeFltSrc_sound _ _ _ hs
    | exact State.writeZenCtrl_sound _ _ hs
    | exact State.setRate_sound _ _ hs
    | exact State.timerWritten_sound _ _ _ hst
    | exact State.selectFlow_sound _ _ hs
    | exact State.stageWord_sound _ _ _ hs
    | exact State.writePrbCfg_sound _ _ _ hs
    | exact State.setReg_sound _ _ _ hs
    | exact State.writeTioCfg_sound _ _ _ hs
    | exact State.writeSpCfg_sound _ _ _ hs
    | exact State.writeCldCtrl_sound _ _ _ hs

@[simp] theorem State.fieldWrite_sound {F : Fix} (s : State) (loader : Bool) (a : Nat) (v : Word) (hs : s.Sound F) :
    (State.fieldWrite s loader a v).2.Sound F := by
  unfold State.fieldWrite
  (repeat' split) <;> simp_all (maxDischargeDepth := 40)

@[simp] theorem State.afterRead_sound {F : Fix} (s : State) (a : Nat) (hs : s.Sound F) :
    (State.afterRead s a).Sound F := by
  unfold State.afterRead
  (repeat' split) <;> simp_all (maxDischargeDepth := 40)

theorem execSetupRd_sound {F : Fix} (addr : BitVec 24) (s : State) (hs : s.Sound F) :
    outSound F (execSetupRd addr s) := by
  simp only [execSetupRd]
  (repeat' split) <;> simp_all (maxDischargeDepth := 40)

theorem execSetupWr_sound {F : Fix} (addr : BitVec 24) (v : Word) (s : State) (hs : s.Sound F) :
    outSound F (execSetupWr addr v s) := by
  unfold execSetupWr
  (repeat' split) <;> simp_all (maxDischargeDepth := 40)

theorem execTioCfgWrite_sound {F : Fix} (pin : Nat) (v : Word) (s : State) (hs : s.Sound F) :
    outSound F (execTioCfgWrite pin v s) := by
  unfold execTioCfgWrite
  (repeat' split) <;> simp_all (maxDischargeDepth := 40)

/-! ### Startup -/

@[simp] theorem State.readBoot_sound {F : Fix} (s : State) (hs : s.Sound F) :
    (State.readBoot s).Sound F := by
  unfold State.readBoot
  (repeat' split) <;> simp_all (maxDischargeDepth := 40)

@[simp] theorem State.writeBoot_sound {F : Fix} (s : State) (f : ModeUnit → ModeUnit) (hs : s.Sound F) :
    (State.writeBoot s f).Sound F := by
  unfold State.writeBoot
  (repeat' split) <;> simp_all (maxDischargeDepth := 40)

@[simp] theorem State.writeModeBoot_sound {F : Fix} (s : State) (v : Word) (hs : s.Sound F) :
    (State.writeModeBoot s v).Sound F := by
  unfold State.writeModeBoot
  (repeat' split) <;> simp_all (maxDischargeDepth := 40)

theorem execModeBootWrite_sound {F : Fix} (v : Word) (s : State) (hs : s.Sound F) :
    outSound F (execModeBootWrite v s) := by
  unfold execModeBootWrite
  (repeat' split) <;> simp_all (maxDischargeDepth := 40)

@[simp] theorem State.resetField_sound {F : Fix} (s : State) (hs : s.Sound F) : (s.resetField).Sound F := by
  have h := sound_ok hs
  unfold State.resetField
  rw [sound_mk]
  exact { ok_regs_filter h with glob := by rfl }

@[simp] theorem State.toReset_sound {F : Fix} (s : State) (hs : s.Sound F) :
    (State.toReset s).Sound F := by
  unfold State.toReset
  (repeat' split) <;> simp_all (maxDischargeDepth := 40)

theorem execFieldRstNLow_sound {F : Fix} (s : State) (hs : s.Sound F) :
    outSound F (execFieldRstNLow s) := by
  unfold execFieldRstNLow
  (repeat' split) <;> simp_all (maxDischargeDepth := 40)

theorem execFieldRstNHigh_sound {F : Fix} (s : State) (hs : s.Sound F) :
    outSound F (execFieldRstNHigh s) := by
  unfold execFieldRstNHigh
  (repeat' split) <;> simp_all (maxDischargeDepth := 40)

@[simp] theorem State.resetHorizon_sound {F : Fix} (s : State) (hs : s.Sound F) :
    (State.resetHorizon s).Sound F := by
  unfold State.resetHorizon
  (repeat' split) <;> simp_all (maxDischargeDepth := 40)

theorem execHostRstNLow_sound {F : Fix} (s : State) (hs : s.Sound F) :
    outSound F (execHostRstNLow s) := by
  unfold execHostRstNLow
  (repeat' split) <;> simp_all (maxDischargeDepth := 40)

theorem execHostRstNHigh_sound {F : Fix} (s : State) (hs : s.Sound F) :
    outSound F (execHostRstNHigh s) := by
  unfold execHostRstNHigh
  (repeat' split) <;> simp_all (maxDischargeDepth := 40)

theorem execSupplyExcursion_sound {F : Fix} (r : Rail) (x : Excursion) (s : State) (hs : s.Sound F) :
    outSound F (execSupplyExcursion r x s) := by
  unfold execSupplyExcursion
  (repeat' split) <;> simp_all (maxDischargeDepth := 40)

@[simp] theorem State.assign_sound {F : Fix} (s : State) (lid : Nat) (pcell : Nat) (hs : s.Sound F) :
    (State.assign s lid pcell).Sound F := by
  unfold State.assign
  (repeat' split) <;> simp_all (maxDischargeDepth := 40)

@[simp] theorem State.identityMap_sound {F : Fix} (s : State) (hs : s.Sound F) :
    (State.identityMap s).Sound F := by
  unfold State.identityMap
  (repeat' split) <;> simp_all (maxDischargeDepth := 40)

@[simp] theorem State.retireCloud_sound {F : Fix} (s : State) (c : Nat) (bad : List Nat) (hs : s.Sound F) :
    (State.retireCloud s c bad).Sound F := by
  unfold State.retireCloud
  (try dsimp only)
  (repeat' first | with_reducible assumption | split | with_reducible apply outSound_unitOk | with_reducible rw [outSound_next] | with_reducible apply State.modCloud_sound | with_reducible apply State.unplace_sound | with_reducible apply State.place_sound | with_reducible apply State.assign_sound | (with_reducible apply sound_foldl <;> intros) | (rw [sound_mk]; with_reducible apply sound_ok) | with_reducible apply ok_reg | simp [outSound, optSound])

@[simp] theorem State.mapOut_sound {F : Fix} (s : State) (lid : Nat) (hs : s.Sound F) :
    (State.mapOut s lid).Sound F := by
  simp only [State.mapOut]
  (repeat' split) <;> simp_all (maxDischargeDepth := 40)

@[simp] theorem State.mapOutAll_sound {F : Fix} (s : State) (hs : s.Sound F) :
    (State.mapOutAll s).Sound F := by
  simp only [State.mapOutAll]
  (repeat' first | split | (refine sound_foldl _ _ ?_ _ ?_ <;> intros)) <;> simp_all (maxDischargeDepth := 40)

@[simp] theorem State.failCell_sound {F : Fix} (s : State) (pcell : Nat) (hs : s.Sound F) :
    (State.failCell s pcell).Sound F := by
  unfold State.failCell
  (repeat' split) <;> simp_all (maxDischargeDepth := 40)

@[simp] theorem State.applyLogged_sound {F : Fix} (s : State) (e : RepEntry) (hs : s.Sound F) :
    (State.applyLogged s e).Sound F := by
  unfold State.applyLogged
  grind [sound_foldl, optSound, outSound, sound_ok, sound_mk, outSound_unitOk, ok_reg, ok_glob, ok_dram, ok_mram, State.failCell_sound, State.mapOutAll_sound, State.retireCloud_sound]

@[simp] theorem State.applyRepairLog_sound {F : Fix} (s : State) (hs : s.Sound F) :
    (State.applyRepairLog s).Sound F := by
  simp only [State.applyRepairLog]
  (repeat' first | split | (refine sound_foldl _ _ ?_ _ ?_ <;> intros)) <;> simp_all (maxDischargeDepth := 40)

@[simp] theorem State.beginTest_sound {F : Fix} (s : State) (hs : s.Sound F) :
    (State.beginTest s).Sound F := by
  simp only [State.beginTest]
  (repeat' first | split | (refine sound_foldl _ _ ?_ _ ?_ <;> intros)) <;> simp_all (maxDischargeDepth := 40)

@[simp] theorem State.reassert_sound {F : Fix} (s : State) (hs : s.Sound F) : (State.reassert s).Sound F := by
  have up : ∀ (l : List (Nat × Details)) (t : State), t.Sound F →
      (l.foldl (fun (s : State) x => s.assertLevel x.1 x.2.master x.2.access x.2.addr x.2.syn) t).Sound F :=
    fun l t ht => sound_foldl _ _ (fun t x h => State.assertLevel_sound _ _ _ _ _ _ h) _ ht
  exact sound_if (State.safeLineBroken_sound _ (up _ _ hs)) (up _ _ hs)

@[simp] theorem State.enterTest_sound {F : Fix} (s : State) (hs : s.Sound F) : (State.enterTest s).Sound F := by
  unfold State.enterTest
  simp_all (maxDischargeDepth := 40)

theorem execTestEntry_sound {F : Fix} (s : State) (hs : s.Sound F) :
    outSound F (execTestEntry s) := by
  unfold execTestEntry
  (repeat' split) <;> simp_all (maxDischargeDepth := 40)

@[simp] theorem State.takeOut_sound {F : Fix} (s : State) (clouds : List Nat) (cells : List Nat) (origin : Nat) (hs : s.Sound F) :
    (State.takeOut s clouds cells origin).Sound F := by
  simp only [State.takeOut]
  (repeat' first | split | (refine sound_foldl _ _ ?_ _ ?_ <;> intros)) <;> simp_all (maxDischargeDepth := 40)

@[simp] theorem State.powerPlaced_sound {F : Fix} (s : State) (hs : s.Sound F) :
    (State.powerPlaced s).Sound F := by
  simp only [State.powerPlaced]
  (repeat' first | split | (refine sound_foldl _ _ ?_ _ ?_ <;> intros)) <;> simp_all (maxDischargeDepth := 40)

@[simp] theorem State.buildMap_sound {F : Fix} (s : State) (r : TestOutcome) (origin : Nat) (hs : s.Sound F) :
    (State.buildMap s r origin).Sound F := by
  unfold State.buildMap
  grind [sound_foldl, optSound, outSound, sound_ok, sound_mk, outSound_unitOk, ok_reg, ok_glob, ok_dram, ok_mram, State.repairMacro_sound, State.raise_sound, State.repReport_sound, State.takeOut_sound]

@[simp] theorem State.settleClouds_sound {F : Fix} (s : State) (hs : s.Sound F) :
    (State.settleClouds s).Sound F := by
  simp only [State.settleClouds]
  (repeat' first | split | (refine sound_foldl _ _ ?_ _ ?_ <;> intros)) <;> simp_all (maxDischargeDepth := 40)

@[simp] theorem State.clearAll_sound {F : Fix} (s : State) (hs : s.Sound F) : (s.clearAll).Sound F := by
  unfold State.clearAll
  rw [sound_mk]
  exact ok_dram_nil (ok_glob_nil (sound_ok hs))

@[simp] theorem State.startVerify_sound {F : Fix} (s : State) (b : Bool) (hs : s.Sound F) :
    (State.startVerify s b).Sound F := by
  unfold State.startVerify
  (repeat' split) <;> simp_all (maxDischargeDepth := 40)

@[simp] theorem State.dropTrial_sound {F : Fix} (s : State) (hs : s.Sound F) :
    (State.dropTrial s).Sound F := by
  unfold State.dropTrial
  (repeat' split) <;> simp_all (maxDischargeDepth := 40)

@[simp] theorem State.enterLoad_sound {F : Fix} (s : State) (cause : Nat) (hs : s.Sound F) :
    (State.enterLoad s cause).Sound F := by
  unfold State.enterLoad
  (repeat' split) <;> simp_all (maxDischargeDepth := 40)

@[simp] theorem State.linkDone_sound {F : Fix} (s : State) (hs : s.Sound F) :
    (State.linkDone s).Sound F := by
  unfold State.linkDone
  (repeat' split) <;> simp_all (maxDischargeDepth := 40)

theorem execTestComplete_sound {F : Fix} (r : TestOutcome) (s : State) (hs : s.Sound F) :
    outSound F (execTestComplete r s) := by
  unfold execTestComplete
  (repeat' split) <;> simp_all (maxDischargeDepth := 40)

theorem execStandaloneTimeout_sound {F : Fix} (s : State) (hs : s.Sound F) :
    outSound F (execStandaloneTimeout s) := by
  unfold execStandaloneTimeout
  (repeat' split) <;> simp_all (maxDischargeDepth := 40)

/-! ### Check -/

theorem clearedGlobal_wf : clearedGlobal.wf = true := by
  simp only [Memory.wf, twf, clearedGlobal, Bool.and_eq_true, decide_eq_true_eq, List.pairwise_map, List.all_eq_true,
    List.mem_map, forall_exists_index, and_imp, upTo]
  refine ⟨List.Pairwise.imp (fun h => ?_) List.pairwise_lt_range, fun x f _ h => ?_⟩
  · omega
  · subst h; simp [unlisted]

@[simp] theorem State.clearSky_sound {F : Fix} (s : State) (hs : s.Sound F) : (s.clearSky).Sound F := by
  unfold State.clearSky
  have hg := clearedGlobal_wf
  generalize clearedGlobal = g at hg ⊢
  dsimp only
  apply sound_foldl
  · intro t p ht
    exact State.setReg_sound _ _ _ (State.setReg_sound _ _ _ (State.setReg_sound _ _ _ (State.setReg_sound _ _ _
        ht)))
  · apply sound_foldl
    · intro t i ht
      exact State.setReg_sound _ _ _ ht
    · rw [sound_mk]
      exact { sound_ok hs with glob := hg }

@[simp] theorem State.applyParts_sound {F : Fix} (s : State) (g : Img) (hs : s.Sound F) :
    (State.applyParts s g).Sound F := by
  simp only [State.applyParts]
  (repeat' first | split | (refine sound_foldl _ _ ?_ _ ?_ <;> intros)) <;> simp_all (maxDischargeDepth := 40)

@[simp] theorem State.applySetup_sound {F : Fix} (s : State) (g : Img) (hs : s.Sound F) :
    (State.applySetup s g).Sound F := by
  simp only [State.applySetup]
  (repeat' first | split | (refine sound_foldl _ _ ?_ _ ?_ <;> intros)) <;> simp_all (maxDischargeDepth := 40)

@[simp] theorem State.applyHeader_sound {F : Fix} (s : State) (g : Img) (x : Sched) (p : Nat) (hs : s.Sound F) :
    (State.applyHeader s g x p).Sound F := by
  unfold State.applyHeader
  (repeat' split) <;> simp_all (maxDischargeDepth := 40)

@[simp] theorem State.trialOf_sound {F : Fix} (s : State) (g : Img) (hs : s.Sound F) :
    (State.trialOf s g).Sound F := by
  unfold State.trialOf
  apply sound_foldl
  · intro t x ht
    exact State.applyHeader_sound _ _ _ _ ht
  · exact State.applySetup_sound _ _ (State.applyParts_sound _ _ (State.clearSky_sound _ hs))

/-! ### Load -/

@[simp] theorem State.sigRefused_sound {F : Fix} (s : State) (marked : Bool) (hs : s.Sound F) :
    (State.sigRefused s marked).Sound F := by
  unfold State.sigRefused
  (repeat' split) <;> simp_all (maxDischargeDepth := 40)

@[simp] theorem State.refuseImage_sound {F : Fix} (s : State) (f : Flaw) (hs : s.Sound F) :
    (State.refuseImage s f).Sound F := by
  unfold State.refuseImage
  (repeat' split) <;> simp_all (maxDischargeDepth := 40)

theorem execVerifyDone_sound {F : Fix} (s : State) (hs : s.Sound F) :
    outSound F (execVerifyDone s) := by
  unfold execVerifyDone
  (repeat' split) <;> simp_all (maxDischargeDepth := 40)

theorem execCheckDone_sound {F : Fix} (s : State) (hs : s.Sound F) :
    outSound F (execCheckDone s) := by
  simp only [execCheckDone]
  (repeat' split) <;> simp_all (maxDischargeDepth := 40)

@[simp] theorem State.applyCode_sound {F : Fix} (s : State) (g : Img) (hs : s.Sound F) :
    (State.applyCode s g).Sound F := by
  simp only [State.applyCode]
  (repeat' first | split | (refine sound_foldl _ _ ?_ _ ?_ <;> intros)) <;> simp_all (maxDischargeDepth := 40)

@[simp] theorem State.applyFlows_sound {F : Fix} (s : State) (g : Img) (hs : s.Sound F) :
    (State.applyFlows s g).Sound F := by
  unfold State.applyFlows
  (try dsimp only)
  (repeat' first | with_reducible assumption | split | with_reducible apply outSound_unitOk | with_reducible rw [outSound_next] | with_reducible apply State.setFlowW_sound | with_reducible apply State.setFlowF_sound | with_reducible apply State.spreadPolicy_sound | with_reducible apply State.setLrel_sound | (with_reducible apply sound_foldl <;> intros) | (rw [sound_mk]; with_reducible apply sound_ok) | with_reducible apply ok_reg | simp [outSound, optSound])

@[simp] theorem State.copyPresets_sound {F : Fix} (s : State) (g : Img) (x : Sched) (p : Nat) (hs : s.Sound F) :
    (State.copyPresets s g x p).Sound F := by
  unfold State.copyPresets
  (repeat' split) <;> simp_all (maxDischargeDepth := 40)

@[simp] theorem State.applySched_sound {F : Fix} (s : State) (g : Img) (x : Sched) (p : Nat) (hs : s.Sound F) :
    (State.applySched s g x p).Sound F := by
  unfold State.applySched
  grind [sound_foldl, optSound, outSound, sound_ok, sound_mk,
    outSound_unitOk, ok_reg, ok_glob, ok_dram, ok_mram, State.putRecords_sound, State.setLrel_sound,
        State.putTables_sound, State.putRoots_sound, State.copyPresets_sound, State.restorePresets_sound]

@[simp] theorem State.applyMaps_sound {F : Fix} (s : State) (g : Img) (hs : s.Sound F) :
    (State.applyMaps s g).Sound F := by
  unfold State.applyMaps
  (repeat' split) <;> simp_all (maxDischargeDepth := 40)

@[simp] theorem State.applySpans_sound {F : Fix} (s : State) (g : Img) (x : Sched) (p : Nat) (hs : s.Sound F) :
    (State.applySpans s g x p).Sound F := by
  unfold State.applySpans
  (repeat' split) <;> simp_all (maxDischargeDepth := 40)

@[simp] theorem State.startPairs_sound {F : Fix} (s : State) (hs : s.Sound F) :
    (State.startPairs s).Sound F := by
  simp only [State.startPairs]
  (repeat' first | split | (refine sound_foldl _ _ ?_ _ ?_ <;> intros)) <;> simp_all (maxDischargeDepth := 40)

@[simp] theorem State.writeImage_sound {F : Fix} (s : State) (g : Img) (hs : s.Sound F) :
    (State.writeImage s g).Sound F := by
  unfold State.writeImage
  (try dsimp only)
  (repeat' first | with_reducible assumption | split | with_reducible apply outSound_unitOk | with_reducible rw [outSound_next] | with_reducible apply State.trialOf_sound | with_reducible apply State.applyCode_sound | with_reducible apply State.applyFlows_sound | with_reducible apply State.setRegF_sound | with_reducible apply State.applySched_sound | with_reducible apply State.applySpans_sound | with_reducible apply State.applyMaps_sound | with_reducible apply State.writeBudgets_sound | with_reducible apply State.recordMargins_sound | with_reducible apply State.startPairs_sound | with_reducible apply State.onRun_sound | (with_reducible apply sound_foldl <;> intros) | (rw [sound_mk]; with_reducible apply sound_ok) | with_reducible apply ok_reg | simp [outSound, optSound])

@[simp] theorem State.injectionTest_sound {F : Fix} (s : State) (bad : List Nat) (hs : s.Sound F) :
    (State.injectionTest s bad).Sound F := by
  simp only [State.injectionTest]
  (repeat' first | split | (refine sound_foldl _ _ ?_ _ ?_ <;> intros)) <;> simp_all (maxDischargeDepth := 40)

@[simp] theorem State.enterRun_sound {F : Fix} (s : State) (cause : Nat) (hs : s.Sound F) :
    (State.enterRun s cause).Sound F := by
  unfold State.enterRun
  grind [sound_foldl, optSound, outSound, sound_ok, sound_mk,
    outSound_unitOk, ok_reg, ok_glob, ok_dram, ok_mram, State.modCell_sound, State.modPart_sound,
        State.transit_sound, State.settle_sound]

@[simp] theorem State.loadDone_sound {F : Fix} (s : State) (hs : s.Sound F) :
    (State.loadDone s).Sound F := by
  unfold State.loadDone
  (repeat' split) <;> simp_all (maxDischargeDepth := 40)

theorem execWriteDone_sound {F : Fix} (badStations : List Nat) (s : State) (hs : s.Sound F) :
    outSound F (execWriteDone badStations s) := by
  unfold execWriteDone
  (repeat' split) <;> simp_all (maxDischargeDepth := 40)

end Sys2Proof.Machine
end

