-- ==== Sys2Proof/Laws/SoundHost.lean ====
section
/-! SUPPORT. Soundness (SoundBase): what the horizon die and an idle cycle keep. One lemma per operation. -/

set_option linter.all false

namespace Sys2Proof.Machine

/-! ### Engine -/

@[simp] theorem State.toAdapter_sound {F : Fix} (s : State) (type : Byte) (payload : List Byte) (hs : s.Sound F) :
    (State.toAdapter s type payload).Sound F := by
  unfold State.toAdapter
  (repeat' split) <;> simp_all (maxDischargeDepth := 40)

@[simp] theorem State.memRd_sound {F : Fix} (s : State) (addr : Nat) (len : Nat) (tag : Nat) (hs : s.Sound F) :
    (State.memRd s addr len tag).Sound F := by
  unfold State.memRd
  (repeat' split) <;> simp_all (maxDischargeDepth := 40)

@[simp] theorem State.dropReads_sound {F : Fix} (s : State) (tag : Nat) (hs : s.Sound F) :
    (State.dropReads s tag).Sound F := by
  unfold State.dropReads
  (repeat' split) <;> simp_all (maxDischargeDepth := 40)

@[simp] theorem State.memWr_sound {F : Fix} (n : Nat) (s : State) (a : Nat) (b : List Byte) (hs : s.Sound F) :
    (State.memWr n s a b).Sound F := by
  induction n generalizing s a b with
  | zero => simpa [State.memWr]
  | succ k ih => simp only [State.memWr]; grind [optSound, sound_ok, sound_mk, ok_globB, ok_reg,
      State.toAdapter_sound]

@[simp] theorem State.hostWrite_sound {F : Fix} (s : State) (addr : Nat) (bs : List Byte) (hs : s.Sound F) :
    (State.hostWrite s addr bs).Sound F := by
  unfold State.hostWrite
  (repeat' split) <;> simp_all (maxDischargeDepth := 40)

@[simp] theorem State.writePage_sound {F : Fix} (s : State) (off : Nat) (v : Word) (hs : s.Sound F) :
    (State.writePage s off v).Sound F := by
  unfold State.writePage
  (repeat' split) <;> simp_all (maxDischargeDepth := 40)

@[simp] theorem State.relayFree_sound {F : Fix} (s : State) (source : Nat) (hs : s.Sound F) :
    (State.relayFree s source).Sound F := by
  simp only [State.relayFree]
  (repeat' split) <;> simp_all (maxDischargeDepth := 40)

@[simp] theorem State.nextIndex_sound {F : Fix} (s : State) (r : Nat) (hs : s.Sound F) :
    (State.nextIndex s r).Sound F := by
  unfold State.nextIndex
  (repeat' split) <;> simp_all (maxDischargeDepth := 40)

@[simp] theorem State.ringErr_sound {F : Fix} (s : State) (r : Nat) (code : Nat) (hs : s.Sound F) :
    (State.ringErr s r code).Sound F := by
  unfold State.ringErr
  (repeat' split) <;> simp_all (maxDischargeDepth := 40)

@[simp] theorem State.stopRing_sound {F : Fix} (s : State) (r : Nat) (code : Nat) (hs : s.Sound F) :
    (State.stopRing s r code).Sound F := by
  unfold State.stopRing
  (repeat' split) <;> simp_all (maxDischargeDepth := 40)

@[simp] theorem State.cplTime_sound {F : Fix} (s : State) (onHorizon : Bool) (hs : s.Sound F) :
    (State.cplTime s onHorizon).2.Sound F := by
  simp only [State.cplTime]
  (repeat' split) <;> simp_all (maxDischargeDepth := 40)

@[simp] theorem State.complete_sound {F : Fix} (s : State) (c : Command) (onHorizon : Bool) (counts : Bool) (a :
    Answer) (hs : s.Sound F) :
    (State.complete s c onHorizon counts a).Sound F := by
  simp only [State.complete]
  (repeat' split) <;> simp_all (maxDischargeDepth := 40)

@[simp] theorem State.takeCommand_sound {F : Fix} (s : State) (rest : List Command) (hs : s.Sound F) :
    (State.takeCommand s rest).Sound F := by
  unfold State.takeCommand
  (repeat' split) <;> simp_all (maxDischargeDepth := 40)

@[simp] theorem State.skipCommands_sound {F : Fix} (n : Nat) (s : State) (hs : s.Sound F) :
    (State.skipCommands n s).Sound F := by
  induction n generalizing s with
  | zero => simpa [State.skipCommands]
  | succ k ih => simp only [State.skipCommands]; grind [optSound, sound_ok, sound_mk, ok_globB, ok_reg,
      State.takeCommand_sound, State.ringErr_sound, State.complete_sound]

@[simp] theorem State.nextCommand_sound {F : Fix} (s : State) (hs : s.Sound F) :
    (State.nextCommand s).Sound F := by
  simp only [State.nextCommand]
  (repeat' split) <;> simp_all (maxDischargeDepth := 40)

theorem State.command_sound {F : Fix} (s : State) (op : Byte) (hs : s.Sound F) :
    ∀ z, (State.command s op) = some z → z.2.Sound F := by
  unfold State.command
  (repeat' split) <;> simp_all (maxDischargeDepth := 40)

@[simp] theorem State.finish_sound {F : Fix} (s : State) (c : Command) (b : Bool) (r : Answer × State)
    (hr : r.2.Sound F) : (s.finish c b r).Sound F := State.complete_sound _ _ _ _ _ hr

@[simp] theorem State.runField_sound {F : Fix} (s : State) (op : Byte) (f : Command → State → Answer × State)
    (hs : s.Sound F) (hf : ∀ c t, t.Sound F → (f c t).2.Sound F) : (s.runField op f).Sound F := by
  unfold State.runField
  split
  · exact hs
  · split
    · exact hs
    · rename_i c t h
      exact State.finish_sound _ _ _ _ (hf _ _ (State.command_sound s op hs _ h))

/-! ### Modes -/

@[simp] theorem State.warmStart_sound {F : Fix} (s : State) (hs : s.Sound F) :
    (State.warmStart s).Sound F := by
  unfold State.warmStart
  (repeat' split) <;> simp_all (maxDischargeDepth := 40)

@[simp] theorem State.modeLoad_sound {F : Fix} (s : State) (slot : Nat) (hs : s.Sound F) :
    (State.modeLoad s slot).2.Sound F := by
  simp only [State.modeLoad]
  (repeat' split) <;> simp_all (maxDischargeDepth := 40)

@[simp] theorem State.modeRun_sound {F : Fix} (s : State) (hs : s.Sound F) :
    (State.modeRun s).2.Sound F := by
  unfold State.modeRun
  (repeat' split) <;> simp_all (maxDischargeDepth := 40)

@[simp] theorem State.modeSafe_sound {F : Fix} (s : State) (hs : s.Sound F) :
    (State.modeSafe s).2.Sound F := by
  unfold State.modeSafe
  (repeat' split) <;> simp_all (maxDischargeDepth := 40)

@[simp] theorem State.modeRetest_sound {F : Fix} (s : State) (hs : s.Sound F) :
    (State.modeRetest s).2.Sound F := by
  unfold State.modeRetest
  (repeat' split) <;> simp_all (maxDischargeDepth := 40)

@[simp] theorem State.modeCommit_sound {F : Fix} (s : State) (hs : s.Sound F) :
    (State.modeCommit s).2.Sound F := by
  unfold State.modeCommit
  (repeat' split) <;> simp_all (maxDischargeDepth := 40)

@[simp] theorem State.modeOp_sound {F : Fix} (s : State) (op slot : Nat) (hs : s.Sound F) :
    (s.modeOp op slot).2.Sound F := by
  unfold State.modeOp
  split
  · exact State.modeLoad_sound _ _ hs
  · exact State.modeRun_sound _ hs
  · exact State.modeSafe_sound _ hs
  · exact State.modeRetest_sound _ hs
  · exact State.modeCommit_sound _ hs
  · exact hs

@[simp] theorem State.modeBad_sound {F : Fix} (s : State) (addr : Nat) (syn : Nat) (hs : s.Sound F) :
    (State.modeBad s addr syn).Sound F := by
  unfold State.modeBad
  (repeat' split) <;> simp_all (maxDischargeDepth := 40)

@[simp] theorem State.modeCommand_sound {F : Fix} (s : State) (op : Nat) (slot : Nat) (hs : s.Sound F) :
    (State.modeCommand s op slot).2.Sound F := by
  unfold State.modeCommand
  grind [sound_foldl, optSound, outSound, sound_ok, sound_mk,
    outSound_unitOk, ok_reg, ok_glob, ok_dram, ok_mram, State.modeOp_sound, State.modeBad_sound]

@[simp] theorem State.writeModeCmd_sound {F : Fix} (s : State) (op : Nat) (slot : Nat) (hs : s.Sound F) :
    (State.writeModeCmd s op slot).Sound F := by
  simp only [State.writeModeCmd]
  (repeat' split) <;> simp_all (maxDischargeDepth := 40)

@[simp] theorem State.ringMode_sound {F : Fix} (s : State) (op : Nat) (hs : s.Sound F) :
    (State.ringMode s op).Sound F := by
  unfold State.ringMode
  (repeat' split) <;> simp_all (maxDischargeDepth := 40)

@[simp] theorem State.fromOrigin_sound {F : Fix} (s : State) (o : CmdOrigin) (op : Nat) (hs : s.Sound F) :
    (State.fromOrigin s o op).Sound F := by
  unfold State.fromOrigin
  (repeat' split) <;> simp_all (maxDischargeDepth := 40)

theorem execLoadCommand_sound {F : Fix} (o : CmdOrigin) (s : State) (hs : s.Sound F) :
    outSound F (execLoadCommand o s) := by
  unfold execLoadCommand
  (repeat' split) <;> simp_all (maxDischargeDepth := 40)

theorem execRunCommand_sound {F : Fix} (o : CmdOrigin) (s : State) (hs : s.Sound F) :
    outSound F (execRunCommand o s) := by
  unfold execRunCommand
  (repeat' split) <;> simp_all (maxDischargeDepth := 40)

theorem execSafeCommand_sound {F : Fix} (o : CmdOrigin) (s : State) (hs : s.Sound F) :
    outSound F (execSafeCommand o s) := by
  unfold execSafeCommand
  (repeat' split) <;> simp_all (maxDischargeDepth := 40)

theorem execRetestCommand_sound {F : Fix} (o : CmdOrigin) (s : State) (hs : s.Sound F) :
    outSound F (execRetestCommand o s) := by
  unfold execRetestCommand
  (repeat' split) <;> simp_all (maxDischargeDepth := 40)

theorem execCommit_sound {F : Fix} (o : CmdOrigin) (s : State) (hs : s.Sound F) :
    outSound F (execCommit o s) := by
  unfold execCommit
  (repeat' split) <;> simp_all (maxDischargeDepth := 40)

@[simp] theorem State.debugAction_sound {F : Fix} (s : State) (action : Nat) (f : Command → State → Option State)
    (hs : s.Sound F) (hf : ∀ (y0 : Command) (y1 : State), y1.Sound F → optSound F (f y0 y1)) :
    (State.debugAction s action f).Sound F := by
  unfold State.debugAction
  grind [sound_foldl, optSound, outSound, sound_ok, sound_mk,
    outSound_unitOk, ok_reg, ok_glob, ok_dram, ok_mram, State.runField_sound, State.modeBad_sound]

@[simp] theorem State.attachPart_sound {F : Fix} (s : State) (p : Nat) (hs : s.Sound F) :
    optSound F (State.attachPart s p) := by
  unfold State.attachPart
  (repeat' split) <;> simp_all (maxDischargeDepth := 40)

theorem State.attachPart_some {F : Fix} (s : State) (p : Nat) (hs : s.Sound F) (z : State) (ez : (State.attachPart
    s p) = some z) : z.Sound F := by
  have h := State.attachPart_sound (F := F) s p hs
  rw [ez] at h; exact h

@[simp] theorem State.releaseStrands_sound {F : Fix} (s : State) (p : Nat) (hs : s.Sound F) :
    (State.releaseStrands s p).Sound F := by
  simp only [State.releaseStrands]
  (repeat' first | split | (refine sound_foldl _ _ ?_ _ ?_ <;> intros)) <;> simp_all (maxDischargeDepth := 40)

@[simp] theorem State.resumePart_sound {F : Fix} (s : State) (p : Nat) (hs : s.Sound F) :
    (State.resumePart s p).Sound F := by
  unfold State.resumePart
  (repeat' split) <;> simp_all (maxDischargeDepth := 40)

theorem execAttach_sound {F : Fix} (s : State) (hs : s.Sound F) :
    outSound F (execAttach s) := by
  unfold execAttach
  (repeat' split) <;> simp_all (maxDischargeDepth := 40)

theorem execDetach_sound {F : Fix} (s : State) (hs : s.Sound F) :
    outSound F (execDetach s) := by
  unfold execDetach
  grind [sound_foldl, optSound, outSound, sound_ok, sound_mk,
    outSound_unitOk, ok_reg, ok_glob, ok_dram, ok_mram, Ctx.next_sound, State.debugAction_sound,
        State.resumePart_sound]

theorem execHaltAction_sound {F : Fix} (s : State) (hs : s.Sound F) :
    outSound F (execHaltAction s) := by
  unfold execHaltAction
  grind [sound_foldl, optSound, outSound, sound_ok, sound_mk,
    outSound_unitOk, ok_reg, ok_glob, ok_dram, ok_mram, Ctx.next_sound, State.debugAction_sound,
        State.haltPartition_sound]

theorem execResume_sound {F : Fix} (s : State) (hs : s.Sound F) :
    outSound F (execResume s) := by
  unfold execResume
  grind [sound_foldl, optSound, outSound, sound_ok, sound_mk,
    outSound_unitOk, ok_reg, ok_glob, ok_dram, ok_mram, Ctx.next_sound, State.debugAction_sound,
        State.resumePart_sound]

theorem execStep_sound {F : Fix} (s : State) (hs : s.Sound F) :
    outSound F (execStep s) := by
  unfold execStep
  grind [sound_foldl, optSound, outSound, sound_ok, sound_mk,
    outSound_unitOk, ok_reg, ok_glob, ok_dram, ok_mram, Ctx.next_sound, State.debugAction_sound,
        State.debugGo_sound]

/-! ### Rings -/

@[simp] theorem State.dueNotify_sound {F : Fix} (s : State) (r : Nat) (hs : s.Sound F) :
    (State.dueNotify s r).Sound F := by
  unfold State.dueNotify
  (repeat' split) <;> simp_all (maxDischargeDepth := 40)

@[simp] theorem State.writeEntry_sound {F : Fix} (s : State) (r : Nat) (bs : List Byte) (force : Bool) (hs :
    s.Sound F) :
    (State.writeEntry s r bs force).Sound F := by
  unfold State.writeEntry
  (repeat' split) <;> simp_all (maxDischargeDepth := 40)

theorem execNotify_sound {F : Fix} (ring : Nat) (s : State) (hs : s.Sound F) :
    outSound F (execNotify ring s) := by
  unfold execNotify
  (repeat' split) <;> simp_all (maxDischargeDepth := 40)

theorem execCompletionWrite_sound {F : Fix} (s : State) (hs : s.Sound F) :
    outSound F (execCompletionWrite s) := by
  unfold execCompletionWrite
  (repeat' split) <;> simp_all (maxDischargeDepth := 40)

@[simp] theorem State.flushLog_sound {F : Fix} (n : Nat) (s : State) (hs : s.Sound F) :
    (State.flushLog n s).Sound F := by
  induction n generalizing s with
  | zero => simpa [State.flushLog]
  | succ k ih => simp only [State.flushLog]; grind [optSound, sound_ok, sound_mk, ok_globB, ok_reg,
      State.writeEntry_sound, State.addRegF_sound]

@[simp] theorem State.flushExtract_sound {F : Fix} (n : Nat) (s : State) (hs : s.Sound F) :
    (State.flushExtract n s).Sound F := by
  induction n generalizing s with
  | zero => simpa [State.flushExtract]
  | succ k ih => simp only [State.flushExtract]; grind [optSound, sound_ok, sound_mk, ok_globB, ok_reg,
      State.writeEntry_sound]

@[simp] theorem State.flushRings_sound {F : Fix} (s : State) (hs : s.Sound F) :
    (State.flushRings s).Sound F := by
  unfold State.flushRings
  (repeat' split) <;> simp_all (maxDischargeDepth := 40)

@[simp] theorem State.writeStatus_sound {F : Fix} (s : State) (hs : s.Sound F) :
    (State.writeStatus s).Sound F := by
  unfold State.writeStatus
  (repeat' split) <;> simp_all (maxDischargeDepth := 40)

@[simp] theorem State.readPage_sound {F : Fix} (s : State) (hs : s.Sound F) :
    (State.readPage s).Sound F := by
  unfold State.readPage
  (repeat' split) <;> simp_all (maxDischargeDepth := 40)

theorem execDoorbell_sound {F : Fix} (_bitmap : Byte) (s : State) (hs : s.Sound F) :
    outSound F (execDoorbell _bitmap s) := by
  unfold execDoorbell
  (repeat' split) <;> simp_all (maxDischargeDepth := 40)

theorem execPollTimer_sound {F : Fix} (s : State) (hs : s.Sound F) :
    outSound F (execPollTimer s) := by
  unfold execPollTimer
  (repeat' split) <;> simp_all (maxDischargeDepth := 40)

@[simp] theorem State.fetch_sound {F : Fix} (s : State) (r : Nat) (hs : s.Sound F) :
    (State.fetch s r).Sound F := by
  unfold State.fetch
  (repeat' split) <;> simp_all (maxDischargeDepth := 40)

@[simp] theorem State.heartbeat_sound {F : Fix} (s : State) (v : Word) (hs : s.Sound F) :
    (State.heartbeat s v).Sound F := by
  unfold State.heartbeat
  (repeat' split) <;> simp_all (maxDischargeDepth := 40)

@[simp] theorem State.takePage_sound {F : Fix} (s : State) (words : List Word) (hs : s.Sound F) :
    (State.takePage s words).Sound F := by
  unfold State.takePage
  (try dsimp only)
  (repeat' first | with_reducible assumption | split | with_reducible apply outSound_unitOk | with_reducible rw [outSound_next] | with_reducible apply State.heartbeat_sound | with_reducible apply State.stopRing_sound | with_reducible apply State.modRing_sound | with_reducible apply State.toField_sound | with_reducible apply State.fetch_sound | with_reducible apply State.flushRings_sound | with_reducible apply State.readPage_sound | (with_reducible apply sound_foldl <;> intros) | (rw [sound_mk]; with_reducible apply sound_ok) | with_reducible apply ok_reg | simp [outSound, optSound])

@[simp] theorem State.takeEntries_sound {F : Fix} (s : State) (r : Nat) (es : List (List Byte)) (hs : s.Sound F) :
    (State.takeEntries s r es).Sound F := by
  unfold State.takeEntries
  (repeat' split) <;> simp_all (maxDischargeDepth := 40)

@[simp] theorem State.takeBuffer_sound {F : Fix} (s : State) (bs : List Byte) (hs : s.Sound F) :
    (State.takeBuffer s bs).Sound F := by
  unfold State.takeBuffer
  (repeat' split) <;> simp_all (maxDischargeDepth := 40)

@[simp] theorem State.takeRead_sound {F : Fix} (s : State) (tag : Nat) (bs : List Byte) (hs : s.Sound F) :
    (State.takeRead s tag bs).Sound F := by
  unfold State.takeRead
  (repeat' split) <;> simp_all (maxDischargeDepth := 40)

@[simp] theorem State.readFailed_sound {F : Fix} (s : State) (tag : Nat) (hs : s.Sound F) :
    (State.readFailed s tag).Sound F := by
  unfold State.readFailed
  (repeat' split) <;> simp_all (maxDischargeDepth := 40)

theorem execMemCpl_sound {F : Fix} (part : ReadPart) (s : State) (hs : s.Sound F) :
    outSound F (execMemCpl part s) := by
  obtain ⟨tag, offset, status, bytes⟩ := part
  simp only [execMemCpl]
  (repeat' split) <;> simp_all (maxDischargeDepth := 40)

@[simp] theorem State.disableCommands_sound {F : Fix} (s : State) (hs : s.Sound F) :
    (State.disableCommands s).Sound F := by
  unfold State.disableCommands
  (repeat' split) <;> simp_all (maxDischargeDepth := 40)

@[simp] theorem State.dropCommands_sound {F : Fix} (s : State) (hs : s.Sound F) :
    (State.dropCommands s).Sound F := by
  unfold State.dropCommands
  (repeat' split) <;> simp_all (maxDischargeDepth := 40)

@[simp] theorem State.writeRingCfg_sound {F : Fix} (s : State) (r : Nat) (v : Word) (hs : s.Sound F) :
    (State.writeRingCfg s r v).Sound F := by
  unfold State.writeRingCfg
  (repeat' split) <;> simp_all (maxDischargeDepth := 40)

theorem execRingCfgEnWrite_sound {F : Fix} (ring : Nat) (v : Word) (s : State) (hs : s.Sound F) :
    outSound F (execRingCfgEnWrite ring v s) := by
  unfold execRingCfgEnWrite
  (repeat' split) <;> simp_all (maxDischargeDepth := 40)

/-! ### Link -/

@[simp] theorem State.toStep_sound {F : Fix} (s : State) (k : Nat) (n : Nat) (hs : s.Sound F) :
    (State.toStep s k n).Sound F := by
  unfold State.toStep
  (repeat' split) <;> simp_all (maxDischargeDepth := 40)

@[simp] theorem State.onPort_sound {F : Fix} (s : State) (k : Nat) (t : State) (hs : s.Sound F) (ht : t.Sound F) :
    outSound F (State.onPort s k t) := by
  unfold State.onPort
  (repeat' split) <;> simp_all (maxDischargeDepth := 40)

@[simp] theorem State.linkEvent_sound {F : Fix} (s : State) (kind : Nat) (port : Nat) (hs : s.Sound F) :
    (State.linkEvent s kind port).Sound F := by
  simp only [State.linkEvent]
  (repeat' split) <;> simp_all (maxDischargeDepth := 40)

@[simp] theorem State.countFrame_sound {F : Fix} (s : State) (k : Nat) (hs : s.Sound F) :
    (State.countFrame s k).Sound F := by
  unfold State.countFrame
  (repeat' split) <;> simp_all (maxDischargeDepth := 40)

@[simp] theorem State.sendEnum_sound {F : Fix} (s : State) (k : Nat) (first : Nat) (count : Nat) (hs : s.Sound F) :
    (State.sendEnum s k first count).Sound F := by
  unfold State.sendEnum
  (repeat' split) <;> simp_all (maxDischargeDepth := 40)

@[simp] theorem State.offerRange_sound {F : Fix} (s : State) (k : Nat) (hs : s.Sound F) :
    (State.offerRange s k).Sound F := by
  unfold State.offerRange
  (repeat' split) <;> simp_all (maxDischargeDepth := 40)

@[simp] theorem State.offerNext_sound {F : Fix} (s : State) (hs : s.Sound F) :
    (State.offerNext s).Sound F := by
  unfold State.offerNext
  (repeat' split) <;> simp_all (maxDischargeDepth := 40)

@[simp] theorem State.offerWaiting_sound {F : Fix} (s : State) (hs : s.Sound F) :
    (State.offerWaiting s).Sound F := by
  unfold State.offerWaiting
  (repeat' split) <;> simp_all (maxDischargeDepth := 40)

@[simp] theorem State.endEnum_sound {F : Fix} (s : State) (used : Nat) (hs : s.Sound F) :
    (State.endEnum s used).Sound F := by
  unfold State.endEnum
  (repeat' split) <;> simp_all (maxDischargeDepth := 40)

@[simp] theorem State.enumFrom_sound {F : Fix} (s : State) (a b c : Nat) (l : List Nat) (hs : s.Sound F) :
    (s.enumFrom a b c l).Sound F := by
  induction l generalizing s a b c with
  | nil => simp only [State.enumFrom]; grind [State.endEnum_sound, Ctx.next_sound, State.toStep_sound,
      State.setReg_sound, State.linkEvent_sound, State.sendEnum_sound]
  | cons k ks ih => simp only [State.enumFrom]; grind [sound_ok, sound_mk, State.endEnum_sound, Ctx.next_sound,
      State.toStep_sound, State.setReg_sound, State.linkEvent_sound, State.sendEnum_sound]

@[simp] theorem State.enumKeep_sound {F : Fix} (s : State) (a : Nat) (l : List Nat) (hs : s.Sound F) :
    (s.enumKeep a l).Sound F := by
  induction l generalizing s a with
  | nil => exact State.endEnum_sound s a hs
  | cons k ks ih => simp only [State.enumKeep]; grind [sound_ok, sound_mk, State.sendEnum_sound]

@[simp] theorem State.enumLost_sound {F : Fix} (s : State) (k : Nat) (hs : s.Sound F) :
    (State.enumLost s k).Sound F := by
  unfold State.enumLost
  (repeat' split) <;> simp_all (maxDischargeDepth := 40)

@[simp] theorem State.loseUpstream_sound {F : Fix} (s : State) (hs : s.Sound F) :
    (State.loseUpstream s).Sound F := by
  unfold State.loseUpstream
  (repeat' split) <;> simp_all (maxDischargeDepth := 40)

@[simp] theorem State.retrain_sound {F : Fix} (s : State) (k : Nat) (hs : s.Sound F) :
    (State.retrain s k).Sound F := by
  unfold State.retrain
  (repeat' split) <;> simp_all (maxDischargeDepth := 40)

theorem execPortDown_sound {F : Fix} (port : Nat) (s : State) (hs : s.Sound F) :
    outSound F (execPortDown port s) := by
  unfold execPortDown
  (repeat' split) <;> simp_all (maxDischargeDepth := 40)

theorem execTrainingTimeout_sound {F : Fix} (port : Nat) (s : State) (hs : s.Sound F) :
    outSound F (execTrainingTimeout port s) := by
  unfold execTrainingTimeout
  (repeat' split) <;> simp_all (maxDischargeDepth := 40)

theorem execElectricalDetect_sound {F : Fix} (port : Nat) (s : State) (hs : s.Sound F) :
    outSound F (execElectricalDetect port s) := by
  unfold execElectricalDetect
  (repeat' split) <;> simp_all (maxDischargeDepth := 40)

theorem execLaneLock_sound {F : Fix} (port : Nat) (inverted : BitVec 2) (s : State) (hs : s.Sound F) :
    outSound F (execLaneLock port inverted s) := by
  unfold execLaneLock
  (repeat' split) <;> simp_all (maxDischargeDepth := 40)

theorem execLaneDeskew_sound {F : Fix} (port : Nat) (s : State) (hs : s.Sound F) :
    outSound F (execLaneDeskew port s) := by
  unfold execLaneDeskew
  (repeat' split) <;> simp_all (maxDischargeDepth := 40)

theorem execRateNegotiation_sound {F : Fix} (port : Nat) (partner : BitVec 2) (s : State) (hs : s.Sound F) :
    outSound F (execRateNegotiation port partner s) := by
  unfold execRateNegotiation
  (repeat' split) <;> simp_all (maxDischargeDepth := 40)

theorem execTransmitEqualisation_sound {F : Fix} (port : Nat) (margins : List Nat) (s : State) (hs : s.Sound F) :
    outSound F (execTransmitEqualisation port margins s) := by
  unfold execTransmitEqualisation
  (repeat' split) <;> simp_all (maxDischargeDepth := 40)

theorem execVersion_sound {F : Fix} (port : Nat) (hi : BitVec 4) (lo : BitVec 4) (s : State) (hs : s.Sound F) :
    outSound F (execVersion port hi lo s) := by
  unfold execVersion
  (repeat' split) <;> simp_all (maxDischargeDepth := 40)

theorem execEnum_sound {F : Fix} (n : BitVec 7) (depth : BitVec 4) (count : BitVec 7) (s : State) (hs : s.Sound F) :
    outSound F (execEnum n depth count s) := by
  unfold execEnum
  (repeat' split) <;> simp_all (maxDischargeDepth := 40)

@[simp] theorem State.portUp_sound {F : Fix} (s : State) (k : Nat) (rejoin : Bool) (hs : s.Sound F) :
    (State.portUp s k rejoin).Sound F := by
  unfold State.portUp
  (repeat' split) <;> simp_all (maxDischargeDepth := 40)

theorem execEnumRsp_sound {F : Fix} (port : Nat) (used : BitVec 7) (s : State) (hs : s.Sound F) :
    outSound F (execEnumRsp port used s) := by
  unfold execEnumRsp
  (repeat' split) <;> simp_all (maxDischargeDepth := 40)

theorem execDelayCalibration_sound {F : Fix} (s : State) (hs : s.Sound F) :
    outSound F (execDelayCalibration s) := by
  unfold execDelayCalibration
  split
  · exact hs
  · refine State.linkDone_sound _ (State.nextCommand_sound _ (State.flushRings_sound _ (State.writeStatus_sound _ ?_)))
    refine sound_foldl _ _ (fun t r h => sound_if (State.writePage_sound _ _ _ h) h) _ ?_
    exact State.relay_sound _ _ _ _ _ (State.linkEvent_sound _ _ _ (State.toStep_sound _ _ _ hs))

@[simp] theorem State.forward_sound {F : Fix} (s : State) (k : Nat) (f : Frame) (hs : s.Sound F) :
    (State.forward s k f).Sound F := by
  unfold State.forward
  (repeat' split) <;> simp_all (maxDischargeDepth := 40)

@[simp] theorem State.routeFrame_sound {F : Fix} (s : State) (k : Nat) (f : Frame) (hs : s.Sound F) :
    (State.routeFrame s k f).Sound F := by
  unfold State.routeFrame
  (repeat' split) <;> simp_all (maxDischargeDepth := 40)

@[simp] theorem State.deliverFrame_sound {F : Fix} (s : State) (k : Nat) (f : Frame) (hs : s.Sound F) :
    (State.deliverFrame s k f).Sound F := by
  unfold State.deliverFrame
  (repeat' split) <;> simp_all (maxDischargeDepth := 40)

@[simp] theorem State.deliverEarly_sound {F : Fix} (k n : Nat) (s : State) (hs : s.Sound F) :
    (State.deliverEarly k n s).Sound F := by
  induction n generalizing s with
  | zero => simpa [State.deliverEarly]
  | succ n ih =>
    simp only [State.deliverEarly]
    split
    · exact hs
    · exact ih _ (State.deliverFrame_sound _ _ _ (State.modLink_sound _ _ _ hs))

@[simp] theorem State.acceptFrame_sound {F : Fix} (s : State) (k : Nat) (f : Frame) (hs : s.Sound F) :
    (State.acceptFrame s k f).Sound F := by
  unfold State.acceptFrame
  (repeat' split) <;> simp_all (maxDischargeDepth := 40)

theorem execFrameReceive_sound {F : Fix} (port : Nat) (body : List Byte) (crc : Word) (s : State)
    (hs : s.Sound F) : outSound F (execFrameReceive port body crc s) := by
  unfold execFrameReceive
  (repeat' split) <;> simp_all (maxDischargeDepth := 40)

theorem execReplayRequest_sound {F : Fix} (port : Nat) (seq : BitVec 16) (s : State) (hs : s.Sound F) :
    outSound F (execReplayRequest port seq s) := by
  unfold execReplayRequest
  refine State.onPort_sound _ _ _ hs ?_
  dsimp only
  split
  · exact hs
  · split
    · exact State.modLink_sound _ _ _ hs
    · exact State.linkEvent_sound _ _ _ (State.retrain_sound _ _ hs)

theorem execErrorRateCheck_sound {F : Fix} (port : Nat) (s : State) (hs : s.Sound F) :
    outSound F (execErrorRateCheck port s) := by
  unfold execErrorRateCheck
  (repeat' split) <;> simp_all (maxDischargeDepth := 40)

/-! ### Access -/

@[simp] theorem State.abandonImage_sound {F : Fix} (s : State) (service : Bool) (hs : s.Sound F) :
    (State.abandonImage s service).Sound F := by
  unfold State.abandonImage
  (repeat' split) <;> simp_all (maxDischargeDepth := 40)

@[simp] theorem State.endSession_sound {F : Fix} (s : State) (hs : s.Sound F) :
    (State.endSession s).Sound F := by
  unfold State.endSession
  (repeat' split) <;> simp_all (maxDischargeDepth := 40)

@[simp] theorem State.detachUsb_sound {F : Fix} (s : State) (hs : s.Sound F) :
    (State.detachUsb s).Sound F := by
  unfold State.detachUsb
  (repeat' split) <;> simp_all (maxDischargeDepth := 40)

@[simp] theorem State.writeLnkCtrl_sound {F : Fix} (s : State) (v : Word) (hs : s.Sound F) :
    (State.writeLnkCtrl s v).Sound F := by
  simp only [State.writeLnkCtrl]
  (repeat' first | split | (refine sound_foldl _ _ ?_ _ ?_ <;> intros)) <;> simp_all (maxDischargeDepth := 40)

@[simp] theorem State.horizonEffect_sound {F : Fix} (s : State) (a : Nat) (row : RegRow) (i : Nat) (v : Word) (hs :
    s.Sound F) :
    (State.horizonEffect s a row i v).Sound F := by
  unfold State.horizonEffect
  (repeat' split) <;> simp_all (maxDischargeDepth := 40)

@[simp] theorem State.horizonAccess_sound {F : Fix} (s : State) (a : Nat) (write : Option Word) (hs : s.Sound F) :
    (State.horizonAccess s a write).2.2.Sound F := by
  unfold State.horizonAccess
  (repeat' split) <;> simp_all (maxDischargeDepth := 40)

@[simp] theorem State.hostFieldWrite_sound {F : Fix} (s : State) (a : Nat) (v : Word) (hs : s.Sound F) :
    (State.hostFieldWrite s a v).2.Sound F := by
  simp only [State.hostFieldWrite]
  (repeat' split) <;> simp_all (maxDischargeDepth := 40)

@[simp] theorem State.fieldAccess_sound {F : Fix} (s : State) (a : Nat) (write : Option Word) (hs : s.Sound F) :
    (State.fieldAccess s a write).2.2.Sound F := by
  unfold State.fieldAccess
  (repeat' split) <;> simp_all (maxDischargeDepth := 40)

theorem State.hostAccess_sound {F : Fix} (s : State) (a : Nat) (write : Option Word) (hs : s.Sound F) :
    ∀ z, (State.hostAccess s a write) = some z → z.2.2.Sound F := by
  unfold State.hostAccess
  (repeat' split) <;> simp_all (maxDischargeDepth := 40)

theorem execSetUpAccess_sound {F : Fix} (addr : BitVec 24) (write : Option Word) (o : Origin) (s : State) (hs :
    s.Sound F) :
    outSound F (execSetUpAccess addr write o s) := by
  unfold execSetUpAccess
  (repeat' split) <;> simp_all (maxDischargeDepth := 40)

@[simp] theorem State.regRsp_sound {F : Fix} (s : State) (a : Nat) (v : Word) (status : Nat) (hs : s.Sound F) :
    (State.regRsp s a v status).Sound F := by
  unfold State.regRsp
  (repeat' split) <;> simp_all (maxDischargeDepth := 40)

@[simp] theorem State.performReg_sound {F : Fix} (s : State) (a : Nat) (write : Option Word) (hs : s.Sound F) :
    (State.performReg s a write).Sound F := by
  unfold State.performReg
  split
  · rename_i h
    exact State.regRsp_sound _ _ _ _ (State.hostAccess_sound s a write hs _ h)
  · rw [sound_mk]; exact sound_ok hs

@[simp] theorem State.serveRegs_sound {F : Fix} (n : Nat) (s : State) (hs : s.Sound F) :
    (State.serveRegs n s).Sound F := by
  induction n generalizing s with
  | zero => simpa [State.serveRegs]
  | succ n ih =>
    simp only [State.serveRegs]
    split
    · exact hs
    · split
      · exact ih _ (State.performReg_sound _ _ _ hs)
      · exact hs

@[simp] theorem State.serveWaiting_sound {F : Fix} (s : State) (hs : s.Sound F) :
    (State.serveWaiting s).Sound F := by
  exact State.serveRegs_sound _ _ hs

@[simp] theorem State.regMessage_sound {F : Fix} (s : State) (a : Nat) (write : Option Word) (hs : s.Sound F) :
    (s.regMessage a write).Sound F := by
  unfold State.regMessage
  (repeat' split) <;> simp_all (maxDischargeDepth := 40)

theorem execRegRd_sound {F : Fix} (addr : BitVec 24) (s : State) (hs : s.Sound F) :
    outSound F (execRegRd addr s) := by
  unfold execRegRd
  (repeat' split) <;> simp_all (maxDischargeDepth := 40)

theorem execRegWr_sound {F : Fix} (addr : BitVec 24) (v : Word) (s : State) (hs : s.Sound F) :
    outSound F (execRegWr addr v s) := by
  unfold execRegWr
  (repeat' split) <;> simp_all (maxDischargeDepth := 40)

/-! ### Commands -/

@[simp] theorem State.ringHorizon_sound {F : Fix} (s : State) (a : Nat) (w : Option Word) (hs : s.Sound F) :
    (s.ringHorizon a w).2.2.Sound F := by
  have h := State.horizonAccess_sound ({ s with hor := { s.hor with cmdQ := [] } } : State) a w hs
  unfold State.ringHorizon
  dsimp only
  split
  · rw [sound_mk]; exact sound_ok h
  · exact h

@[simp] theorem State.ringAccess_sound {F : Fix} (s : State) (op : Byte) (w : Command → Option Word) (hs : s.Sound
    F) :
    (s.ringAccess op w).Sound F := by
  unfold State.ringAccess
  split
  · exact hs
  · dsimp only
    split
    · exact State.runField_sound _ _ _ hs (fun c t ht => State.fieldAccess_sound _ _ _ ht)
    · split
      · exact hs
      · rename_i h
        exact State.finish_sound _ _ _ _ (State.ringHorizon_sound _ _ _ (State.command_sound s op hs _ h))

theorem execSetupRead_sound {F : Fix} (s : State) (hs : s.Sound F) :
    outSound F (execSetupRead s) := by
  unfold execSetupRead
  (repeat' split) <;> simp_all (maxDischargeDepth := 40)

theorem execSetupWrite_sound {F : Fix} (s : State) (hs : s.Sound F) :
    outSound F (execSetupWrite s) := by
  unfold execSetupWrite
  (repeat' split) <;> simp_all (maxDischargeDepth := 40)

@[simp] theorem State.secStat_sound {F : Fix} (s : State) (v : Verdict) (hs : s.Sound F) :
    (State.secStat s v).Sound F := by
  unfold State.secStat
  (repeat' split) <;> simp_all (maxDischargeDepth := 40)

@[simp] theorem State.secFail_sound {F : Fix} (s : State) (v : Verdict) (hs : s.Sound F) :
    (State.secFail s v).Sound F := by
  unfold State.secFail
  (repeat' split) <;> simp_all (maxDischargeDepth := 40)

@[simp] theorem State.imageOpen_sound {F : Fix} (s : State) (service : Bool) (len : Nat) (hs : s.Sound F) :
    (State.imageOpen s service len).2.Sound F := by
  unfold State.imageOpen
  (repeat' split) <;> simp_all (maxDischargeDepth := 40)

@[simp] theorem State.imagePut_sound {F : Fix} (s : State) (service : Bool) (off : Nat) (bs : List Byte) (hs :
    s.Sound F) :
    (State.imagePut s service off bs).2.Sound F := by
  unfold State.imagePut
  (repeat' split) <;> simp_all (maxDischargeDepth := 40)

@[simp] theorem State.imageFail_sound {F : Fix} (s : State) (v : Verdict) (hs : s.Sound F) :
    (State.imageFail s v).2.Sound F := by
  unfold State.imageFail
  (repeat' split) <;> simp_all (maxDischargeDepth := 40)

@[simp] theorem State.imageClose_sound {F : Fix} (s : State) (service : Bool) (hs : s.Sound F) :
    (s.imageClose service).2.Sound F := by
  unfold State.imageClose
  split
  · exact hs
  · rename_i q _
    split
    · exact hs
    · have h0 : ({ s with hor := { s.hor with image := none } } : State).Sound F := by rw [sound_mk]; exact sound_ok hs
      revert h0
      generalize ({ s with hor := { s.hor with image := none } } : State) = t
      intro h0
      dsimp only
      split
      · exact State.imageFail_sound _ _ h0
      · split
        · split
          · exact State.imageFail_sound _ _ h0
          · split
            · rename_i slot _ hm
              have hp : (t.key slot).prog = true := by
                simp only [State.mayRevoke, Bool.and_eq_true] at hm
                exact hm.1.1
              exact State.modKey_sound _ _ _ (State.secStat_sound _ _ h0) (fun _ => hp) (fun h => ⟨h, rfl, rfl⟩)
                (fun _ => rfl)
            · exact State.imageFail_sound _ _ (State.takeFresh_sound _ h0)
        · exact State.writeBoot_sound _ _ (State.secStat_sound _ _ h0)

theorem execImageBegin_sound {F : Fix} (s : State) (hs : s.Sound F) :
    outSound F (execImageBegin s) := by
  unfold execImageBegin
  (repeat' split) <;> simp_all (maxDischargeDepth := 40)

theorem execImageBlock_sound {F : Fix} (s : State) (hs : s.Sound F) :
    outSound F (execImageBlock s) := by
  unfold execImageBlock
  grind [sound_foldl, optSound, outSound, sound_ok, sound_mk,
    outSound_unitOk, ok_reg, ok_glob, ok_dram, ok_mram, Ctx.next_sound, State.runField_sound, State.imagePut_sound]

theorem execImageEnd_sound {F : Fix} (s : State) (hs : s.Sound F) :
    outSound F (execImageEnd s) := by
  unfold execImageEnd
  (repeat' split) <;> simp_all (maxDischargeDepth := 40)

theorem execImageSequenceTimeout_sound {F : Fix} (s : State) (hs : s.Sound F) :
    outSound F (execImageSequenceTimeout s) := by
  unfold execImageSequenceTimeout
  (repeat' split) <;> simp_all (maxDischargeDepth := 40)

@[simp] theorem State.stageTrial_sound {F : Fix} (s : State) (g : Img) (x : Section) (p : Nat) (hs : s.Sound F) :
    (State.stageTrial s g x p).Sound F := by
  unfold State.stageTrial
  (repeat' split) <;> simp_all (maxDischargeDepth := 40)

@[simp] theorem State.stage_sound {F : Fix} (s : State) (g : Img) (x : Section) (p : Nat) (hs : s.Sound F) :
    (State.stage s g x p).Sound F := by
  unfold State.stage
  (repeat' split) <;> simp_all (maxDischargeDepth := 40)

theorem execImageStage_sound {F : Fix} (s : State) (hs : s.Sound F) :
    outSound F (execImageStage s) := by
  unfold execImageStage
  refine State.runField_sound _ _ _ hs (fun c t ht => ?_)
  dsimp only
  split
  · exact ht
  · split
    · exact ht
    · split
      · exact ht
      · split
        · exact State.stage_sound _ _ _ _ (sound_if (State.noteMargins_sound _ _ ht (State.stageTrial_sound _ _ _ _ ht)) ht)
        · exact sound_if (State.noteMargins_sound _ _ ht (State.stageTrial_sound _ _ _ _ ht)) ht

@[simp] theorem State.runMemory_sound {F : Fix} (s : State) (op : Byte) (check : MemRange → Nat) (f : Command → MemRange →
    State → Answer × State) (hs : s.Sound F) (hf : ∀ (y0 : Command) (y1 : MemRange) (y2 : State), y2.Sound F → (f y0 y1 y2).2.Sound
        F) :
    (State.runMemory s op check f).Sound F := by
  simp only [State.runMemory]
  (repeat' split) <;> simp_all (maxDischargeDepth := 40)

@[simp] theorem State.readFree_sound {F : Fix} (s : State) (m : MemRange) (hs : s.Sound F) :
    (s.readFree m).2.Sound F := by
  unfold State.readFree
  dsimp only
  split <;> exact hs

theorem execMemRead_sound {F : Fix} (s : State) (hs : s.Sound F) :
    outSound F (execMemRead s) := by
  refine State.runMemory_sound _ _ _ _ hs (fun c m t ht => ?_)
  dsimp only
  split
  · exact ht
  · exact State.readFree_sound t m ht

@[simp] theorem State.writeCell_sound {F : Fix} (s : State) (p : Nat) (i : Bool) (o n : Nat) (b : List Byte) (hs :
    s.Sound F) :
    (s.writeCell p i o n b).Sound F := by
  induction n generalizing s o b with
  | zero => simpa [State.writeCell]
  | succ k ih => simp only [State.writeCell]; grind [optSound, sound_ok, sound_mk, ok_globB, ok_reg,
      State.recordReplay_sound, State.debugWrite_sound]

@[simp] theorem State.writeRange_sound {F : Fix} (s : State) (m : MemRange) (bs : List Byte) (hs : s.Sound F) :
    (s.writeRange m bs).Sound F := by
  have h1 : (match m.poisonNo with
      | some n => m.words.foldl (fun (s : State) w => s.clearPoison n w) s
      | none => s).Sound F := by
    split
    · exact sound_foldl _ _ (fun t w ht => State.clearPoison_sound _ _ _ ht) _ hs
    · exact hs
  unfold State.writeRange
  extract_lets t
  have h1 : t.Sound F := h1
  clear_value t
  split
  · exact State.writeCell_sound _ _ _ _ _ _ h1
  · exact State.writeCell_sound _ _ _ _ _ _ h1
  · exact State.modCloud_sound _ _ _ h1
  · rw [sound_mk]; exact ok_glob (sound_ok h1)
  · rw [sound_mk]; exact ok_dram (sound_ok h1)
  · exact State.bump_sound _ _ (State.mramWrite_sound _ _ _ h1)

theorem execMemWrite_sound {F : Fix} (s : State) (hs : s.Sound F) :
    outSound F (execMemWrite s) := by
  exact State.runMemory_sound _ _ _ _ hs (fun c m t ht => State.writeRange_sound t m _ ht)

@[simp] theorem State.runView_sound {F : Fix} (s : State) (op : Byte) (cell : Command → State → Option Nat) (f :
    Command → Nat → State → Answer) (hs : s.Sound F) :
    (State.runView s op cell f).Sound F := by
  unfold State.runView
  grind [sound_foldl, optSound, outSound, sound_ok, sound_mk,
    outSound_unitOk, ok_reg, ok_glob, ok_dram, ok_mram, State.runField_sound, State.wakeCloud_sound]

theorem execSetView_sound {F : Fix} (s : State) (hs : s.Sound F) :
    outSound F (execSetView s) := by
  unfold execSetView
  (repeat' split) <;> simp_all (maxDischargeDepth := 40)

theorem execKeyView_sound {F : Fix} (s : State) (hs : s.Sound F) :
    outSound F (execKeyView s) := by
  unfold execKeyView
  (repeat' split) <;> simp_all (maxDischargeDepth := 40)

theorem execSlotView_sound {F : Fix} (s : State) (hs : s.Sound F) :
    outSound F (execSlotView s) := by
  unfold execSlotView
  (repeat' split) <;> simp_all (maxDischargeDepth := 40)

@[simp] theorem State.selfTest_sound {F : Fix} (s : State) (r : TestOutcome) (hs : s.Sound F) :
    (State.selfTest s r).2.Sound F := by
  unfold State.selfTest
  split
  · exact hs
  · exact State.powerPlaced_sound _ (State.takeOut_sound _ _ _ _
      (sound_foldl _ _ (fun t x h => State.mendMacro_sound _ _ _ h) _ hs))

theorem execSelftest_sound {F : Fix} (r : TestOutcome) (s : State) (hs : s.Sound F) :
    outSound F (execSelftest r s) := by
  unfold execSelftest
  (repeat' split) <;> simp_all (maxDischargeDepth := 40)

@[simp] theorem State.freeDigest_sound {F : Fix} (s : State) (hs : s.Sound F) : (s.freeDigest).2.Sound F := by
  have key : ∀ (l : List Nat) (p : BitVec 256 × State), p.2.Sound F →
      (l.foldl (fun (p : BitVec 256 × State) _ =>
        ((p.1 <<< 32) ||| (Config.freeWord p.2.takeFresh.1).setWidth 256, p.2.takeFresh.2)) p).2.Sound F := by
    intro l
    induction l with
    | nil => intro p hp; exact hp
    | cons x l ih => intro p hp; exact ih _ (State.takeFresh_sound _ hp)
  exact key _ (0, s) hs

@[simp] theorem State.keyRefuse_sound {F : Fix} (s : State) (v : Option Verdict) (hs : s.Sound F) :
    (State.keyRefuse s v).2.Sound F := by
  simp only [State.keyRefuse]
  (repeat' split) <;> simp_all (maxDischargeDepth := 40)

theorem State.freeDigest_keys (s : State) : (s.freeDigest).2.hor.keys = s.hor.keys := by
  have key : ∀ (l : List Nat) (p : BitVec 256 × State),
      (l.foldl (fun (p : BitVec 256 × State) _ =>
        ((p.1 <<< 32) ||| (Config.freeWord p.2.takeFresh.1).setWidth 256, p.2.takeFresh.2)) p).2.hor.keys
        = p.2.hor.keys := by
    intro l
    induction l with
    | nil => intro p; rfl
    | cons x l ih => intro p; rw [List.foldl_cons, ih]; rfl
  exact key _ (0, s)

theorem State.blowKey_sound {F : Fix} (s : State) (k : KeyOrder) (ok : Bool) (hs : s.Sound F)
    (hp : (s.key k.slot).prog = false) : (s.blowKey k ok).2.Sound F := by
  have hr : (s.key k.slot).revoked = false := by
    have h := (sound_ok hs).rev k.slot
    have e : keyAt s.hor.keys k.slot = s.key k.slot := rfl
    rw [e, hp] at h
    simpa using h
  unfold State.blowKey
  split
  · exact State.modKey_sound _ _ _ hs (fun _ => rfl) (fun h => by rw [hp] at h; cases h) (fun h => h)
  · dsimp only
    have hk : (s.freeDigest.2.takeFresh.2).key k.slot = s.key k.slot := by
      show tget _ s.freeDigest.2.hor.keys _ = _
      rw [State.freeDigest_keys]; rfl
    refine State.secFail_sound _ _ (State.modKey_sound _ _ _ (State.takeFresh_sound _ (State.freeDigest_sound _
        hs)) ?_ ?_ ?_)
    · intro h
      have h' : (s.freeDigest.2.takeFresh.2.key k.slot).revoked = true := h
      rw [hk, hr] at h'; cases h'
    · intro h; rw [hk, hp] at h; cases h
    · intro h; exact h

@[simp] theorem State.programKey_sound {F : Fix} (s : State) (k : KeyOrder) (ok : Bool) (hs : s.Sound F) :
    (s.programKey k ok).2.Sound F := by
  unfold State.programKey
  split
  · exact hs
  · split
    · exact State.keyRefuse_sound _ _ hs
    · rename_i hp
      have hp : (s.key k.slot).prog = false := by
        cases e : (s.key k.slot).prog with
        | false => rfl
        | true => exact absurd (Or.inl e) hp
      split
      · exact State.blowKey_sound _ _ _ hs hp
      · split
        · exact State.keyRefuse_sound _ _ hs
        · dsimp only
          split
          · exact State.keyRefuse_sound _ _ hs
          · exact State.blowKey_sound _ _ _ (State.secStat_sound _ _ hs) hp

theorem execKeyProgram_sound {F : Fix} (readBackOk : Bool) (s : State) (hs : s.Sound F) :
    outSound F (execKeyProgram readBackOk s) := by
  unfold execKeyProgram
  rw [outSound_next]
  split
  · exact hs
  · rename_i h
    have h1 := State.command_sound _ _ hs _ h
    exact State.finish_sound _ _ _ _ (State.programKey_sound _ _ _ h1)

theorem execFieldSideTimeout_sound {F : Fix} (s : State) (hs : s.Sound F) :
    outSound F (execFieldSideTimeout s) := by
  unfold execFieldSideTimeout
  rw [outSound_next]
  split
  · exact hs
  · split
    · exact State.serveWaiting_sound _ hs
    · split
      · exact State.regRsp_sound _ _ _ _ (by rw [sound_mk]; exact sound_ok hs)
      · split
        · exact hs
        · split
          · exact hs
          · split
            · rename_i h
              exact State.finish_sound _ _ _ _ (State.command_sound s _ hs _ h)
            · exact hs

/-! ### Inject -/

@[simp] theorem State.injectNext_sound {F : Fix} (s : State) (hs : s.Sound F) :
    (State.injectNext s).Sound F := by
  unfold State.injectNext
  (repeat' split) <;> simp_all (maxDischargeDepth := 40)

@[simp] theorem State.injectToken_sound {F : Fix} (s : State) (e : List Byte) (hs : s.Sound F) :
    (State.injectToken s e).Sound F := by
  unfold State.injectToken
  (repeat' split) <;> simp_all (maxDischargeDepth := 40)

theorem execInjectEntry_sound {F : Fix} (s : State) (hs : s.Sound F) :
    outSound F (execInjectEntry s) := by
  unfold execInjectEntry
  (repeat' split) <;> simp_all (maxDischargeDepth := 40)

theorem execExtractToken_sound {F : Fix} (s : State) (hs : s.Sound F) :
    outSound F (execExtractToken s) := by
  unfold execExtractToken
  (repeat' split) <;> simp_all (maxDischargeDepth := 40)

theorem execExtractDrop_sound {F : Fix} (s : State) (hs : s.Sound F) :
    outSound F (execExtractDrop s) := by
  unfold execExtractDrop
  (repeat' split) <;> simp_all (maxDischargeDepth := 40)

/-! ### Service -/

@[simp] theorem State.modSvc_sound {F : Fix} (s : State) (f : Service → Service) (hs : s.Sound F) :
    (State.modSvc s f).Sound F := by
  unfold State.modSvc
  (repeat' split) <;> simp_all (maxDischargeDepth := 40)

@[simp] theorem State.svcAnswer_sound {F : Fix} (s : State) (seq : Byte) (cmd : Byte) (status : Nat) (payload :
    List Byte) (hs : s.Sound F) :
    (State.svcAnswer s seq cmd status payload).Sound F := by
  unfold State.svcAnswer
  (repeat' split) <;> simp_all (maxDischargeDepth := 40)

@[simp] theorem State.service_sound {F : Fix} (s : State) (seq : Byte) (cmd : Byte) (level : Nat) (f : State → Nat
    × List Byte × State) (hs : s.Sound F) (hf : ∀ (y0 : State), y0.Sound F → (f y0).2.2.Sound F) :
    outSound F (State.service s seq cmd level f) := by
  simp only [State.service]
  (repeat' split) <;> simp_all (maxDischargeDepth := 40)

@[simp] theorem State.onField_sound {F : Fix} (f : State → Nat × List Byte × State) (s : State) (hf : ∀ (y0 :
    State), y0.Sound F → (f y0).2.2.Sound F) (hs : s.Sound F) :
    (State.onField f s).2.2.Sound F := by
  unfold State.onField
  (repeat' split) <;> simp_all (maxDischargeDepth := 40)

@[simp] theorem Answer.frame_sound {F : Fix} (r : Answer × State) (hr : r.2.Sound F) :
    (Answer.frame r).2.2.Sound F := hr

theorem execUsbConnect_sound {F : Fix} (s : State) (hs : s.Sound F) :
    outSound F (execUsbConnect s) := by
  unfold execUsbConnect
  (repeat' split) <;> simp_all (maxDischargeDepth := 40)

theorem execUsbDisconnect_sound {F : Fix} (s : State) (hs : s.Sound F) :
    outSound F (execUsbDisconnect s) := by
  unfold execUsbDisconnect
  (repeat' split) <;> simp_all (maxDischargeDepth := 40)

theorem execSessionTimeout_sound {F : Fix} (s : State) (hs : s.Sound F) :
    outSound F (execSessionTimeout s) := by
  unfold execSessionTimeout
  (repeat' split) <;> simp_all (maxDischargeDepth := 40)

theorem execLockoutEnd_sound {F : Fix} (s : State) (hs : s.Sound F) :
    outSound F (execLockoutEnd s) := by
  unfold execLockoutEnd
  (repeat' split) <;> simp_all (maxDischargeDepth := 40)

theorem execLogout_sound {F : Fix} (seq : Byte) (s : State) (hs : s.Sound F) :
    outSound F (execLogout seq s) := by
  unfold execLogout
  (repeat' split) <;> simp_all (maxDischargeDepth := 40)

theorem execIdent_sound {F : Fix} (seq : Byte) (s : State) (hs : s.Sound F) :
    outSound F (execIdent seq s) := by
  unfold execIdent
  (repeat' split) <;> simp_all (maxDischargeDepth := 40)

theorem execChallenge_sound {F : Fix} (seq : Byte) (s : State) (hs : s.Sound F) :
    outSound F (execChallenge seq s) := by
  unfold execChallenge
  grind [sound_foldl, optSound, outSound, sound_ok, sound_mk,
    outSound_unitOk, ok_reg, ok_glob, ok_dram, ok_mram, State.service_sound, State.takeFresh_sound,
        State.modSvc_sound]

@[simp] theorem State.authFailed_sound {F : Fix} (s : State) (hs : s.Sound F) :
    (State.authFailed s).Sound F := by
  unfold State.authFailed
  (repeat' split) <;> simp_all (maxDischargeDepth := 40)

theorem execAuth_sound {F : Fix} (seq : Byte) (p : AuthPayload) (s : State) (hs : s.Sound F) :
    outSound F (execAuth seq p s) := by
  unfold execAuth
  grind [sound_foldl, optSound, outSound, sound_ok, sound_mk,
    outSound_unitOk, ok_reg, ok_glob, ok_dram, ok_mram, State.service_sound, State.modSvc_sound,
        State.authFailed_sound, State.takeFresh_sound]

theorem execLogread_sound {F : Fix} (seq : Byte) (first : BitVec 16) (count : Nat) (s : State) (hs : s.Sound F) :
    outSound F (execLogread seq first count s) := by
  unfold execLogread
  (repeat' split) <;> simp_all (maxDischargeDepth := 40)

@[simp] theorem State.readRun_sound {F : Fix} (n : Nat) (s : State) (a : Nat) (b : List Byte) (hs : s.Sound F) :
    (State.readRun n s a b).2.2.Sound F := by
  induction n generalizing s a b with
  | zero => exact hs
  | succ n ih =>
    simp only [State.readRun]
    split
    · exact hs
    · rename_i st v t h
      have ht : t.Sound F := State.hostAccess_sound s a none hs _ h
      split
      · exact ih _ _ _ ht
      · exact ht

theorem execRegread_sound {F : Fix} (seq : Byte) (addr : BitVec 24) (count : Nat) (s : State) (hs : s.Sound F) :
    outSound F (execRegread seq addr count s) := by
  unfold execRegread
  (repeat' split) <;> simp_all (maxDischargeDepth := 40)

theorem execSvcSelftest_sound {F : Fix} (seq : Byte) (r : TestOutcome) (s : State) (hs : s.Sound F) :
    outSound F (execSvcSelftest seq r s) := by
  unfold execSvcSelftest
  (repeat' split) <;> simp_all (maxDischargeDepth := 40)

@[simp] theorem State.svcImage_sound {F : Fix} (s : State) (seq : Byte) (cmd : Byte) (f : State → Nat × List Byte ×
    State) (hs : s.Sound F) (hf : ∀ (y0 : State), y0.Sound F → (f y0).2.2.Sound F) :
    outSound F (State.svcImage s seq cmd f) := by
  unfold State.svcImage
  grind [sound_foldl, optSound, outSound, sound_ok, sound_mk,
    outSound_unitOk, ok_reg, ok_glob, ok_dram, ok_mram, State.service_sound, State.onField_sound]

theorem execImgBegin_sound {F : Fix} (seq : Byte) (len : Word) (s : State) (hs : s.Sound F) :
    outSound F (execImgBegin seq len s) := by
  unfold execImgBegin
  (repeat' split) <;> simp_all (maxDischargeDepth := 40)

theorem execImgBlock_sound {F : Fix} (seq : Byte) (off : Word) (bytes : List Byte) (s : State) (hs : s.Sound F) :
    outSound F (execImgBlock seq off bytes s) := by
  unfold execImgBlock
  (repeat' split) <;> simp_all (maxDischargeDepth := 40)

theorem execImgEnd_sound {F : Fix} (seq : Byte) (s : State) (hs : s.Sound F) :
    outSound F (execImgEnd seq s) := by
  unfold execImgEnd
  (repeat' split) <;> simp_all (maxDischargeDepth := 40)

theorem execKeyProg_sound {F : Fix} (seq : Byte) (slot : BitVec 2) (usage : BitVec 2) (digest : BitVec 256) (authz
    : SigBlock) (readBackOk : Bool) (s : State) (hs : s.Sound F) :
    outSound F (execKeyProg seq slot usage digest authz readBackOk s) := by
  unfold execKeyProg
  (repeat' split) <;> simp_all (maxDischargeDepth := 40)

/-! ### Tick -/

@[simp] theorem State.movePorts_sound {F : Fix} (s : State) (hs : s.Sound F) : (State.movePorts s).Sound F :=
  sound_if (State.pumpPorts_sound s hs) hs

@[simp] theorem State.tick_sound {F : Fix} (s : State) (hs : s.Sound F) :
    (State.tick s).Sound F := by
  exact State.serveWaiting_sound _ (State.writeStatus_sound _ (State.flushRings_sound _ (State.drainTrace_sound _
    (State.movePorts_sound _ (State.coreCycle_sound _ hs)))))

end Sys2Proof.Machine
end

