-- ==== Sys2Proof/Laws/State.lean ====
section
/-! SUPPORT. What each update of the state leaves as it is: one lemma per field and update. -/

namespace Sys2Proof.Machine

/-! ### State.setCell -/

@[simp] theorem State.setCell_pending (s : State) (p : Nat) (c : Cell) : (s.setCell p c).pending = s.pending :=
  (rfl)
@[simp] theorem State.setCell_variant (s : State) (p : Nat) (c : Cell) : (s.setCell p c).variant = s.variant :=
  (rfl)
@[simp] theorem State.setCell_regs (s : State) (p : Nat) (c : Cell) : (s.setCell p c).regs = s.regs := (rfl)
@[simp] theorem State.setCell_mode (s : State) (p : Nat) (c : Cell) : (s.setCell p c).mode = s.mode := (rfl)
@[simp] theorem State.setCell_zen (s : State) (p : Nat) (c : Cell) : (s.setCell p c).zen = s.zen := (rfl)
@[simp] theorem State.setCell_flt (s : State) (p : Nat) (c : Cell) : (s.setCell p c).flt = s.flt := (rfl)
@[simp] theorem State.setCell_dsp (s : State) (p : Nat) (c : Cell) : (s.setCell p c).dsp = s.dsp := (rfl)
@[simp] theorem State.setCell_seq (s : State) (p : Nat) (c : Cell) : (s.setCell p c).seq = s.seq := (rfl)
@[simp] theorem State.setCell_jet (s : State) (p : Nat) (c : Cell) : (s.setCell p c).jet = s.jet := (rfl)
@[simp] theorem State.setCell_mem (s : State) (p : Nat) (c : Cell) : (s.setCell p c).mem = s.mem := (rfl)
@[simp] theorem State.setCell_pairs (s : State) (p : Nat) (c : Cell) : (s.setCell p c).pairs = s.pairs := (rfl)
@[simp] theorem State.setCell_rep (s : State) (p : Nat) (c : Cell) : (s.setCell p c).rep = s.rep := (rfl)
@[simp] theorem State.setCell_fio (s : State) (p : Nat) (c : Cell) : (s.setCell p c).fio = s.fio := (rfl)
@[simp] theorem State.setCell_bar (s : State) (p : Nat) (c : Cell) : (s.setCell p c).bar = s.bar := (rfl)
@[simp] theorem State.setCell_hor (s : State) (p : Nat) (c : Cell) : (s.setCell p c).hor = s.hor := (rfl)
@[simp] theorem State.setCell_clouds (s : State) (p : Nat) (c : Cell) : (s.setCell p c).clouds = s.clouds := (rfl)
@[simp] theorem State.setCell_fresh (s : State) (p : Nat) (c : Cell) : (s.setCell p c).fresh = s.fresh := (rfl)

/-! ### State.modCell -/

@[simp] theorem State.modCell_pending (s : State) (p : Nat) (f : Cell → Cell) : (s.modCell p f).pending = s.pending := by
  simp [State.modCell]
@[simp] theorem State.modCell_variant (s : State) (p : Nat) (f : Cell → Cell) : (s.modCell p f).variant = s.variant := by
  simp [State.modCell]
@[simp] theorem State.modCell_regs (s : State) (p : Nat) (f : Cell → Cell) : (s.modCell p f).regs = s.regs := by
  simp [State.modCell]
@[simp] theorem State.modCell_mode (s : State) (p : Nat) (f : Cell → Cell) : (s.modCell p f).mode = s.mode := by
  simp [State.modCell]
@[simp] theorem State.modCell_zen (s : State) (p : Nat) (f : Cell → Cell) : (s.modCell p f).zen = s.zen := by
  simp [State.modCell]
@[simp] theorem State.modCell_flt (s : State) (p : Nat) (f : Cell → Cell) : (s.modCell p f).flt = s.flt := by
  simp [State.modCell]
@[simp] theorem State.modCell_dsp (s : State) (p : Nat) (f : Cell → Cell) : (s.modCell p f).dsp = s.dsp := by
  simp [State.modCell]
@[simp] theorem State.modCell_seq (s : State) (p : Nat) (f : Cell → Cell) : (s.modCell p f).seq = s.seq := by
  simp [State.modCell]
@[simp] theorem State.modCell_jet (s : State) (p : Nat) (f : Cell → Cell) : (s.modCell p f).jet = s.jet := by
  simp [State.modCell]
@[simp] theorem State.modCell_mem (s : State) (p : Nat) (f : Cell → Cell) : (s.modCell p f).mem = s.mem := by
  simp [State.modCell]
@[simp] theorem State.modCell_pairs (s : State) (p : Nat) (f : Cell → Cell) : (s.modCell p f).pairs = s.pairs := by
  simp [State.modCell]
@[simp] theorem State.modCell_rep (s : State) (p : Nat) (f : Cell → Cell) : (s.modCell p f).rep = s.rep := by
  simp [State.modCell]
@[simp] theorem State.modCell_fio (s : State) (p : Nat) (f : Cell → Cell) : (s.modCell p f).fio = s.fio := by
  simp [State.modCell]
@[simp] theorem State.modCell_bar (s : State) (p : Nat) (f : Cell → Cell) : (s.modCell p f).bar = s.bar := by
  simp [State.modCell]
@[simp] theorem State.modCell_hor (s : State) (p : Nat) (f : Cell → Cell) : (s.modCell p f).hor = s.hor := by
  simp [State.modCell]
@[simp] theorem State.modCell_clouds (s : State) (p : Nat) (f : Cell → Cell) : (s.modCell p f).clouds = s.clouds := by
  simp [State.modCell]
@[simp] theorem State.modCell_fresh (s : State) (p : Nat) (f : Cell → Cell) : (s.modCell p f).fresh = s.fresh := by
  simp [State.modCell]

/-! ### State.mapCells -/

@[simp] theorem State.mapCells_pending (s : State) (f : Nat → Cell → Cell) : (s.mapCells f).pending = s.pending :=
  (rfl)
@[simp] theorem State.mapCells_variant (s : State) (f : Nat → Cell → Cell) : (s.mapCells f).variant = s.variant :=
  (rfl)
@[simp] theorem State.mapCells_regs (s : State) (f : Nat → Cell → Cell) : (s.mapCells f).regs = s.regs := (rfl)
@[simp] theorem State.mapCells_mode (s : State) (f : Nat → Cell → Cell) : (s.mapCells f).mode = s.mode := (rfl)
@[simp] theorem State.mapCells_zen (s : State) (f : Nat → Cell → Cell) : (s.mapCells f).zen = s.zen := (rfl)
@[simp] theorem State.mapCells_flt (s : State) (f : Nat → Cell → Cell) : (s.mapCells f).flt = s.flt := (rfl)
@[simp] theorem State.mapCells_dsp (s : State) (f : Nat → Cell → Cell) : (s.mapCells f).dsp = s.dsp := (rfl)
@[simp] theorem State.mapCells_seq (s : State) (f : Nat → Cell → Cell) : (s.mapCells f).seq = s.seq := (rfl)
@[simp] theorem State.mapCells_jet (s : State) (f : Nat → Cell → Cell) : (s.mapCells f).jet = s.jet := (rfl)
@[simp] theorem State.mapCells_mem (s : State) (f : Nat → Cell → Cell) : (s.mapCells f).mem = s.mem := (rfl)
@[simp] theorem State.mapCells_pairs (s : State) (f : Nat → Cell → Cell) : (s.mapCells f).pairs = s.pairs := (rfl)
@[simp] theorem State.mapCells_rep (s : State) (f : Nat → Cell → Cell) : (s.mapCells f).rep = s.rep := (rfl)
@[simp] theorem State.mapCells_fio (s : State) (f : Nat → Cell → Cell) : (s.mapCells f).fio = s.fio := (rfl)
@[simp] theorem State.mapCells_bar (s : State) (f : Nat → Cell → Cell) : (s.mapCells f).bar = s.bar := (rfl)
@[simp] theorem State.mapCells_hor (s : State) (f : Nat → Cell → Cell) : (s.mapCells f).hor = s.hor := (rfl)
@[simp] theorem State.mapCells_clouds (s : State) (f : Nat → Cell → Cell) : (s.mapCells f).clouds = s.clouds :=
  (rfl)
@[simp] theorem State.mapCells_fresh (s : State) (f : Nat → Cell → Cell) : (s.mapCells f).fresh = s.fresh := (rfl)

/-! ### State.modCloud -/

@[simp] theorem State.modCloud_pending (s : State) (c : Nat) (f : Cloud → Cloud) : (s.modCloud c f).pending = s.pending :=
  (rfl)
@[simp] theorem State.modCloud_variant (s : State) (c : Nat) (f : Cloud → Cloud) : (s.modCloud c f).variant = s.variant :=
  (rfl)
@[simp] theorem State.modCloud_regs (s : State) (c : Nat) (f : Cloud → Cloud) : (s.modCloud c f).regs = s.regs :=
  (rfl)
@[simp] theorem State.modCloud_mode (s : State) (c : Nat) (f : Cloud → Cloud) : (s.modCloud c f).mode = s.mode :=
  (rfl)
@[simp] theorem State.modCloud_zen (s : State) (c : Nat) (f : Cloud → Cloud) : (s.modCloud c f).zen = s.zen := (rfl)
@[simp] theorem State.modCloud_flt (s : State) (c : Nat) (f : Cloud → Cloud) : (s.modCloud c f).flt = s.flt := (rfl)
@[simp] theorem State.modCloud_dsp (s : State) (c : Nat) (f : Cloud → Cloud) : (s.modCloud c f).dsp = s.dsp := (rfl)
@[simp] theorem State.modCloud_seq (s : State) (c : Nat) (f : Cloud → Cloud) : (s.modCloud c f).seq = s.seq := (rfl)
@[simp] theorem State.modCloud_jet (s : State) (c : Nat) (f : Cloud → Cloud) : (s.modCloud c f).jet = s.jet := (rfl)
@[simp] theorem State.modCloud_mem (s : State) (c : Nat) (f : Cloud → Cloud) : (s.modCloud c f).mem = s.mem := (rfl)
@[simp] theorem State.modCloud_pairs (s : State) (c : Nat) (f : Cloud → Cloud) : (s.modCloud c f).pairs = s.pairs :=
  (rfl)
@[simp] theorem State.modCloud_rep (s : State) (c : Nat) (f : Cloud → Cloud) : (s.modCloud c f).rep = s.rep := (rfl)
@[simp] theorem State.modCloud_fio (s : State) (c : Nat) (f : Cloud → Cloud) : (s.modCloud c f).fio = s.fio := (rfl)
@[simp] theorem State.modCloud_bar (s : State) (c : Nat) (f : Cloud → Cloud) : (s.modCloud c f).bar = s.bar := (rfl)
@[simp] theorem State.modCloud_hor (s : State) (c : Nat) (f : Cloud → Cloud) : (s.modCloud c f).hor = s.hor := (rfl)
@[simp] theorem State.modCloud_cells (s : State) (c : Nat) (f : Cloud → Cloud) : (s.modCloud c f).cells = s.cells :=
  (rfl)
@[simp] theorem State.modCloud_fresh (s : State) (c : Nat) (f : Cloud → Cloud) : (s.modCloud c f).fresh = s.fresh :=
  (rfl)

/-! ### State.mapClouds -/

@[simp] theorem State.mapClouds_pending (s : State) (f : Nat → Cloud → Cloud) : (s.mapClouds f).pending = s.pending :=
  (rfl)
@[simp] theorem State.mapClouds_variant (s : State) (f : Nat → Cloud → Cloud) : (s.mapClouds f).variant = s.variant :=
  (rfl)
@[simp] theorem State.mapClouds_regs (s : State) (f : Nat → Cloud → Cloud) : (s.mapClouds f).regs = s.regs := (rfl)
@[simp] theorem State.mapClouds_mode (s : State) (f : Nat → Cloud → Cloud) : (s.mapClouds f).mode = s.mode := (rfl)
@[simp] theorem State.mapClouds_zen (s : State) (f : Nat → Cloud → Cloud) : (s.mapClouds f).zen = s.zen := (rfl)
@[simp] theorem State.mapClouds_flt (s : State) (f : Nat → Cloud → Cloud) : (s.mapClouds f).flt = s.flt := (rfl)
@[simp] theorem State.mapClouds_dsp (s : State) (f : Nat → Cloud → Cloud) : (s.mapClouds f).dsp = s.dsp := (rfl)
@[simp] theorem State.mapClouds_seq (s : State) (f : Nat → Cloud → Cloud) : (s.mapClouds f).seq = s.seq := (rfl)
@[simp] theorem State.mapClouds_jet (s : State) (f : Nat → Cloud → Cloud) : (s.mapClouds f).jet = s.jet := (rfl)
@[simp] theorem State.mapClouds_mem (s : State) (f : Nat → Cloud → Cloud) : (s.mapClouds f).mem = s.mem := (rfl)
@[simp] theorem State.mapClouds_pairs (s : State) (f : Nat → Cloud → Cloud) : (s.mapClouds f).pairs = s.pairs :=
  (rfl)
@[simp] theorem State.mapClouds_rep (s : State) (f : Nat → Cloud → Cloud) : (s.mapClouds f).rep = s.rep := (rfl)
@[simp] theorem State.mapClouds_fio (s : State) (f : Nat → Cloud → Cloud) : (s.mapClouds f).fio = s.fio := (rfl)
@[simp] theorem State.mapClouds_bar (s : State) (f : Nat → Cloud → Cloud) : (s.mapClouds f).bar = s.bar := (rfl)
@[simp] theorem State.mapClouds_hor (s : State) (f : Nat → Cloud → Cloud) : (s.mapClouds f).hor = s.hor := (rfl)
@[simp] theorem State.mapClouds_cells (s : State) (f : Nat → Cloud → Cloud) : (s.mapClouds f).cells = s.cells :=
  (rfl)
@[simp] theorem State.mapClouds_fresh (s : State) (f : Nat → Cloud → Cloud) : (s.mapClouds f).fresh = s.fresh :=
  (rfl)

/-! ### State.modBank -/

@[simp] theorem State.modBank_pending (s : State) (b : Nat) (f : Bank → Bank) : (s.modBank b f).pending = s.pending :=
  (rfl)
@[simp] theorem State.modBank_variant (s : State) (b : Nat) (f : Bank → Bank) : (s.modBank b f).variant = s.variant :=
  (rfl)
@[simp] theorem State.modBank_regs (s : State) (b : Nat) (f : Bank → Bank) : (s.modBank b f).regs = s.regs := (rfl)
@[simp] theorem State.modBank_mode (s : State) (b : Nat) (f : Bank → Bank) : (s.modBank b f).mode = s.mode := (rfl)
@[simp] theorem State.modBank_zen (s : State) (b : Nat) (f : Bank → Bank) : (s.modBank b f).zen = s.zen := (rfl)
@[simp] theorem State.modBank_flt (s : State) (b : Nat) (f : Bank → Bank) : (s.modBank b f).flt = s.flt := (rfl)
@[simp] theorem State.modBank_dsp (s : State) (b : Nat) (f : Bank → Bank) : (s.modBank b f).dsp = s.dsp := (rfl)
@[simp] theorem State.modBank_seq (s : State) (b : Nat) (f : Bank → Bank) : (s.modBank b f).seq = s.seq := (rfl)
@[simp] theorem State.modBank_jet (s : State) (b : Nat) (f : Bank → Bank) : (s.modBank b f).jet = s.jet := (rfl)
@[simp] theorem State.modBank_pairs (s : State) (b : Nat) (f : Bank → Bank) : (s.modBank b f).pairs = s.pairs :=
  (rfl)
@[simp] theorem State.modBank_rep (s : State) (b : Nat) (f : Bank → Bank) : (s.modBank b f).rep = s.rep := (rfl)
@[simp] theorem State.modBank_fio (s : State) (b : Nat) (f : Bank → Bank) : (s.modBank b f).fio = s.fio := (rfl)
@[simp] theorem State.modBank_bar (s : State) (b : Nat) (f : Bank → Bank) : (s.modBank b f).bar = s.bar := (rfl)
@[simp] theorem State.modBank_hor (s : State) (b : Nat) (f : Bank → Bank) : (s.modBank b f).hor = s.hor := (rfl)
@[simp] theorem State.modBank_clouds (s : State) (b : Nat) (f : Bank → Bank) : (s.modBank b f).clouds = s.clouds :=
  (rfl)
@[simp] theorem State.modBank_cells (s : State) (b : Nat) (f : Bank → Bank) : (s.modBank b f).cells = s.cells :=
  (rfl)
@[simp] theorem State.modBank_fresh (s : State) (b : Nat) (f : Bank → Bank) : (s.modBank b f).fresh = s.fresh :=
  (rfl)

/-! ### State.modPin -/

@[simp] theorem State.modPin_pending (s : State) (n : Nat) (f : Pin → Pin) : (s.modPin n f).pending = s.pending :=
  (rfl)
@[simp] theorem State.modPin_variant (s : State) (n : Nat) (f : Pin → Pin) : (s.modPin n f).variant = s.variant :=
  (rfl)
@[simp] theorem State.modPin_regs (s : State) (n : Nat) (f : Pin → Pin) : (s.modPin n f).regs = s.regs := (rfl)
@[simp] theorem State.modPin_mode (s : State) (n : Nat) (f : Pin → Pin) : (s.modPin n f).mode = s.mode := (rfl)
@[simp] theorem State.modPin_zen (s : State) (n : Nat) (f : Pin → Pin) : (s.modPin n f).zen = s.zen := (rfl)
@[simp] theorem State.modPin_flt (s : State) (n : Nat) (f : Pin → Pin) : (s.modPin n f).flt = s.flt := (rfl)
@[simp] theorem State.modPin_dsp (s : State) (n : Nat) (f : Pin → Pin) : (s.modPin n f).dsp = s.dsp := (rfl)
@[simp] theorem State.modPin_seq (s : State) (n : Nat) (f : Pin → Pin) : (s.modPin n f).seq = s.seq := (rfl)
@[simp] theorem State.modPin_jet (s : State) (n : Nat) (f : Pin → Pin) : (s.modPin n f).jet = s.jet := (rfl)
@[simp] theorem State.modPin_mem (s : State) (n : Nat) (f : Pin → Pin) : (s.modPin n f).mem = s.mem := (rfl)
@[simp] theorem State.modPin_pairs (s : State) (n : Nat) (f : Pin → Pin) : (s.modPin n f).pairs = s.pairs := (rfl)
@[simp] theorem State.modPin_rep (s : State) (n : Nat) (f : Pin → Pin) : (s.modPin n f).rep = s.rep := (rfl)
@[simp] theorem State.modPin_bar (s : State) (n : Nat) (f : Pin → Pin) : (s.modPin n f).bar = s.bar := (rfl)
@[simp] theorem State.modPin_hor (s : State) (n : Nat) (f : Pin → Pin) : (s.modPin n f).hor = s.hor := (rfl)
@[simp] theorem State.modPin_clouds (s : State) (n : Nat) (f : Pin → Pin) : (s.modPin n f).clouds = s.clouds :=
  (rfl)
@[simp] theorem State.modPin_cells (s : State) (n : Nat) (f : Pin → Pin) : (s.modPin n f).cells = s.cells := (rfl)
@[simp] theorem State.modPin_fresh (s : State) (n : Nat) (f : Pin → Pin) : (s.modPin n f).fresh = s.fresh := (rfl)

/-! ### State.modPort -/

@[simp] theorem State.modPort_pending (s : State) (p : Nat) (f : SerialPort → SerialPort) : (s.modPort p f).pending = s.pending :=
  (rfl)
@[simp] theorem State.modPort_variant (s : State) (p : Nat) (f : SerialPort → SerialPort) : (s.modPort p f).variant = s.variant :=
  (rfl)
@[simp] theorem State.modPort_regs (s : State) (p : Nat) (f : SerialPort → SerialPort) : (s.modPort p f).regs = s.regs :=
  (rfl)
@[simp] theorem State.modPort_mode (s : State) (p : Nat) (f : SerialPort → SerialPort) : (s.modPort p f).mode = s.mode :=
  (rfl)
@[simp] theorem State.modPort_zen (s : State) (p : Nat) (f : SerialPort → SerialPort) : (s.modPort p f).zen = s.zen :=
  (rfl)
@[simp] theorem State.modPort_flt (s : State) (p : Nat) (f : SerialPort → SerialPort) : (s.modPort p f).flt = s.flt :=
  (rfl)
@[simp] theorem State.modPort_dsp (s : State) (p : Nat) (f : SerialPort → SerialPort) : (s.modPort p f).dsp = s.dsp :=
  (rfl)
@[simp] theorem State.modPort_seq (s : State) (p : Nat) (f : SerialPort → SerialPort) : (s.modPort p f).seq = s.seq :=
  (rfl)
@[simp] theorem State.modPort_jet (s : State) (p : Nat) (f : SerialPort → SerialPort) : (s.modPort p f).jet = s.jet :=
  (rfl)
@[simp] theorem State.modPort_mem (s : State) (p : Nat) (f : SerialPort → SerialPort) : (s.modPort p f).mem = s.mem :=
  (rfl)
@[simp] theorem State.modPort_pairs (s : State) (p : Nat) (f : SerialPort → SerialPort) : (s.modPort p f).pairs = s.pairs :=
  (rfl)
@[simp] theorem State.modPort_rep (s : State) (p : Nat) (f : SerialPort → SerialPort) : (s.modPort p f).rep = s.rep :=
  (rfl)
@[simp] theorem State.modPort_bar (s : State) (p : Nat) (f : SerialPort → SerialPort) : (s.modPort p f).bar = s.bar :=
  (rfl)
@[simp] theorem State.modPort_hor (s : State) (p : Nat) (f : SerialPort → SerialPort) : (s.modPort p f).hor = s.hor :=
  (rfl)
@[simp] theorem State.modPort_clouds (s : State) (p : Nat) (f : SerialPort → SerialPort) : (s.modPort p f).clouds = s.clouds :=
  (rfl)
@[simp] theorem State.modPort_cells (s : State) (p : Nat) (f : SerialPort → SerialPort) : (s.modPort p f).cells = s.cells :=
  (rfl)
@[simp] theorem State.modPort_fresh (s : State) (p : Nat) (f : SerialPort → SerialPort) : (s.modPort p f).fresh = s.fresh :=
  (rfl)

/-! ### State.modPart -/

@[simp] theorem State.modPart_pending (s : State) (p : Nat) (f : SeqPart → SeqPart) : (s.modPart p f).pending = s.pending :=
  (rfl)
@[simp] theorem State.modPart_variant (s : State) (p : Nat) (f : SeqPart → SeqPart) : (s.modPart p f).variant = s.variant :=
  (rfl)
@[simp] theorem State.modPart_regs (s : State) (p : Nat) (f : SeqPart → SeqPart) : (s.modPart p f).regs = s.regs :=
  (rfl)
@[simp] theorem State.modPart_mode (s : State) (p : Nat) (f : SeqPart → SeqPart) : (s.modPart p f).mode = s.mode :=
  (rfl)
@[simp] theorem State.modPart_zen (s : State) (p : Nat) (f : SeqPart → SeqPart) : (s.modPart p f).zen = s.zen :=
  (rfl)
@[simp] theorem State.modPart_flt (s : State) (p : Nat) (f : SeqPart → SeqPart) : (s.modPart p f).flt = s.flt :=
  (rfl)
@[simp] theorem State.modPart_dsp (s : State) (p : Nat) (f : SeqPart → SeqPart) : (s.modPart p f).dsp = s.dsp :=
  (rfl)
@[simp] theorem State.modPart_jet (s : State) (p : Nat) (f : SeqPart → SeqPart) : (s.modPart p f).jet = s.jet :=
  (rfl)
@[simp] theorem State.modPart_mem (s : State) (p : Nat) (f : SeqPart → SeqPart) : (s.modPart p f).mem = s.mem :=
  (rfl)
@[simp] theorem State.modPart_pairs (s : State) (p : Nat) (f : SeqPart → SeqPart) : (s.modPart p f).pairs = s.pairs :=
  (rfl)
@[simp] theorem State.modPart_rep (s : State) (p : Nat) (f : SeqPart → SeqPart) : (s.modPart p f).rep = s.rep :=
  (rfl)
@[simp] theorem State.modPart_fio (s : State) (p : Nat) (f : SeqPart → SeqPart) : (s.modPart p f).fio = s.fio :=
  (rfl)
@[simp] theorem State.modPart_bar (s : State) (p : Nat) (f : SeqPart → SeqPart) : (s.modPart p f).bar = s.bar :=
  (rfl)
@[simp] theorem State.modPart_hor (s : State) (p : Nat) (f : SeqPart → SeqPart) : (s.modPart p f).hor = s.hor :=
  (rfl)
@[simp] theorem State.modPart_clouds (s : State) (p : Nat) (f : SeqPart → SeqPart) : (s.modPart p f).clouds = s.clouds :=
  (rfl)
@[simp] theorem State.modPart_cells (s : State) (p : Nat) (f : SeqPart → SeqPart) : (s.modPart p f).cells = s.cells :=
  (rfl)
@[simp] theorem State.modPart_fresh (s : State) (p : Nat) (f : SeqPart → SeqPart) : (s.modPart p f).fresh = s.fresh :=
  (rfl)

/-! ### State.modStation -/

@[simp] theorem State.modStation_pending (s : State) (i : Nat) (f : Station → Station) : (s.modStation i f).pending = s.pending :=
  (rfl)
@[simp] theorem State.modStation_variant (s : State) (i : Nat) (f : Station → Station) : (s.modStation i f).variant = s.variant :=
  (rfl)
@[simp] theorem State.modStation_regs (s : State) (i : Nat) (f : Station → Station) : (s.modStation i f).regs = s.regs :=
  (rfl)
@[simp] theorem State.modStation_mode (s : State) (i : Nat) (f : Station → Station) : (s.modStation i f).mode = s.mode :=
  (rfl)
@[simp] theorem State.modStation_zen (s : State) (i : Nat) (f : Station → Station) : (s.modStation i f).zen = s.zen :=
  (rfl)
@[simp] theorem State.modStation_flt (s : State) (i : Nat) (f : Station → Station) : (s.modStation i f).flt = s.flt :=
  (rfl)
@[simp] theorem State.modStation_dsp (s : State) (i : Nat) (f : Station → Station) : (s.modStation i f).dsp = s.dsp :=
  (rfl)
@[simp] theorem State.modStation_seq (s : State) (i : Nat) (f : Station → Station) : (s.modStation i f).seq = s.seq :=
  (rfl)
@[simp] theorem State.modStation_jet (s : State) (i : Nat) (f : Station → Station) : (s.modStation i f).jet = s.jet :=
  (rfl)
@[simp] theorem State.modStation_mem (s : State) (i : Nat) (f : Station → Station) : (s.modStation i f).mem = s.mem :=
  (rfl)
@[simp] theorem State.modStation_rep (s : State) (i : Nat) (f : Station → Station) : (s.modStation i f).rep = s.rep :=
  (rfl)
@[simp] theorem State.modStation_fio (s : State) (i : Nat) (f : Station → Station) : (s.modStation i f).fio = s.fio :=
  (rfl)
@[simp] theorem State.modStation_bar (s : State) (i : Nat) (f : Station → Station) : (s.modStation i f).bar = s.bar :=
  (rfl)
@[simp] theorem State.modStation_hor (s : State) (i : Nat) (f : Station → Station) : (s.modStation i f).hor = s.hor :=
  (rfl)
@[simp] theorem State.modStation_clouds (s : State) (i : Nat) (f : Station → Station) : (s.modStation i f).clouds = s.clouds :=
  (rfl)
@[simp] theorem State.modStation_cells (s : State) (i : Nat) (f : Station → Station) : (s.modStation i f).cells = s.cells :=
  (rfl)
@[simp] theorem State.modStation_fresh (s : State) (i : Nat) (f : Station → Station) : (s.modStation i f).fresh = s.fresh :=
  (rfl)

/-! ### State.modLink -/

@[simp] theorem State.modLink_pending (s : State) (k : Nat) (f : LinkPort → LinkPort) : (s.modLink k f).pending = s.pending :=
  (rfl)
@[simp] theorem State.modLink_variant (s : State) (k : Nat) (f : LinkPort → LinkPort) : (s.modLink k f).variant = s.variant :=
  (rfl)
@[simp] theorem State.modLink_regs (s : State) (k : Nat) (f : LinkPort → LinkPort) : (s.modLink k f).regs = s.regs :=
  (rfl)
@[simp] theorem State.modLink_mode (s : State) (k : Nat) (f : LinkPort → LinkPort) : (s.modLink k f).mode = s.mode :=
  (rfl)
@[simp] theorem State.modLink_zen (s : State) (k : Nat) (f : LinkPort → LinkPort) : (s.modLink k f).zen = s.zen :=
  (rfl)
@[simp] theorem State.modLink_flt (s : State) (k : Nat) (f : LinkPort → LinkPort) : (s.modLink k f).flt = s.flt :=
  (rfl)
@[simp] theorem State.modLink_dsp (s : State) (k : Nat) (f : LinkPort → LinkPort) : (s.modLink k f).dsp = s.dsp :=
  (rfl)
@[simp] theorem State.modLink_seq (s : State) (k : Nat) (f : LinkPort → LinkPort) : (s.modLink k f).seq = s.seq :=
  (rfl)
@[simp] theorem State.modLink_jet (s : State) (k : Nat) (f : LinkPort → LinkPort) : (s.modLink k f).jet = s.jet :=
  (rfl)
@[simp] theorem State.modLink_mem (s : State) (k : Nat) (f : LinkPort → LinkPort) : (s.modLink k f).mem = s.mem :=
  (rfl)
@[simp] theorem State.modLink_pairs (s : State) (k : Nat) (f : LinkPort → LinkPort) : (s.modLink k f).pairs = s.pairs :=
  (rfl)
@[simp] theorem State.modLink_rep (s : State) (k : Nat) (f : LinkPort → LinkPort) : (s.modLink k f).rep = s.rep :=
  (rfl)
@[simp] theorem State.modLink_fio (s : State) (k : Nat) (f : LinkPort → LinkPort) : (s.modLink k f).fio = s.fio :=
  (rfl)
@[simp] theorem State.modLink_bar (s : State) (k : Nat) (f : LinkPort → LinkPort) : (s.modLink k f).bar = s.bar :=
  (rfl)
@[simp] theorem State.modLink_clouds (s : State) (k : Nat) (f : LinkPort → LinkPort) : (s.modLink k f).clouds = s.clouds :=
  (rfl)
@[simp] theorem State.modLink_cells (s : State) (k : Nat) (f : LinkPort → LinkPort) : (s.modLink k f).cells = s.cells :=
  (rfl)
@[simp] theorem State.modLink_fresh (s : State) (k : Nat) (f : LinkPort → LinkPort) : (s.modLink k f).fresh = s.fresh :=
  (rfl)

/-! ### State.modRing -/

@[simp] theorem State.modRing_pending (s : State) (r : Nat) (f : Ring → Ring) : (s.modRing r f).pending = s.pending :=
  (rfl)
@[simp] theorem State.modRing_variant (s : State) (r : Nat) (f : Ring → Ring) : (s.modRing r f).variant = s.variant :=
  (rfl)
@[simp] theorem State.modRing_regs (s : State) (r : Nat) (f : Ring → Ring) : (s.modRing r f).regs = s.regs := (rfl)
@[simp] theorem State.modRing_mode (s : State) (r : Nat) (f : Ring → Ring) : (s.modRing r f).mode = s.mode := (rfl)
@[simp] theorem State.modRing_zen (s : State) (r : Nat) (f : Ring → Ring) : (s.modRing r f).zen = s.zen := (rfl)
@[simp] theorem State.modRing_flt (s : State) (r : Nat) (f : Ring → Ring) : (s.modRing r f).flt = s.flt := (rfl)
@[simp] theorem State.modRing_dsp (s : State) (r : Nat) (f : Ring → Ring) : (s.modRing r f).dsp = s.dsp := (rfl)
@[simp] theorem State.modRing_seq (s : State) (r : Nat) (f : Ring → Ring) : (s.modRing r f).seq = s.seq := (rfl)
@[simp] theorem State.modRing_jet (s : State) (r : Nat) (f : Ring → Ring) : (s.modRing r f).jet = s.jet := (rfl)
@[simp] theorem State.modRing_mem (s : State) (r : Nat) (f : Ring → Ring) : (s.modRing r f).mem = s.mem := (rfl)
@[simp] theorem State.modRing_pairs (s : State) (r : Nat) (f : Ring → Ring) : (s.modRing r f).pairs = s.pairs :=
  (rfl)
@[simp] theorem State.modRing_rep (s : State) (r : Nat) (f : Ring → Ring) : (s.modRing r f).rep = s.rep := (rfl)
@[simp] theorem State.modRing_fio (s : State) (r : Nat) (f : Ring → Ring) : (s.modRing r f).fio = s.fio := (rfl)
@[simp] theorem State.modRing_bar (s : State) (r : Nat) (f : Ring → Ring) : (s.modRing r f).bar = s.bar := (rfl)
@[simp] theorem State.modRing_clouds (s : State) (r : Nat) (f : Ring → Ring) : (s.modRing r f).clouds = s.clouds :=
  (rfl)
@[simp] theorem State.modRing_cells (s : State) (r : Nat) (f : Ring → Ring) : (s.modRing r f).cells = s.cells :=
  (rfl)
@[simp] theorem State.modRing_fresh (s : State) (r : Nat) (f : Ring → Ring) : (s.modRing r f).fresh = s.fresh :=
  (rfl)

/-! ### State.modKey -/

@[simp] theorem State.modKey_pending (s : State) (i : Nat) (f : KeySlot → KeySlot) : (s.modKey i f).pending = s.pending :=
  (rfl)
@[simp] theorem State.modKey_variant (s : State) (i : Nat) (f : KeySlot → KeySlot) : (s.modKey i f).variant = s.variant :=
  (rfl)
@[simp] theorem State.modKey_regs (s : State) (i : Nat) (f : KeySlot → KeySlot) : (s.modKey i f).regs = s.regs :=
  (rfl)
@[simp] theorem State.modKey_mode (s : State) (i : Nat) (f : KeySlot → KeySlot) : (s.modKey i f).mode = s.mode :=
  (rfl)
@[simp] theorem State.modKey_zen (s : State) (i : Nat) (f : KeySlot → KeySlot) : (s.modKey i f).zen = s.zen := (rfl)
@[simp] theorem State.modKey_flt (s : State) (i : Nat) (f : KeySlot → KeySlot) : (s.modKey i f).flt = s.flt := (rfl)
@[simp] theorem State.modKey_dsp (s : State) (i : Nat) (f : KeySlot → KeySlot) : (s.modKey i f).dsp = s.dsp := (rfl)
@[simp] theorem State.modKey_seq (s : State) (i : Nat) (f : KeySlot → KeySlot) : (s.modKey i f).seq = s.seq := (rfl)
@[simp] theorem State.modKey_jet (s : State) (i : Nat) (f : KeySlot → KeySlot) : (s.modKey i f).jet = s.jet := (rfl)
@[simp] theorem State.modKey_mem (s : State) (i : Nat) (f : KeySlot → KeySlot) : (s.modKey i f).mem = s.mem := (rfl)
@[simp] theorem State.modKey_pairs (s : State) (i : Nat) (f : KeySlot → KeySlot) : (s.modKey i f).pairs = s.pairs :=
  (rfl)
@[simp] theorem State.modKey_rep (s : State) (i : Nat) (f : KeySlot → KeySlot) : (s.modKey i f).rep = s.rep := (rfl)
@[simp] theorem State.modKey_fio (s : State) (i : Nat) (f : KeySlot → KeySlot) : (s.modKey i f).fio = s.fio := (rfl)
@[simp] theorem State.modKey_bar (s : State) (i : Nat) (f : KeySlot → KeySlot) : (s.modKey i f).bar = s.bar := (rfl)
@[simp] theorem State.modKey_clouds (s : State) (i : Nat) (f : KeySlot → KeySlot) : (s.modKey i f).clouds = s.clouds :=
  (rfl)
@[simp] theorem State.modKey_cells (s : State) (i : Nat) (f : KeySlot → KeySlot) : (s.modKey i f).cells = s.cells :=
  (rfl)
@[simp] theorem State.modKey_fresh (s : State) (i : Nat) (f : KeySlot → KeySlot) : (s.modKey i f).fresh = s.fresh :=
  (rfl)

/-! ### State.modTimer -/

@[simp] theorem State.modTimer_pending (s : State) (n : Nat) (f : Timer → Timer) : (s.modTimer n f).pending = s.pending :=
  (rfl)
@[simp] theorem State.modTimer_variant (s : State) (n : Nat) (f : Timer → Timer) : (s.modTimer n f).variant = s.variant :=
  (rfl)
@[simp] theorem State.modTimer_regs (s : State) (n : Nat) (f : Timer → Timer) : (s.modTimer n f).regs = s.regs :=
  (rfl)
@[simp] theorem State.modTimer_mode (s : State) (n : Nat) (f : Timer → Timer) : (s.modTimer n f).mode = s.mode :=
  (rfl)
@[simp] theorem State.modTimer_flt (s : State) (n : Nat) (f : Timer → Timer) : (s.modTimer n f).flt = s.flt := (rfl)
@[simp] theorem State.modTimer_dsp (s : State) (n : Nat) (f : Timer → Timer) : (s.modTimer n f).dsp = s.dsp := (rfl)
@[simp] theorem State.modTimer_seq (s : State) (n : Nat) (f : Timer → Timer) : (s.modTimer n f).seq = s.seq := (rfl)
@[simp] theorem State.modTimer_jet (s : State) (n : Nat) (f : Timer → Timer) : (s.modTimer n f).jet = s.jet := (rfl)
@[simp] theorem State.modTimer_mem (s : State) (n : Nat) (f : Timer → Timer) : (s.modTimer n f).mem = s.mem := (rfl)
@[simp] theorem State.modTimer_pairs (s : State) (n : Nat) (f : Timer → Timer) : (s.modTimer n f).pairs = s.pairs :=
  (rfl)
@[simp] theorem State.modTimer_rep (s : State) (n : Nat) (f : Timer → Timer) : (s.modTimer n f).rep = s.rep := (rfl)
@[simp] theorem State.modTimer_fio (s : State) (n : Nat) (f : Timer → Timer) : (s.modTimer n f).fio = s.fio := (rfl)
@[simp] theorem State.modTimer_bar (s : State) (n : Nat) (f : Timer → Timer) : (s.modTimer n f).bar = s.bar := (rfl)
@[simp] theorem State.modTimer_hor (s : State) (n : Nat) (f : Timer → Timer) : (s.modTimer n f).hor = s.hor := (rfl)
@[simp] theorem State.modTimer_clouds (s : State) (n : Nat) (f : Timer → Timer) : (s.modTimer n f).clouds = s.clouds :=
  (rfl)
@[simp] theorem State.modTimer_cells (s : State) (n : Nat) (f : Timer → Timer) : (s.modTimer n f).cells = s.cells :=
  (rfl)
@[simp] theorem State.modTimer_fresh (s : State) (n : Nat) (f : Timer → Timer) : (s.modTimer n f).fresh = s.fresh :=
  (rfl)

/-! ### State.setReg -/

@[simp] theorem State.setReg_pending (s : State) (a : Nat) (v : Word) : (s.setReg a v).pending = s.pending := (rfl)
@[simp] theorem State.setReg_variant (s : State) (a : Nat) (v : Word) : (s.setReg a v).variant = s.variant := (rfl)
@[simp] theorem State.setReg_mode (s : State) (a : Nat) (v : Word) : (s.setReg a v).mode = s.mode := (rfl)
@[simp] theorem State.setReg_zen (s : State) (a : Nat) (v : Word) : (s.setReg a v).zen = s.zen := (rfl)
@[simp] theorem State.setReg_flt (s : State) (a : Nat) (v : Word) : (s.setReg a v).flt = s.flt := (rfl)
@[simp] theorem State.setReg_dsp (s : State) (a : Nat) (v : Word) : (s.setReg a v).dsp = s.dsp := (rfl)
@[simp] theorem State.setReg_seq (s : State) (a : Nat) (v : Word) : (s.setReg a v).seq = s.seq := (rfl)
@[simp] theorem State.setReg_jet (s : State) (a : Nat) (v : Word) : (s.setReg a v).jet = s.jet := (rfl)
@[simp] theorem State.setReg_mem (s : State) (a : Nat) (v : Word) : (s.setReg a v).mem = s.mem := (rfl)
@[simp] theorem State.setReg_pairs (s : State) (a : Nat) (v : Word) : (s.setReg a v).pairs = s.pairs := (rfl)
@[simp] theorem State.setReg_rep (s : State) (a : Nat) (v : Word) : (s.setReg a v).rep = s.rep := (rfl)
@[simp] theorem State.setReg_fio (s : State) (a : Nat) (v : Word) : (s.setReg a v).fio = s.fio := (rfl)
@[simp] theorem State.setReg_bar (s : State) (a : Nat) (v : Word) : (s.setReg a v).bar = s.bar := (rfl)
@[simp] theorem State.setReg_hor (s : State) (a : Nat) (v : Word) : (s.setReg a v).hor = s.hor := (rfl)
@[simp] theorem State.setReg_clouds (s : State) (a : Nat) (v : Word) : (s.setReg a v).clouds = s.clouds := (rfl)
@[simp] theorem State.setReg_cells (s : State) (a : Nat) (v : Word) : (s.setReg a v).cells = s.cells := (rfl)
@[simp] theorem State.setReg_fresh (s : State) (a : Nat) (v : Word) : (s.setReg a v).fresh = s.fresh := (rfl)

/-! ### State.setRegF -/

@[simp] theorem State.setRegF_pending (s : State) (a hi lo x : Nat) : (s.setRegF a hi lo x).pending = s.pending := by
  simp [State.setRegF]
@[simp] theorem State.setRegF_variant (s : State) (a hi lo x : Nat) : (s.setRegF a hi lo x).variant = s.variant := by
  simp [State.setRegF]
@[simp] theorem State.setRegF_mode (s : State) (a hi lo x : Nat) : (s.setRegF a hi lo x).mode = s.mode := by
  simp [State.setRegF]
@[simp] theorem State.setRegF_zen (s : State) (a hi lo x : Nat) : (s.setRegF a hi lo x).zen = s.zen := by
  simp [State.setRegF]
@[simp] theorem State.setRegF_flt (s : State) (a hi lo x : Nat) : (s.setRegF a hi lo x).flt = s.flt := by
  simp [State.setRegF]
@[simp] theorem State.setRegF_dsp (s : State) (a hi lo x : Nat) : (s.setRegF a hi lo x).dsp = s.dsp := by
  simp [State.setRegF]
@[simp] theorem State.setRegF_seq (s : State) (a hi lo x : Nat) : (s.setRegF a hi lo x).seq = s.seq := by
  simp [State.setRegF]
@[simp] theorem State.setRegF_jet (s : State) (a hi lo x : Nat) : (s.setRegF a hi lo x).jet = s.jet := by
  simp [State.setRegF]
@[simp] theorem State.setRegF_mem (s : State) (a hi lo x : Nat) : (s.setRegF a hi lo x).mem = s.mem := by
  simp [State.setRegF]
@[simp] theorem State.setRegF_pairs (s : State) (a hi lo x : Nat) : (s.setRegF a hi lo x).pairs = s.pairs := by
  simp [State.setRegF]
@[simp] theorem State.setRegF_rep (s : State) (a hi lo x : Nat) : (s.setRegF a hi lo x).rep = s.rep := by
  simp [State.setRegF]
@[simp] theorem State.setRegF_fio (s : State) (a hi lo x : Nat) : (s.setRegF a hi lo x).fio = s.fio := by
  simp [State.setRegF]
@[simp] theorem State.setRegF_bar (s : State) (a hi lo x : Nat) : (s.setRegF a hi lo x).bar = s.bar := by
  simp [State.setRegF]
@[simp] theorem State.setRegF_hor (s : State) (a hi lo x : Nat) : (s.setRegF a hi lo x).hor = s.hor := by
  simp [State.setRegF]
@[simp] theorem State.setRegF_clouds (s : State) (a hi lo x : Nat) : (s.setRegF a hi lo x).clouds = s.clouds := by
  simp [State.setRegF]
@[simp] theorem State.setRegF_cells (s : State) (a hi lo x : Nat) : (s.setRegF a hi lo x).cells = s.cells := by
  simp [State.setRegF]
@[simp] theorem State.setRegF_fresh (s : State) (a hi lo x : Nat) : (s.setRegF a hi lo x).fresh = s.fresh := by
  simp [State.setRegF]

/-! ### State.addRegF -/

@[simp] theorem State.addRegF_pending (s : State) (a hi lo n : Nat) : (s.addRegF a hi lo n).pending = s.pending := by
  simp [State.addRegF]
@[simp] theorem State.addRegF_variant (s : State) (a hi lo n : Nat) : (s.addRegF a hi lo n).variant = s.variant := by
  simp [State.addRegF]
@[simp] theorem State.addRegF_mode (s : State) (a hi lo n : Nat) : (s.addRegF a hi lo n).mode = s.mode := by
  simp [State.addRegF]
@[simp] theorem State.addRegF_zen (s : State) (a hi lo n : Nat) : (s.addRegF a hi lo n).zen = s.zen := by
  simp [State.addRegF]
@[simp] theorem State.addRegF_flt (s : State) (a hi lo n : Nat) : (s.addRegF a hi lo n).flt = s.flt := by
  simp [State.addRegF]
@[simp] theorem State.addRegF_dsp (s : State) (a hi lo n : Nat) : (s.addRegF a hi lo n).dsp = s.dsp := by
  simp [State.addRegF]
@[simp] theorem State.addRegF_seq (s : State) (a hi lo n : Nat) : (s.addRegF a hi lo n).seq = s.seq := by
  simp [State.addRegF]
@[simp] theorem State.addRegF_jet (s : State) (a hi lo n : Nat) : (s.addRegF a hi lo n).jet = s.jet := by
  simp [State.addRegF]
@[simp] theorem State.addRegF_mem (s : State) (a hi lo n : Nat) : (s.addRegF a hi lo n).mem = s.mem := by
  simp [State.addRegF]
@[simp] theorem State.addRegF_pairs (s : State) (a hi lo n : Nat) : (s.addRegF a hi lo n).pairs = s.pairs := by
  simp [State.addRegF]
@[simp] theorem State.addRegF_rep (s : State) (a hi lo n : Nat) : (s.addRegF a hi lo n).rep = s.rep := by
  simp [State.addRegF]
@[simp] theorem State.addRegF_fio (s : State) (a hi lo n : Nat) : (s.addRegF a hi lo n).fio = s.fio := by
  simp [State.addRegF]
@[simp] theorem State.addRegF_bar (s : State) (a hi lo n : Nat) : (s.addRegF a hi lo n).bar = s.bar := by
  simp [State.addRegF]
@[simp] theorem State.addRegF_hor (s : State) (a hi lo n : Nat) : (s.addRegF a hi lo n).hor = s.hor := by
  simp [State.addRegF]
@[simp] theorem State.addRegF_clouds (s : State) (a hi lo n : Nat) : (s.addRegF a hi lo n).clouds = s.clouds := by
  simp [State.addRegF]
@[simp] theorem State.addRegF_cells (s : State) (a hi lo n : Nat) : (s.addRegF a hi lo n).cells = s.cells := by
  simp [State.addRegF]
@[simp] theorem State.addRegF_fresh (s : State) (a hi lo n : Nat) : (s.addRegF a hi lo n).fresh = s.fresh := by
  simp [State.addRegF]

/-! ### State.bump -/

@[simp] theorem State.bump_pending (s : State) (a : Nat) : (s.bump a).pending = s.pending := by
  simp [State.bump]
@[simp] theorem State.bump_variant (s : State) (a : Nat) : (s.bump a).variant = s.variant := by
  simp [State.bump]
@[simp] theorem State.bump_mode (s : State) (a : Nat) : (s.bump a).mode = s.mode := by
  simp [State.bump]
@[simp] theorem State.bump_zen (s : State) (a : Nat) : (s.bump a).zen = s.zen := by
  simp [State.bump]
@[simp] theorem State.bump_flt (s : State) (a : Nat) : (s.bump a).flt = s.flt := by
  simp [State.bump]
@[simp] theorem State.bump_dsp (s : State) (a : Nat) : (s.bump a).dsp = s.dsp := by
  simp [State.bump]
@[simp] theorem State.bump_seq (s : State) (a : Nat) : (s.bump a).seq = s.seq := by
  simp [State.bump]
@[simp] theorem State.bump_jet (s : State) (a : Nat) : (s.bump a).jet = s.jet := by
  simp [State.bump]
@[simp] theorem State.bump_mem (s : State) (a : Nat) : (s.bump a).mem = s.mem := by
  simp [State.bump]
@[simp] theorem State.bump_pairs (s : State) (a : Nat) : (s.bump a).pairs = s.pairs := by
  simp [State.bump]
@[simp] theorem State.bump_rep (s : State) (a : Nat) : (s.bump a).rep = s.rep := by
  simp [State.bump]
@[simp] theorem State.bump_fio (s : State) (a : Nat) : (s.bump a).fio = s.fio := by
  simp [State.bump]
@[simp] theorem State.bump_bar (s : State) (a : Nat) : (s.bump a).bar = s.bar := by
  simp [State.bump]
@[simp] theorem State.bump_hor (s : State) (a : Nat) : (s.bump a).hor = s.hor := by
  simp [State.bump]
@[simp] theorem State.bump_clouds (s : State) (a : Nat) : (s.bump a).clouds = s.clouds := by
  simp [State.bump]
@[simp] theorem State.bump_cells (s : State) (a : Nat) : (s.bump a).cells = s.cells := by
  simp [State.bump]
@[simp] theorem State.bump_fresh (s : State) (a : Nat) : (s.bump a).fresh = s.fresh := by
  simp [State.bump]

/-! ### State.raise -/

@[simp] theorem State.raise_pending (s : State) (n : Nat) (m : BitVec 10) (x : BitVec 3) (a v : Word) : (s.raise n m x a v).pending = s.pending := by
  unfold State.raise; split <;> rfl
@[simp] theorem State.raise_variant (s : State) (n : Nat) (m : BitVec 10) (x : BitVec 3) (a v : Word) : (s.raise n m x a v).variant = s.variant := by
  unfold State.raise; split <;> rfl
@[simp] theorem State.raise_regs (s : State) (n : Nat) (m : BitVec 10) (x : BitVec 3) (a v : Word) : (s.raise n m x a v).regs = s.regs := by
  unfold State.raise; split <;> rfl
@[simp] theorem State.raise_mode (s : State) (n : Nat) (m : BitVec 10) (x : BitVec 3) (a v : Word) : (s.raise n m x a v).mode = s.mode := by
  unfold State.raise; split <;> rfl
@[simp] theorem State.raise_zen (s : State) (n : Nat) (m : BitVec 10) (x : BitVec 3) (a v : Word) : (s.raise n m x a v).zen = s.zen := by
  unfold State.raise; split <;> rfl
@[simp] theorem State.raise_dsp (s : State) (n : Nat) (m : BitVec 10) (x : BitVec 3) (a v : Word) : (s.raise n m x a v).dsp = s.dsp := by
  unfold State.raise; split <;> rfl
@[simp] theorem State.raise_seq (s : State) (n : Nat) (m : BitVec 10) (x : BitVec 3) (a v : Word) : (s.raise n m x a v).seq = s.seq := by
  unfold State.raise; split <;> rfl
@[simp] theorem State.raise_jet (s : State) (n : Nat) (m : BitVec 10) (x : BitVec 3) (a v : Word) : (s.raise n m x a v).jet = s.jet := by
  unfold State.raise; split <;> rfl
@[simp] theorem State.raise_mem (s : State) (n : Nat) (m : BitVec 10) (x : BitVec 3) (a v : Word) : (s.raise n m x a v).mem = s.mem := by
  unfold State.raise; split <;> rfl
@[simp] theorem State.raise_pairs (s : State) (n : Nat) (m : BitVec 10) (x : BitVec 3) (a v : Word) : (s.raise n m x a v).pairs = s.pairs := by
  unfold State.raise; split <;> rfl
@[simp] theorem State.raise_rep (s : State) (n : Nat) (m : BitVec 10) (x : BitVec 3) (a v : Word) : (s.raise n m x a v).rep = s.rep := by
  unfold State.raise; split <;> rfl
@[simp] theorem State.raise_fio (s : State) (n : Nat) (m : BitVec 10) (x : BitVec 3) (a v : Word) : (s.raise n m x a v).fio = s.fio := by
  unfold State.raise; split <;> rfl
@[simp] theorem State.raise_bar (s : State) (n : Nat) (m : BitVec 10) (x : BitVec 3) (a v : Word) : (s.raise n m x a v).bar = s.bar := by
  unfold State.raise; split <;> rfl
@[simp] theorem State.raise_hor (s : State) (n : Nat) (m : BitVec 10) (x : BitVec 3) (a v : Word) : (s.raise n m x a v).hor = s.hor := by
  unfold State.raise; split <;> rfl
@[simp] theorem State.raise_clouds (s : State) (n : Nat) (m : BitVec 10) (x : BitVec 3) (a v : Word) : (s.raise n m x a v).clouds = s.clouds := by
  unfold State.raise; split <;> rfl
@[simp] theorem State.raise_cells (s : State) (n : Nat) (m : BitVec 10) (x : BitVec 3) (a v : Word) : (s.raise n m x a v).cells = s.cells := by
  unfold State.raise; split <;> rfl
@[simp] theorem State.raise_fresh (s : State) (n : Nat) (m : BitVec 10) (x : BitVec 3) (a v : Word) : (s.raise n m x a v).fresh = s.fresh := by
  unfold State.raise; split <;> rfl

/-! ### State.noteSensed -/

@[simp] theorem State.noteSensed_pending (s : State) (n : Nat) (d : Details) : (s.noteSensed n d).pending = s.pending := by
  unfold State.noteSensed; split <;> rfl
@[simp] theorem State.noteSensed_variant (s : State) (n : Nat) (d : Details) : (s.noteSensed n d).variant = s.variant := by
  unfold State.noteSensed; split <;> rfl
@[simp] theorem State.noteSensed_regs (s : State) (n : Nat) (d : Details) : (s.noteSensed n d).regs = s.regs := by
  unfold State.noteSensed; split <;> rfl
@[simp] theorem State.noteSensed_mode (s : State) (n : Nat) (d : Details) : (s.noteSensed n d).mode = s.mode := by
  unfold State.noteSensed; split <;> rfl
@[simp] theorem State.noteSensed_zen (s : State) (n : Nat) (d : Details) : (s.noteSensed n d).zen = s.zen := by
  unfold State.noteSensed; split <;> rfl
@[simp] theorem State.noteSensed_dsp (s : State) (n : Nat) (d : Details) : (s.noteSensed n d).dsp = s.dsp := by
  unfold State.noteSensed; split <;> rfl
@[simp] theorem State.noteSensed_seq (s : State) (n : Nat) (d : Details) : (s.noteSensed n d).seq = s.seq := by
  unfold State.noteSensed; split <;> rfl
@[simp] theorem State.noteSensed_jet (s : State) (n : Nat) (d : Details) : (s.noteSensed n d).jet = s.jet := by
  unfold State.noteSensed; split <;> rfl
@[simp] theorem State.noteSensed_mem (s : State) (n : Nat) (d : Details) : (s.noteSensed n d).mem = s.mem := by
  unfold State.noteSensed; split <;> rfl
@[simp] theorem State.noteSensed_pairs (s : State) (n : Nat) (d : Details) : (s.noteSensed n d).pairs = s.pairs := by
  unfold State.noteSensed; split <;> rfl
@[simp] theorem State.noteSensed_rep (s : State) (n : Nat) (d : Details) : (s.noteSensed n d).rep = s.rep := by
  unfold State.noteSensed; split <;> rfl
@[simp] theorem State.noteSensed_fio (s : State) (n : Nat) (d : Details) : (s.noteSensed n d).fio = s.fio := by
  unfold State.noteSensed; split <;> rfl
@[simp] theorem State.noteSensed_bar (s : State) (n : Nat) (d : Details) : (s.noteSensed n d).bar = s.bar := by
  unfold State.noteSensed; split <;> rfl
@[simp] theorem State.noteSensed_hor (s : State) (n : Nat) (d : Details) : (s.noteSensed n d).hor = s.hor := by
  unfold State.noteSensed; split <;> rfl
@[simp] theorem State.noteSensed_clouds (s : State) (n : Nat) (d : Details) : (s.noteSensed n d).clouds = s.clouds := by
  unfold State.noteSensed; split <;> rfl
@[simp] theorem State.noteSensed_cells (s : State) (n : Nat) (d : Details) : (s.noteSensed n d).cells = s.cells := by
  unfold State.noteSensed; split <;> rfl
@[simp] theorem State.noteSensed_fresh (s : State) (n : Nat) (d : Details) : (s.noteSensed n d).fresh = s.fresh := by
  unfold State.noteSensed; split <;> rfl

/-! ### State.assertLevel -/

@[simp] theorem State.assertLevel_pending (s : State) (n : Nat) (m : BitVec 10) (x : BitVec 3) (a v : Word) : (s.assertLevel n m x a v).pending = s.pending := by
  unfold State.assertLevel; (repeat' (first | split | dsimp only)) <;> simp
@[simp] theorem State.assertLevel_variant (s : State) (n : Nat) (m : BitVec 10) (x : BitVec 3) (a v : Word) : (s.assertLevel n m x a v).variant = s.variant := by
  unfold State.assertLevel; (repeat' (first | split | dsimp only)) <;> simp
@[simp] theorem State.assertLevel_regs (s : State) (n : Nat) (m : BitVec 10) (x : BitVec 3) (a v : Word) : (s.assertLevel n m x a v).regs = s.regs := by
  unfold State.assertLevel; (repeat' (first | split | dsimp only)) <;> simp
@[simp] theorem State.assertLevel_mode (s : State) (n : Nat) (m : BitVec 10) (x : BitVec 3) (a v : Word) : (s.assertLevel n m x a v).mode = s.mode := by
  unfold State.assertLevel; (repeat' (first | split | dsimp only)) <;> simp
@[simp] theorem State.assertLevel_zen (s : State) (n : Nat) (m : BitVec 10) (x : BitVec 3) (a v : Word) : (s.assertLevel n m x a v).zen = s.zen := by
  unfold State.assertLevel; (repeat' (first | split | dsimp only)) <;> simp
@[simp] theorem State.assertLevel_dsp (s : State) (n : Nat) (m : BitVec 10) (x : BitVec 3) (a v : Word) : (s.assertLevel n m x a v).dsp = s.dsp := by
  unfold State.assertLevel; (repeat' (first | split | dsimp only)) <;> simp
@[simp] theorem State.assertLevel_seq (s : State) (n : Nat) (m : BitVec 10) (x : BitVec 3) (a v : Word) : (s.assertLevel n m x a v).seq = s.seq := by
  unfold State.assertLevel; (repeat' (first | split | dsimp only)) <;> simp
@[simp] theorem State.assertLevel_jet (s : State) (n : Nat) (m : BitVec 10) (x : BitVec 3) (a v : Word) : (s.assertLevel n m x a v).jet = s.jet := by
  unfold State.assertLevel; (repeat' (first | split | dsimp only)) <;> simp
@[simp] theorem State.assertLevel_mem (s : State) (n : Nat) (m : BitVec 10) (x : BitVec 3) (a v : Word) : (s.assertLevel n m x a v).mem = s.mem := by
  unfold State.assertLevel; (repeat' (first | split | dsimp only)) <;> simp
@[simp] theorem State.assertLevel_pairs (s : State) (n : Nat) (m : BitVec 10) (x : BitVec 3) (a v : Word) : (s.assertLevel n m x a v).pairs = s.pairs := by
  unfold State.assertLevel; (repeat' (first | split | dsimp only)) <;> simp
@[simp] theorem State.assertLevel_rep (s : State) (n : Nat) (m : BitVec 10) (x : BitVec 3) (a v : Word) : (s.assertLevel n m x a v).rep = s.rep := by
  unfold State.assertLevel; (repeat' (first | split | dsimp only)) <;> simp
@[simp] theorem State.assertLevel_fio (s : State) (n : Nat) (m : BitVec 10) (x : BitVec 3) (a v : Word) : (s.assertLevel n m x a v).fio = s.fio := by
  unfold State.assertLevel; (repeat' (first | split | dsimp only)) <;> simp
@[simp] theorem State.assertLevel_bar (s : State) (n : Nat) (m : BitVec 10) (x : BitVec 3) (a v : Word) : (s.assertLevel n m x a v).bar = s.bar := by
  unfold State.assertLevel; (repeat' (first | split | dsimp only)) <;> simp
@[simp] theorem State.assertLevel_hor (s : State) (n : Nat) (m : BitVec 10) (x : BitVec 3) (a v : Word) : (s.assertLevel n m x a v).hor = s.hor := by
  unfold State.assertLevel; (repeat' (first | split | dsimp only)) <;> simp
@[simp] theorem State.assertLevel_clouds (s : State) (n : Nat) (m : BitVec 10) (x : BitVec 3) (a v : Word) : (s.assertLevel n m x a v).clouds = s.clouds := by
  unfold State.assertLevel; (repeat' (first | split | dsimp only)) <;> simp
@[simp] theorem State.assertLevel_cells (s : State) (n : Nat) (m : BitVec 10) (x : BitVec 3) (a v : Word) : (s.assertLevel n m x a v).cells = s.cells := by
  unfold State.assertLevel; (repeat' (first | split | dsimp only)) <;> simp
@[simp] theorem State.assertLevel_fresh (s : State) (n : Nat) (m : BitVec 10) (x : BitVec 3) (a v : Word) : (s.assertLevel n m x a v).fresh = s.fresh := by
  unfold State.assertLevel; (repeat' (first | split | dsimp only)) <;> simp

/-! ### State.endLevel -/

@[simp] theorem State.endLevel_pending (s : State) (n : Nat) : (s.endLevel n).pending = s.pending := (rfl)
@[simp] theorem State.endLevel_variant (s : State) (n : Nat) : (s.endLevel n).variant = s.variant := (rfl)
@[simp] theorem State.endLevel_regs (s : State) (n : Nat) : (s.endLevel n).regs = s.regs := (rfl)
@[simp] theorem State.endLevel_mode (s : State) (n : Nat) : (s.endLevel n).mode = s.mode := (rfl)
@[simp] theorem State.endLevel_zen (s : State) (n : Nat) : (s.endLevel n).zen = s.zen := (rfl)
@[simp] theorem State.endLevel_dsp (s : State) (n : Nat) : (s.endLevel n).dsp = s.dsp := (rfl)
@[simp] theorem State.endLevel_seq (s : State) (n : Nat) : (s.endLevel n).seq = s.seq := (rfl)
@[simp] theorem State.endLevel_jet (s : State) (n : Nat) : (s.endLevel n).jet = s.jet := (rfl)
@[simp] theorem State.endLevel_mem (s : State) (n : Nat) : (s.endLevel n).mem = s.mem := (rfl)
@[simp] theorem State.endLevel_pairs (s : State) (n : Nat) : (s.endLevel n).pairs = s.pairs := (rfl)
@[simp] theorem State.endLevel_rep (s : State) (n : Nat) : (s.endLevel n).rep = s.rep := (rfl)
@[simp] theorem State.endLevel_fio (s : State) (n : Nat) : (s.endLevel n).fio = s.fio := (rfl)
@[simp] theorem State.endLevel_bar (s : State) (n : Nat) : (s.endLevel n).bar = s.bar := (rfl)
@[simp] theorem State.endLevel_hor (s : State) (n : Nat) : (s.endLevel n).hor = s.hor := (rfl)
@[simp] theorem State.endLevel_clouds (s : State) (n : Nat) : (s.endLevel n).clouds = s.clouds := (rfl)
@[simp] theorem State.endLevel_cells (s : State) (n : Nat) : (s.endLevel n).cells = s.cells := (rfl)
@[simp] theorem State.endLevel_fresh (s : State) (n : Nat) : (s.endLevel n).fresh = s.fresh := (rfl)

/-! ### State.toHost -/

@[simp] theorem State.toHost_pending (s : State) (m : BarMsg) : (s.toHost m).pending = s.pending := (rfl)
@[simp] theorem State.toHost_variant (s : State) (m : BarMsg) : (s.toHost m).variant = s.variant := (rfl)
@[simp] theorem State.toHost_regs (s : State) (m : BarMsg) : (s.toHost m).regs = s.regs := (rfl)
@[simp] theorem State.toHost_mode (s : State) (m : BarMsg) : (s.toHost m).mode = s.mode := (rfl)
@[simp] theorem State.toHost_zen (s : State) (m : BarMsg) : (s.toHost m).zen = s.zen := (rfl)
@[simp] theorem State.toHost_flt (s : State) (m : BarMsg) : (s.toHost m).flt = s.flt := (rfl)
@[simp] theorem State.toHost_dsp (s : State) (m : BarMsg) : (s.toHost m).dsp = s.dsp := (rfl)
@[simp] theorem State.toHost_seq (s : State) (m : BarMsg) : (s.toHost m).seq = s.seq := (rfl)
@[simp] theorem State.toHost_jet (s : State) (m : BarMsg) : (s.toHost m).jet = s.jet := (rfl)
@[simp] theorem State.toHost_mem (s : State) (m : BarMsg) : (s.toHost m).mem = s.mem := (rfl)
@[simp] theorem State.toHost_pairs (s : State) (m : BarMsg) : (s.toHost m).pairs = s.pairs := (rfl)
@[simp] theorem State.toHost_rep (s : State) (m : BarMsg) : (s.toHost m).rep = s.rep := (rfl)
@[simp] theorem State.toHost_fio (s : State) (m : BarMsg) : (s.toHost m).fio = s.fio := (rfl)
@[simp] theorem State.toHost_hor (s : State) (m : BarMsg) : (s.toHost m).hor = s.hor := (rfl)
@[simp] theorem State.toHost_clouds (s : State) (m : BarMsg) : (s.toHost m).clouds = s.clouds := (rfl)
@[simp] theorem State.toHost_cells (s : State) (m : BarMsg) : (s.toHost m).cells = s.cells := (rfl)
@[simp] theorem State.toHost_fresh (s : State) (m : BarMsg) : (s.toHost m).fresh = s.fresh := (rfl)

/-! ### State.toField -/

@[simp] theorem State.toField_pending (s : State) (m : BarMsg) : (s.toField m).pending = s.pending := (rfl)
@[simp] theorem State.toField_variant (s : State) (m : BarMsg) : (s.toField m).variant = s.variant := (rfl)
@[simp] theorem State.toField_regs (s : State) (m : BarMsg) : (s.toField m).regs = s.regs := (rfl)
@[simp] theorem State.toField_mode (s : State) (m : BarMsg) : (s.toField m).mode = s.mode := (rfl)
@[simp] theorem State.toField_zen (s : State) (m : BarMsg) : (s.toField m).zen = s.zen := (rfl)
@[simp] theorem State.toField_flt (s : State) (m : BarMsg) : (s.toField m).flt = s.flt := (rfl)
@[simp] theorem State.toField_dsp (s : State) (m : BarMsg) : (s.toField m).dsp = s.dsp := (rfl)
@[simp] theorem State.toField_seq (s : State) (m : BarMsg) : (s.toField m).seq = s.seq := (rfl)
@[simp] theorem State.toField_jet (s : State) (m : BarMsg) : (s.toField m).jet = s.jet := (rfl)
@[simp] theorem State.toField_mem (s : State) (m : BarMsg) : (s.toField m).mem = s.mem := (rfl)
@[simp] theorem State.toField_pairs (s : State) (m : BarMsg) : (s.toField m).pairs = s.pairs := (rfl)
@[simp] theorem State.toField_rep (s : State) (m : BarMsg) : (s.toField m).rep = s.rep := (rfl)
@[simp] theorem State.toField_fio (s : State) (m : BarMsg) : (s.toField m).fio = s.fio := (rfl)
@[simp] theorem State.toField_hor (s : State) (m : BarMsg) : (s.toField m).hor = s.hor := (rfl)
@[simp] theorem State.toField_clouds (s : State) (m : BarMsg) : (s.toField m).clouds = s.clouds := (rfl)
@[simp] theorem State.toField_cells (s : State) (m : BarMsg) : (s.toField m).cells = s.cells := (rfl)
@[simp] theorem State.toField_fresh (s : State) (m : BarMsg) : (s.toField m).fresh = s.fresh := (rfl)

/-! ### State.logField -/

@[simp] theorem State.logField_pending (s : State) (k : Byte) (b : List Byte) : (s.logField k b).pending = s.pending := by
  simp [State.logField]
@[simp] theorem State.logField_variant (s : State) (k : Byte) (b : List Byte) : (s.logField k b).variant = s.variant := by
  simp [State.logField]
@[simp] theorem State.logField_regs (s : State) (k : Byte) (b : List Byte) : (s.logField k b).regs = s.regs := by
  simp [State.logField]
@[simp] theorem State.logField_mode (s : State) (k : Byte) (b : List Byte) : (s.logField k b).mode = s.mode := by
  simp [State.logField]
@[simp] theorem State.logField_zen (s : State) (k : Byte) (b : List Byte) : (s.logField k b).zen = s.zen := by
  simp [State.logField]
@[simp] theorem State.logField_flt (s : State) (k : Byte) (b : List Byte) : (s.logField k b).flt = s.flt := by
  simp [State.logField]
@[simp] theorem State.logField_dsp (s : State) (k : Byte) (b : List Byte) : (s.logField k b).dsp = s.dsp := by
  simp [State.logField]
@[simp] theorem State.logField_seq (s : State) (k : Byte) (b : List Byte) : (s.logField k b).seq = s.seq := by
  simp [State.logField]
@[simp] theorem State.logField_jet (s : State) (k : Byte) (b : List Byte) : (s.logField k b).jet = s.jet := by
  simp [State.logField]
@[simp] theorem State.logField_mem (s : State) (k : Byte) (b : List Byte) : (s.logField k b).mem = s.mem := by
  simp [State.logField]
@[simp] theorem State.logField_pairs (s : State) (k : Byte) (b : List Byte) : (s.logField k b).pairs = s.pairs := by
  simp [State.logField]
@[simp] theorem State.logField_rep (s : State) (k : Byte) (b : List Byte) : (s.logField k b).rep = s.rep := by
  simp [State.logField]
@[simp] theorem State.logField_fio (s : State) (k : Byte) (b : List Byte) : (s.logField k b).fio = s.fio := by
  simp [State.logField]
@[simp] theorem State.logField_hor (s : State) (k : Byte) (b : List Byte) : (s.logField k b).hor = s.hor := by
  simp [State.logField]
@[simp] theorem State.logField_clouds (s : State) (k : Byte) (b : List Byte) : (s.logField k b).clouds = s.clouds := by
  simp [State.logField]
@[simp] theorem State.logField_cells (s : State) (k : Byte) (b : List Byte) : (s.logField k b).cells = s.cells := by
  simp [State.logField]
@[simp] theorem State.logField_fresh (s : State) (k : Byte) (b : List Byte) : (s.logField k b).fresh = s.fresh := by
  simp [State.logField]

/-! ### State.relay -/

@[simp] theorem State.relay_pending (s : State) (n : Nat) (b : Bool) (p d : Nat) : (s.relay n b p d).pending = s.pending := by
  simp [State.relay]
@[simp] theorem State.relay_variant (s : State) (n : Nat) (b : Bool) (p d : Nat) : (s.relay n b p d).variant = s.variant := by
  simp [State.relay]
@[simp] theorem State.relay_regs (s : State) (n : Nat) (b : Bool) (p d : Nat) : (s.relay n b p d).regs = s.regs := by
  simp [State.relay]
@[simp] theorem State.relay_mode (s : State) (n : Nat) (b : Bool) (p d : Nat) : (s.relay n b p d).mode = s.mode := by
  simp [State.relay]
@[simp] theorem State.relay_zen (s : State) (n : Nat) (b : Bool) (p d : Nat) : (s.relay n b p d).zen = s.zen := by
  simp [State.relay]
@[simp] theorem State.relay_flt (s : State) (n : Nat) (b : Bool) (p d : Nat) : (s.relay n b p d).flt = s.flt := by
  simp [State.relay]
@[simp] theorem State.relay_dsp (s : State) (n : Nat) (b : Bool) (p d : Nat) : (s.relay n b p d).dsp = s.dsp := by
  simp [State.relay]
@[simp] theorem State.relay_seq (s : State) (n : Nat) (b : Bool) (p d : Nat) : (s.relay n b p d).seq = s.seq := by
  simp [State.relay]
@[simp] theorem State.relay_jet (s : State) (n : Nat) (b : Bool) (p d : Nat) : (s.relay n b p d).jet = s.jet := by
  simp [State.relay]
@[simp] theorem State.relay_mem (s : State) (n : Nat) (b : Bool) (p d : Nat) : (s.relay n b p d).mem = s.mem := by
  simp [State.relay]
@[simp] theorem State.relay_pairs (s : State) (n : Nat) (b : Bool) (p d : Nat) : (s.relay n b p d).pairs = s.pairs := by
  simp [State.relay]
@[simp] theorem State.relay_rep (s : State) (n : Nat) (b : Bool) (p d : Nat) : (s.relay n b p d).rep = s.rep := by
  simp [State.relay]
@[simp] theorem State.relay_fio (s : State) (n : Nat) (b : Bool) (p d : Nat) : (s.relay n b p d).fio = s.fio := by
  simp [State.relay]
@[simp] theorem State.relay_hor (s : State) (n : Nat) (b : Bool) (p d : Nat) : (s.relay n b p d).hor = s.hor := by
  simp [State.relay]
@[simp] theorem State.relay_clouds (s : State) (n : Nat) (b : Bool) (p d : Nat) : (s.relay n b p d).clouds = s.clouds := by
  simp [State.relay]
@[simp] theorem State.relay_cells (s : State) (n : Nat) (b : Bool) (p d : Nat) : (s.relay n b p d).cells = s.cells := by
  simp [State.relay]
@[simp] theorem State.relay_fresh (s : State) (n : Nat) (b : Bool) (p d : Nat) : (s.relay n b p d).fresh = s.fresh := by
  simp [State.relay]

/-! ### State.statusChanged -/

@[simp] theorem State.statusChanged_pending (s : State) : (s.statusChanged).pending = s.pending := (rfl)
@[simp] theorem State.statusChanged_variant (s : State) : (s.statusChanged).variant = s.variant := (rfl)
@[simp] theorem State.statusChanged_regs (s : State) : (s.statusChanged).regs = s.regs := (rfl)
@[simp] theorem State.statusChanged_mode (s : State) : (s.statusChanged).mode = s.mode := (rfl)
@[simp] theorem State.statusChanged_zen (s : State) : (s.statusChanged).zen = s.zen := (rfl)
@[simp] theorem State.statusChanged_flt (s : State) : (s.statusChanged).flt = s.flt := (rfl)
@[simp] theorem State.statusChanged_dsp (s : State) : (s.statusChanged).dsp = s.dsp := (rfl)
@[simp] theorem State.statusChanged_seq (s : State) : (s.statusChanged).seq = s.seq := (rfl)
@[simp] theorem State.statusChanged_jet (s : State) : (s.statusChanged).jet = s.jet := (rfl)
@[simp] theorem State.statusChanged_mem (s : State) : (s.statusChanged).mem = s.mem := (rfl)
@[simp] theorem State.statusChanged_pairs (s : State) : (s.statusChanged).pairs = s.pairs := (rfl)
@[simp] theorem State.statusChanged_rep (s : State) : (s.statusChanged).rep = s.rep := (rfl)
@[simp] theorem State.statusChanged_fio (s : State) : (s.statusChanged).fio = s.fio := (rfl)
@[simp] theorem State.statusChanged_bar (s : State) : (s.statusChanged).bar = s.bar := (rfl)
@[simp] theorem State.statusChanged_clouds (s : State) : (s.statusChanged).clouds = s.clouds := (rfl)
@[simp] theorem State.statusChanged_cells (s : State) : (s.statusChanged).cells = s.cells := (rfl)
@[simp] theorem State.statusChanged_fresh (s : State) : (s.statusChanged).fresh = s.fresh := (rfl)

/-! ### State.transit -/

@[simp] theorem State.transit_pending (s : State) (m : Mode) (c : Nat) : (s.transit m c).pending = s.pending := by
  simp only [State.transit]; split <;> simp
@[simp] theorem State.transit_variant (s : State) (m : Mode) (c : Nat) : (s.transit m c).variant = s.variant := by
  simp only [State.transit]; split <;> simp
@[simp] theorem State.transit_zen (s : State) (m : Mode) (c : Nat) : (s.transit m c).zen = s.zen := by
  simp only [State.transit]; split <;> simp
@[simp] theorem State.transit_flt (s : State) (m : Mode) (c : Nat) : (s.transit m c).flt = s.flt := by
  simp only [State.transit]; split <;> simp
@[simp] theorem State.transit_dsp (s : State) (m : Mode) (c : Nat) : (s.transit m c).dsp = s.dsp := by
  simp only [State.transit]; split <;> simp
@[simp] theorem State.transit_seq (s : State) (m : Mode) (c : Nat) : (s.transit m c).seq = s.seq := by
  simp only [State.transit]; split <;> simp
@[simp] theorem State.transit_jet (s : State) (m : Mode) (c : Nat) : (s.transit m c).jet = s.jet := by
  simp only [State.transit]; split <;> simp
@[simp] theorem State.transit_mem (s : State) (m : Mode) (c : Nat) : (s.transit m c).mem = s.mem := by
  simp only [State.transit]; split <;> simp
@[simp] theorem State.transit_pairs (s : State) (m : Mode) (c : Nat) : (s.transit m c).pairs = s.pairs := by
  simp only [State.transit]; split <;> simp
@[simp] theorem State.transit_rep (s : State) (m : Mode) (c : Nat) : (s.transit m c).rep = s.rep := by
  simp only [State.transit]; split <;> simp
@[simp] theorem State.transit_fio (s : State) (m : Mode) (c : Nat) : (s.transit m c).fio = s.fio := by
  simp only [State.transit]; split <;> simp
@[simp] theorem State.transit_clouds (s : State) (m : Mode) (c : Nat) : (s.transit m c).clouds = s.clouds := by
  simp only [State.transit]; split <;> simp
@[simp] theorem State.transit_cells (s : State) (m : Mode) (c : Nat) : (s.transit m c).cells = s.cells := by
  simp only [State.transit]; split <;> simp
@[simp] theorem State.transit_fresh (s : State) (m : Mode) (c : Nat) : (s.transit m c).fresh = s.fresh := by
  simp only [State.transit]; split <;> simp

/-! ### State.postEvent -/

@[simp] theorem State.postEvent_pending (s : State) (n : Nat) (e : Event) : (s.postEvent n e).pending = s.pending :=
  (rfl)
@[simp] theorem State.postEvent_variant (s : State) (n : Nat) (e : Event) : (s.postEvent n e).variant = s.variant :=
  (rfl)
@[simp] theorem State.postEvent_regs (s : State) (n : Nat) (e : Event) : (s.postEvent n e).regs = s.regs := (rfl)
@[simp] theorem State.postEvent_mode (s : State) (n : Nat) (e : Event) : (s.postEvent n e).mode = s.mode := (rfl)
@[simp] theorem State.postEvent_zen (s : State) (n : Nat) (e : Event) : (s.postEvent n e).zen = s.zen := (rfl)
@[simp] theorem State.postEvent_flt (s : State) (n : Nat) (e : Event) : (s.postEvent n e).flt = s.flt := (rfl)
@[simp] theorem State.postEvent_seq (s : State) (n : Nat) (e : Event) : (s.postEvent n e).seq = s.seq := (rfl)
@[simp] theorem State.postEvent_jet (s : State) (n : Nat) (e : Event) : (s.postEvent n e).jet = s.jet := (rfl)
@[simp] theorem State.postEvent_mem (s : State) (n : Nat) (e : Event) : (s.postEvent n e).mem = s.mem := (rfl)
@[simp] theorem State.postEvent_pairs (s : State) (n : Nat) (e : Event) : (s.postEvent n e).pairs = s.pairs := (rfl)
@[simp] theorem State.postEvent_rep (s : State) (n : Nat) (e : Event) : (s.postEvent n e).rep = s.rep := (rfl)
@[simp] theorem State.postEvent_fio (s : State) (n : Nat) (e : Event) : (s.postEvent n e).fio = s.fio := (rfl)
@[simp] theorem State.postEvent_bar (s : State) (n : Nat) (e : Event) : (s.postEvent n e).bar = s.bar := (rfl)
@[simp] theorem State.postEvent_hor (s : State) (n : Nat) (e : Event) : (s.postEvent n e).hor = s.hor := (rfl)
@[simp] theorem State.postEvent_clouds (s : State) (n : Nat) (e : Event) : (s.postEvent n e).clouds = s.clouds :=
  (rfl)
@[simp] theorem State.postEvent_cells (s : State) (n : Nat) (e : Event) : (s.postEvent n e).cells = s.cells := (rfl)
@[simp] theorem State.postEvent_fresh (s : State) (n : Nat) (e : Event) : (s.postEvent n e).fresh = s.fresh := (rfl)

/-! ### State.report -/

@[simp] theorem State.report_pending (s : State) (r : Report) : (s.report r).pending = s.pending := (rfl)
@[simp] theorem State.report_variant (s : State) (r : Report) : (s.report r).variant = s.variant := (rfl)
@[simp] theorem State.report_regs (s : State) (r : Report) : (s.report r).regs = s.regs := (rfl)
@[simp] theorem State.report_mode (s : State) (r : Report) : (s.report r).mode = s.mode := (rfl)
@[simp] theorem State.report_zen (s : State) (r : Report) : (s.report r).zen = s.zen := (rfl)
@[simp] theorem State.report_flt (s : State) (r : Report) : (s.report r).flt = s.flt := (rfl)
@[simp] theorem State.report_seq (s : State) (r : Report) : (s.report r).seq = s.seq := (rfl)
@[simp] theorem State.report_jet (s : State) (r : Report) : (s.report r).jet = s.jet := (rfl)
@[simp] theorem State.report_mem (s : State) (r : Report) : (s.report r).mem = s.mem := (rfl)
@[simp] theorem State.report_pairs (s : State) (r : Report) : (s.report r).pairs = s.pairs := (rfl)
@[simp] theorem State.report_rep (s : State) (r : Report) : (s.report r).rep = s.rep := (rfl)
@[simp] theorem State.report_fio (s : State) (r : Report) : (s.report r).fio = s.fio := (rfl)
@[simp] theorem State.report_bar (s : State) (r : Report) : (s.report r).bar = s.bar := (rfl)
@[simp] theorem State.report_hor (s : State) (r : Report) : (s.report r).hor = s.hor := (rfl)
@[simp] theorem State.report_clouds (s : State) (r : Report) : (s.report r).clouds = s.clouds := (rfl)
@[simp] theorem State.report_cells (s : State) (r : Report) : (s.report r).cells = s.cells := (rfl)
@[simp] theorem State.report_fresh (s : State) (r : Report) : (s.report r).fresh = s.fresh := (rfl)

/-! ### State.setPoison -/

@[simp] theorem State.setPoison_pending (s : State) (m w : Nat) : (s.setPoison m w).pending = s.pending := by
  unfold State.setPoison; split <;> rfl
@[simp] theorem State.setPoison_variant (s : State) (m w : Nat) : (s.setPoison m w).variant = s.variant := by
  unfold State.setPoison; split <;> rfl
@[simp] theorem State.setPoison_regs (s : State) (m w : Nat) : (s.setPoison m w).regs = s.regs := by
  unfold State.setPoison; split <;> rfl
@[simp] theorem State.setPoison_mode (s : State) (m w : Nat) : (s.setPoison m w).mode = s.mode := by
  unfold State.setPoison; split <;> rfl
@[simp] theorem State.setPoison_zen (s : State) (m w : Nat) : (s.setPoison m w).zen = s.zen := by
  unfold State.setPoison; split <;> rfl
@[simp] theorem State.setPoison_flt (s : State) (m w : Nat) : (s.setPoison m w).flt = s.flt := by
  unfold State.setPoison; split <;> rfl
@[simp] theorem State.setPoison_dsp (s : State) (m w : Nat) : (s.setPoison m w).dsp = s.dsp := by
  unfold State.setPoison; split <;> rfl
@[simp] theorem State.setPoison_seq (s : State) (m w : Nat) : (s.setPoison m w).seq = s.seq := by
  unfold State.setPoison; split <;> rfl
@[simp] theorem State.setPoison_jet (s : State) (m w : Nat) : (s.setPoison m w).jet = s.jet := by
  unfold State.setPoison; split <;> rfl
@[simp] theorem State.setPoison_pairs (s : State) (m w : Nat) : (s.setPoison m w).pairs = s.pairs := by
  unfold State.setPoison; split <;> rfl
@[simp] theorem State.setPoison_rep (s : State) (m w : Nat) : (s.setPoison m w).rep = s.rep := by
  unfold State.setPoison; split <;> rfl
@[simp] theorem State.setPoison_fio (s : State) (m w : Nat) : (s.setPoison m w).fio = s.fio := by
  unfold State.setPoison; split <;> rfl
@[simp] theorem State.setPoison_bar (s : State) (m w : Nat) : (s.setPoison m w).bar = s.bar := by
  unfold State.setPoison; split <;> rfl
@[simp] theorem State.setPoison_hor (s : State) (m w : Nat) : (s.setPoison m w).hor = s.hor := by
  unfold State.setPoison; split <;> rfl
@[simp] theorem State.setPoison_clouds (s : State) (m w : Nat) : (s.setPoison m w).clouds = s.clouds := by
  unfold State.setPoison; split <;> rfl
@[simp] theorem State.setPoison_cells (s : State) (m w : Nat) : (s.setPoison m w).cells = s.cells := by
  unfold State.setPoison; split <;> rfl
@[simp] theorem State.setPoison_fresh (s : State) (m w : Nat) : (s.setPoison m w).fresh = s.fresh := by
  unfold State.setPoison; split <;> rfl

/-! ### State.clearPoison -/

@[simp] theorem State.clearPoison_pending (s : State) (m w : Nat) : (s.clearPoison m w).pending = s.pending := (rfl)
@[simp] theorem State.clearPoison_variant (s : State) (m w : Nat) : (s.clearPoison m w).variant = s.variant := (rfl)
@[simp] theorem State.clearPoison_regs (s : State) (m w : Nat) : (s.clearPoison m w).regs = s.regs := (rfl)
@[simp] theorem State.clearPoison_mode (s : State) (m w : Nat) : (s.clearPoison m w).mode = s.mode := (rfl)
@[simp] theorem State.clearPoison_zen (s : State) (m w : Nat) : (s.clearPoison m w).zen = s.zen := (rfl)
@[simp] theorem State.clearPoison_flt (s : State) (m w : Nat) : (s.clearPoison m w).flt = s.flt := (rfl)
@[simp] theorem State.clearPoison_dsp (s : State) (m w : Nat) : (s.clearPoison m w).dsp = s.dsp := (rfl)
@[simp] theorem State.clearPoison_seq (s : State) (m w : Nat) : (s.clearPoison m w).seq = s.seq := (rfl)
@[simp] theorem State.clearPoison_jet (s : State) (m w : Nat) : (s.clearPoison m w).jet = s.jet := (rfl)
@[simp] theorem State.clearPoison_pairs (s : State) (m w : Nat) : (s.clearPoison m w).pairs = s.pairs := (rfl)
@[simp] theorem State.clearPoison_rep (s : State) (m w : Nat) : (s.clearPoison m w).rep = s.rep := (rfl)
@[simp] theorem State.clearPoison_fio (s : State) (m w : Nat) : (s.clearPoison m w).fio = s.fio := (rfl)
@[simp] theorem State.clearPoison_bar (s : State) (m w : Nat) : (s.clearPoison m w).bar = s.bar := (rfl)
@[simp] theorem State.clearPoison_hor (s : State) (m w : Nat) : (s.clearPoison m w).hor = s.hor := (rfl)
@[simp] theorem State.clearPoison_clouds (s : State) (m w : Nat) : (s.clearPoison m w).clouds = s.clouds := (rfl)
@[simp] theorem State.clearPoison_cells (s : State) (m w : Nat) : (s.clearPoison m w).cells = s.cells := (rfl)
@[simp] theorem State.clearPoison_fresh (s : State) (m w : Nat) : (s.clearPoison m w).fresh = s.fresh := (rfl)

/-! ### State.mramWrite -/

@[simp] theorem State.mramWrite_pending (s : State) (a : Nat) (b : List Byte) : (s.mramWrite a b).pending = s.pending := by
  unfold State.mramWrite; split <;> rfl
@[simp] theorem State.mramWrite_variant (s : State) (a : Nat) (b : List Byte) : (s.mramWrite a b).variant = s.variant := by
  unfold State.mramWrite; split <;> rfl
@[simp] theorem State.mramWrite_regs (s : State) (a : Nat) (b : List Byte) : (s.mramWrite a b).regs = s.regs := by
  unfold State.mramWrite; split <;> rfl
@[simp] theorem State.mramWrite_mode (s : State) (a : Nat) (b : List Byte) : (s.mramWrite a b).mode = s.mode := by
  unfold State.mramWrite; split <;> rfl
@[simp] theorem State.mramWrite_zen (s : State) (a : Nat) (b : List Byte) : (s.mramWrite a b).zen = s.zen := by
  unfold State.mramWrite; split <;> rfl
@[simp] theorem State.mramWrite_flt (s : State) (a : Nat) (b : List Byte) : (s.mramWrite a b).flt = s.flt := by
  unfold State.mramWrite; split <;> rfl
@[simp] theorem State.mramWrite_dsp (s : State) (a : Nat) (b : List Byte) : (s.mramWrite a b).dsp = s.dsp := by
  unfold State.mramWrite; split <;> rfl
@[simp] theorem State.mramWrite_seq (s : State) (a : Nat) (b : List Byte) : (s.mramWrite a b).seq = s.seq := by
  unfold State.mramWrite; split <;> rfl
@[simp] theorem State.mramWrite_jet (s : State) (a : Nat) (b : List Byte) : (s.mramWrite a b).jet = s.jet := by
  unfold State.mramWrite; split <;> rfl
@[simp] theorem State.mramWrite_pairs (s : State) (a : Nat) (b : List Byte) : (s.mramWrite a b).pairs = s.pairs := by
  unfold State.mramWrite; split <;> rfl
@[simp] theorem State.mramWrite_rep (s : State) (a : Nat) (b : List Byte) : (s.mramWrite a b).rep = s.rep := by
  unfold State.mramWrite; split <;> rfl
@[simp] theorem State.mramWrite_fio (s : State) (a : Nat) (b : List Byte) : (s.mramWrite a b).fio = s.fio := by
  unfold State.mramWrite; split <;> rfl
@[simp] theorem State.mramWrite_bar (s : State) (a : Nat) (b : List Byte) : (s.mramWrite a b).bar = s.bar := by
  unfold State.mramWrite; split <;> rfl
@[simp] theorem State.mramWrite_hor (s : State) (a : Nat) (b : List Byte) : (s.mramWrite a b).hor = s.hor := by
  unfold State.mramWrite; split <;> rfl
@[simp] theorem State.mramWrite_clouds (s : State) (a : Nat) (b : List Byte) : (s.mramWrite a b).clouds = s.clouds := by
  unfold State.mramWrite; split <;> rfl
@[simp] theorem State.mramWrite_cells (s : State) (a : Nat) (b : List Byte) : (s.mramWrite a b).cells = s.cells := by
  unfold State.mramWrite; split <;> rfl
@[simp] theorem State.mramWrite_fresh (s : State) (a : Nat) (b : List Byte) : (s.mramWrite a b).fresh = s.fresh := by
  unfold State.mramWrite; split <;> rfl

/-! ### State.rootSend -/

@[simp] theorem State.rootSend_pending (s : State) (p : Packet) : (s.rootSend p).pending = s.pending := (rfl)
@[simp] theorem State.rootSend_variant (s : State) (p : Packet) : (s.rootSend p).variant = s.variant := (rfl)
@[simp] theorem State.rootSend_regs (s : State) (p : Packet) : (s.rootSend p).regs = s.regs := (rfl)
@[simp] theorem State.rootSend_mode (s : State) (p : Packet) : (s.rootSend p).mode = s.mode := (rfl)
@[simp] theorem State.rootSend_zen (s : State) (p : Packet) : (s.rootSend p).zen = s.zen := (rfl)
@[simp] theorem State.rootSend_flt (s : State) (p : Packet) : (s.rootSend p).flt = s.flt := (rfl)
@[simp] theorem State.rootSend_dsp (s : State) (p : Packet) : (s.rootSend p).dsp = s.dsp := (rfl)
@[simp] theorem State.rootSend_seq (s : State) (p : Packet) : (s.rootSend p).seq = s.seq := (rfl)
@[simp] theorem State.rootSend_mem (s : State) (p : Packet) : (s.rootSend p).mem = s.mem := (rfl)
@[simp] theorem State.rootSend_pairs (s : State) (p : Packet) : (s.rootSend p).pairs = s.pairs := (rfl)
@[simp] theorem State.rootSend_rep (s : State) (p : Packet) : (s.rootSend p).rep = s.rep := (rfl)
@[simp] theorem State.rootSend_fio (s : State) (p : Packet) : (s.rootSend p).fio = s.fio := (rfl)
@[simp] theorem State.rootSend_bar (s : State) (p : Packet) : (s.rootSend p).bar = s.bar := (rfl)
@[simp] theorem State.rootSend_hor (s : State) (p : Packet) : (s.rootSend p).hor = s.hor := (rfl)
@[simp] theorem State.rootSend_clouds (s : State) (p : Packet) : (s.rootSend p).clouds = s.clouds := (rfl)
@[simp] theorem State.rootSend_cells (s : State) (p : Packet) : (s.rootSend p).cells = s.cells := (rfl)
@[simp] theorem State.rootSend_fresh (s : State) (p : Packet) : (s.rootSend p).fresh = s.fresh := (rfl)

/-! ### A free number -/

@[simp] theorem State.takeFresh_pending (s : State) : s.takeFresh.2.pending = s.pending := rfl
@[simp] theorem State.takeFresh_variant (s : State) : s.takeFresh.2.variant = s.variant := rfl
@[simp] theorem State.takeFresh_regs (s : State) : s.takeFresh.2.regs = s.regs := rfl
@[simp] theorem State.takeFresh_mode (s : State) : s.takeFresh.2.mode = s.mode := rfl
@[simp] theorem State.takeFresh_zen (s : State) : s.takeFresh.2.zen = s.zen := rfl
@[simp] theorem State.takeFresh_flt (s : State) : s.takeFresh.2.flt = s.flt := rfl
@[simp] theorem State.takeFresh_dsp (s : State) : s.takeFresh.2.dsp = s.dsp := rfl
@[simp] theorem State.takeFresh_seq (s : State) : s.takeFresh.2.seq = s.seq := rfl
@[simp] theorem State.takeFresh_jet (s : State) : s.takeFresh.2.jet = s.jet := rfl
@[simp] theorem State.takeFresh_mem (s : State) : s.takeFresh.2.mem = s.mem := rfl
@[simp] theorem State.takeFresh_pairs (s : State) : s.takeFresh.2.pairs = s.pairs := rfl
@[simp] theorem State.takeFresh_rep (s : State) : s.takeFresh.2.rep = s.rep := rfl
@[simp] theorem State.takeFresh_fio (s : State) : s.takeFresh.2.fio = s.fio := rfl
@[simp] theorem State.takeFresh_bar (s : State) : s.takeFresh.2.bar = s.bar := rfl
@[simp] theorem State.takeFresh_hor (s : State) : s.takeFresh.2.hor = s.hor := rfl
@[simp] theorem State.takeFresh_clouds (s : State) : s.takeFresh.2.clouds = s.clouds := rfl
@[simp] theorem State.takeFresh_cells (s : State) : s.takeFresh.2.cells = s.cells := rfl
@[simp] theorem State.takeFresh_fst (s : State) : s.takeFresh.1 = s.fresh := rfl
@[simp] theorem State.takeFresh_fresh (s : State) : s.takeFresh.2.fresh = s.fresh + 1 := rfl

end Sys2Proof.Machine
end

