-- ==== Sys2Proof/Tests/Slice0.lean ====
section
/-! SUPPORT. The model's own tests: ill-formed terms that the check refuses, values of the spec's examples, and for every
obligation with hypotheses a concrete state that meets them, clause by clause, mostly with something of what the command then
does. A clause whose hypothesis is the verdict of a signature has no witness here: the verdict is a constant without a body. -/

namespace Sys2Proof.Tests

set_option Elab.async false

open Sys2Proof.Machine
open Sys2Proof.Safety

/-! ### Small states -/

/-- The state that an outcome leaves; the state after reset where the command stops. -/
def after (o : Out) : State :=
  match o with
  | .next t => t
  | .fault _ => State.reset
  | .refused _ => State.reset

/-- An outcome is a next state. -/
def goes (o : Out) : Bool :=
  match o with
  | .next _ => true
  | .fault _ => false
  | .refused _ => false

/-- A module in a mode, both resets high, the barrier up and nothing loaded. -/
def inMode (m : Mode) : State :=
  { State.reset with
    mode := { ModeUnit.reset with fieldRst := true, hostRst := true, mode := m }
    bar := { Barrier.reset with up := true } }

/-- A module in LOAD, in a load state. -/
def loading (l : LoadState) : State :=
  let s := inMode .load
  { s with mode := { s.mode with lstate := l } }

/-- A module in RUN: partition 0 is Dynamic, with logical cells 0 and 1 in physical cells 0 and 1 of cloud 0. -/
def live : State :=
  let s := inMode .run
  { s with
    mode := { s.mode with
      loaded := true, parts := [(0, { used := true, sched := false, dbg := true, cells := 3 })] }
    rep := { s.rep with place := [(0, 1), (1, 2)] }
    fio := { s.fio with ready := true }
    clouds := [(0, { Cloud.idle with state := .run, pllLock := true })]
    cells := [(0, { Cell.idle with stopped := false }), (1, { Cell.idle with stopped := false })] }

/-- The same module with cell 0 changed. -/
def liveCell (f : Cell → Cell) : State := live.modCell 0 f

/-- Bytes of words, least significant byte first. -/
def bytesOf (ws : List Nat) : List Byte := ws.flatMap (leBytes 4)

/-- An image (R480): the header, a section of three SETUP entries that place the areas of R266, and the trailer. -/
def image : List Byte :=
  bytesOf ([0x4D49544C, 0x00070101, 168, 0x00010000, 0, 0, 0, 0, 1, 48, 24, 0,
    aDspPool, 256, aSeqRtbase, 512, aMemGsys, 640] ++ List.replicate 24 0)

/-- A state with that image in slot A. -/
def withImage (s : State) : State := { s with mem := { s.mem with mram := mwrite [] 0 image } }

/-- A command of the ring (R453). -/
def cmd (op : Byte) (a0 a1 a2 : Word) : Command := { id := 7, op, flags := 0, a0, a1, a2, haddr := 0, data := [] }

/-- A state with a command at the head of the engine's queue and the command ring enabled. -/
def commanded (s : State) (c : Command) : State :=
  { s.setReg (aRingCfg 0) 0x104 with hor := { s.hor with cmdQ := [c] } }

/-- What the engine asks of the command before it takes it. -/
def commandOk (s : State) (c : Command) : Bool :=
  decide (s.hor.cplQ = []) && decide (c.malformed = none) && decide (c.outOfRange = false) &&
    decide (c.buffer.length = c.reads) && (commanded s c).commandsOn

/-- The engine takes the command of such a state: the premise of the obligations about the ring. -/
theorem commanded_taken (s : State) (c : Command) (h : commandOk s c = true) :
    (commanded s c).command c.op = some (c, (commanded s c).takeCommand []) := by
  simp only [commandOk, Bool.and_eq_true, decide_eq_true_eq] at h
  obtain ⟨⟨⟨⟨h1, h2⟩, h3⟩, h4⟩, h5⟩ := h
  have e : (commanded s c).hor.cplQ = [] := h1
  unfold State.command
  rw [e]
  exact if_pos ⟨rfl, h2, h3, h4, h5⟩

/-- A strand of the flow 5 and iteration 0 in slot 0 of cell 0, at parcel 0, its area the first of the frame at word 0. -/
def strand0 : Strand :=
  { uid := 1, flow := 5, iteration := 0, start := 0, cls := 1, stamp := 0, late := false, ordered := false
    pair := false, replay := false, atomic := false, area := 0, pc := 0, b := 16, f := 16, l := 112, rb := 112
    lk := 0, pl := 0, ph := 0, qt := 0, md := 0, rc := 0, user := 0, depth := 0, rep := false, repu := false, k := 0
    steps := 0, si := 0, mulPend := none, single := false, wait := .nothing, postErr := none, stiWins := []
    stepping := false, passBrk := false, executed := 0, fseq := 0, outputs := 0, unacked := [], dying := false }

/-- A running module with partition 0 attached. -/
def attached : State := { live with mode := { live.mode with attached := 1 } }

/-- The same module with partition 0 Scheduled. -/
def scheduled : State :=
  { attached with mode := { attached.mode with parts := [(0, { used := true, sched := true, dbg := true, cells := 3 })] } }

/-! ### WellFormed -/

/-- Cells, clouds and slots that no variant has (R2). -/
theorem wf_refuses_absent_units : ([.tokenAccept 288 .good, .latchSweep 288, .dbgWrite 288 0 0 0 0 false,
    .responseTimeout (.cell 288) 0, .add 288 0, .add 0 8, .ldw 288 0, .undefinedEncoding 0 8, .spill ⟨18, .good⟩, .viewSpill 18 0 0 0 0,
    .wakeComplete 18, .pllUnlock (some 18), .spillAger 18 2, .spillAger 0 1, .spillAger 0 4, .moveEntry 288 0 0,
    .moveDone 0 288, .bankLoad 152 .good, .ownerGone ⟨152, .good⟩, .rollSegment 19 []] : List Instr).all
    (fun i => !i.wf) = true := by decide

/-- Pins, ports, timers, stations, sources, partitions, probes and rings beyond their number. -/
theorem wf_refuses_numbers_out_of_range : ([.writeDone [16], .fltPendWrite 3 0, .fltRecInfoWrite 3 0, .fltSrcWrite 96 0,
    .timerTick 16, .low 64, .captureEdge 64 true ⟨0, 0⟩, .tioCfgWrite 64 0, .txb 8, .frameEnd 8 .idle, .portDown 4,
    .frameReceive 4 [] 0,
    .enumRsp 0 0, .enumRsp 4 0, .ringCfgEnWrite 5 0, .notify 5, .dispatchEvent 0, .dispatchEvent 6, .seqSlotStart 8,
    .cancel 8, .pairToken 16, .pairWindowTimeout 16 false 0, .prbCfgWrite 32 0] : List Instr).all
    (fun i => !i.wf) = true := by decide

/-- Messages and lists without the shape that the manual gives them. -/
theorem wf_refuses_malformed_operands : ([.sync { kind := 2, seq := 0, origin := 0, time := 0, corr := 0 } 0 [],
    .sync { kind := 1, seq := 0, origin := 0, time := 0, corr := 0 } 0 [(0, 0)],
    .followUp { kind := 1, seq := 0, origin := 0, time := 0, corr := 0 },
    .delayReq 0 { kind := 3, seq := 0, origin := 0, time := 0, corr := 0 } 0 0,
    .delayReq 1 { kind := 4, seq := 0, origin := 0, time := 0, corr := 0 } 0 0,
    .delayResp { kind := 3, seq := 0, origin := 0, time := 0, corr := 0 } 0, .transmitEqualisation 0 [],
    .transmitEqualisation 4 [0, 0, 0, 0, 0, 0, 0, 0], .logread 0 0 256, .regread 0 0 256,
    .imgBlock 0 0 (List.replicate 237 0), .moveSpill 256 2 0, .moveSpill 0 1 0, .moveState 0 1 16 0, .moveState 0 1 0 1,
    .copyBlock 0 false 1 0 (List.replicate 64 0), .copyBlock 0 false 0 0 [], .readBlock 0 false 1, .viewSet 0 256 0] :
    List Instr).all (fun i => !i.wf) = true := by decide +kernel

/-- The parts of commands: macros, tests, reports, wires, hops, holders and host memory completions. -/
theorem wf_refuses_malformed_parts :
    MacroFail.wf { macroId := 1536, bits := [] } = false ∧ MacroFail.wf { macroId := 0, bits := [{ row := 256, col := 0 }] } = false ∧
    MacroFail.wf { macroId := 0, bits := [{ row := 0, col := 1248 }] } = false ∧
    ([{ cells := [288], clouds := [], root := false, macros := [] }, { cells := [], clouds := [18], root := false, macros := [] },
      { cells := [], clouds := [], root := false, macros := [{ macroId := 1536, bits := [] }] }] : List TestOutcome).all
      (fun r => !r.wf && !(Instr.testComplete r).wf && !(Instr.svcSelftest 0 r).wf) = true ∧
    (Instr.faultReport (.raised 96 { master := 0, access := 0, addr := 0, syn := 0 })).wf = false ∧
    (Instr.brokenWire (.source 96)).wf = false ∧ (Instr.sourceHealthy (.source 96)).wf = false ∧
    ([(.fromCell, 288), (.request, 288), (.answer, 153), (.answer, 178), (.egress 18, 0), (.ingress 18, 0)] : List (HopSel × Nat)).all
      (fun h => !(Instr.flitHop h.1 h.2 []).wf) = true ∧
    ([.cell 288, .egress 18, .ingress 18] : List Holder).all (fun h => !(Instr.stallTimeout h).wf) = true ∧
    ([.memCpl ⟨256, 0, 0, []⟩, .memCpl ⟨0, 4096, 0, []⟩, .memCpl ⟨0, 0, 0, List.replicate 481 0⟩, .frameReceive 0 (List.replicate 7 0) 0,
      .frameReceive 0 (List.replicate 521 0) 0, .brokenWire (.readback 64)] : List Instr).all (fun i => !i.wf) = true ∧
    (Instr.rollTestDone true [{ macroId := 1536, bits := [] }]).wf = false := by decide +kernel

/-! ### The block as a whole -/

/-- A witness of StepRunsFrontCommand, StepKeepsCanonicalForm, StepNeverRewritesKeySlot and
EveryCommandCompletes: the front command of the state after reset runs, and the rest waits. -/
theorem witness_step : Canonical State.reset ∧
    after (step { State.reset with pending := [.fieldRstNHigh, .attach] }) =
      { State.reset with pending := [.attach], mode := { ModeUnit.reset with fieldRst := true } } :=
  ⟨⟨by decide, by decide, by decide, by decide, fun i h => by simp [State.reset, State.key, tget, tfind, Horizon.reset, KeySlot.blank] at h⟩,
   by decide +kernel⟩

/-- A witness of the premises of StepNeverRewritesKeySlot: a programmed and a revoked slot. -/
theorem witness_key_slot : ((State.reset.modKey 0 (fun k => { k with prog := true, revoked := true })).key 0).prog = true ∧
    ((State.reset.modKey 0 (fun k => { k with prog := true, revoked := true })).key 0).revoked = true ∧
    goes (step (State.reset.modKey 0 (fun k => { k with prog := true, revoked := true }))) = true := by decide +kernel

/-- A witness of IdleStepIsOneCoreCycle, with FIELD_RST_N low and high. -/
theorem witness_idle_step : State.reset.pending = [] ∧ State.reset.hor.waitRegs = [] ∧ (live.pending = [] ∧ live.hor.waitRegs = [] ∧ live.mode.fieldRst = true ∧ live.rate = 0 ∧
    live.zen.frac < 10 ^ 8) ∧ (after (step State.reset)).zen = State.reset.zen ∧ (after (step live)).zen.count = 1 ∧
    (after (step live)).hor.hcount = 1 := by decide +kernel

/-- A command of a unit that the variant does not have changes nothing (R2). -/
theorem test_absent_unit :
    after (exec (.purge ⟨80, .good⟩) { live with variant := .ltm7064 }) = { live with variant := .ltm7064 } ∧
    after (exec (.low 32) { live with variant := .ltm7064 }) = { live with variant := .ltm7064 } ∧
    goes (exec (.purge ⟨80, .good⟩) live) = true := by
  decide +kernel

/-! ### Resets, start-up and loading -/

/-- Witnesses of ResetPinsResetTheirOwnSide: a running module whose FIELD_RST_N or HOST_RST_N falls, and one whose
HOST_RST_N rises. -/
theorem witness_reset_pins : live.mode.mode ≠ .reset ∧ (after (exec .fieldRstNLow live)).mode.mode = .reset ∧
    (after (exec .fieldRstNLow live)).regF aModeCause 31 16 = 1 ∧ (after (exec .hostRstNLow live)).mode.mode = .run ∧
    (after (exec .hostRstNLow live)).flt.level = [srcBarLink, srcHostLost, srcLnkDown] ∧
    (after (exec .hostRstNLow live)).mode.hostRst = false ∧
    (after (exec .hostRstNHigh (after (exec .hostRstNLow live)))).bar.up = true ∧
    (after (exec .hostRstNHigh (after (exec .hostRstNLow live)))).flt.level = [srcLnkDown] := by decide +kernel

/-- A module in LINK with standalone boot enabled and no partner. -/
def alone : State := { inMode .link with mode := { (inMode .link).mode with standalone := true } }

/-- Witnesses of StartUpGoesThroughTestAndLink. -/
theorem witness_start_up : ((inMode .reset).mode.mode = .reset ∧ (inMode .reset).mode.fieldRst = true ∧
      (inMode .reset).mode.hostRst = true ∧ (inMode .reset).mode.coreLow = false ∧ (inMode .reset).flt.safeLine = false) ∧
    goes (exec .testEntry (inMode .reset)) = true ∧ (inMode .test).mode.retest = false ∧
    (alone.mode.mode = .link ∧ alone.mode.standalone = true ∧ (alone.link 0).partner = false) ∧
    (after (exec .standaloneTimeout alone)).mode.mode = .load ∧ live.mode.mode ≠ .reset ∧
    (inMode .link).mode.standalone = false := by decide +kernel

/-- A module about to enter TEST with the I/O supply outside its window, and the safe line sound or broken. -/
def sensing (broken : Bool) : State :=
  { inMode .reset with flt := { Collector.reset with
      safeLine := broken, sensed := [(srcVmonIo, { master := 0, access := 0, addr := 0, syn := 0 })] } }

/-- Witnesses of the clauses of StartUpGoesThroughTestAndLink about sensors and the safe line. -/
theorem witness_test_entry_sensed : ∀ b ∈ [true, false],
    (sensing b).mode.mode = .reset ∧ (sensing b).mode.fieldRst = true ∧ (sensing b).mode.hostRst = true ∧
    (sensing b).mode.coreLow = false ∧ (sensing b).flt.sensed.map (fun x => x.1) = [srcVmonIo] ∧
    (sensing b).flt.safeLine = b ∧ goes (exec .testEntry (sensing b)) = true := by decide +kernel

/-- A RETEST with the upstream port up and a byte in DRAM. -/
def retesting : State :=
  { (inMode .test).setReg (aLnkStat 0) 9 with
    mode := { (inMode .test).mode with retest := true }, mem := { MemUnit.reset with dram := [(0, 1)] } }

/-- Witnesses of the end of a test, cold and after RETEST, of StartUpGoesThroughTestAndLink. -/
theorem witness_test_ends : (inMode .test).mode.mode = .test ∧ (inMode .test).mode.retest = false ∧
    retesting.mode.mode = .test ∧ retesting.mode.retest = true ∧ retesting.mem.dram ≠ [] ∧
    goes (exec (.testComplete { cells := [], clouds := [], root := false, macros := [] }) retesting) = true := by
  decide +kernel

/-- A state whose slot A is valid and has the digest of what stands in it. -/
def digested (s : State) : State :=
  { s with mode := { s.mode with validA := true, digestA := (s.slotImage false).digest } }

/-- The digest of such a slot matches where its length fits. -/
theorem digested_ok (s : State) (h : ((s.slotImage false).len ≤ (s.variant.slot false).2 ∧ 96 ≤ (s.slotImage false).len)) :
    (digested s).slotDigestOk false = true := by
  have e : (digested s).slotDigestOk false = (decide ((s.slotImage false).len ≤ (s.variant.slot false).2 ∧ 96 ≤ (s.slotImage false).len)
      && decide ((s.slotImage false).digest = (s.slotImage false).digest)) := rfl
  rw [e, decide_eq_true h, decide_eq_true rfl, Bool.and_self]

/-- A witness of VERIFY with a matching digest, of LoadGoesThroughItsPhases. -/
theorem witness_verify : (digested (withImage (loading .verify))).mode.mode = .load ∧
    (digested (withImage (loading .verify))).mode.lstate = .verify ∧
    (digested (withImage (loading .verify))).slotValid (digested (withImage (loading .verify))).mode.slotB = true ∧
    (digested (withImage (loading .verify))).slotDigestOk (digested (withImage (loading .verify))).mode.slotB = true :=
  ⟨rfl, rfl, rfl, digested_ok (withImage (loading .verify)) (by decide +kernel)⟩

/-- Witnesses of the other clauses of LoadGoesThroughItsPhases. -/
theorem witness_load_phases :
    ((loading .verify).slotValid false && (loading .verify).slotDigestOk false) = false ∧
    (after (exec .verifyDone (loading .verify))).mode.lstate = .refused ∧
    (let s := withImage (loading .check)
     (s.mode.mode = .load ∧ s.mode.lstate = .check ∧ s.checkImage (s.slotImage s.mode.slotB) = none) ∧
      (after (exec .checkDone s)).mode.lstate = .write ∧ (after (exec .checkDone s)).mode.gen = 0) ∧
    (loading .check).checkImage ((loading .check).slotImage false) = some { reason := 2, off := 6, sec := 0 } ∧
    (after (exec .checkDone (loading .check))).mode.lstate = .refused ∧
    (after (exec (.writeDone []) (withImage (loading .write)))).mode.lstate = .done ∧
    (after (exec (.writeDone []) (withImage (loading .write)))).mode.loaded = true := by decide +kernel

/-- Witnesses of the refused VERIFY of LoadGoesThroughItsPhases: of the active slot, of a trial, and with the horizon die in
reset. -/
theorem witness_verify_refused :
    (let s := loading .verify
     s.mode.hostRst = true ∧ (after (exec .verifyDone s)).regF aSecStat 2 0 = 5 ∧
      (after (exec .verifyDone s)).bar.toField = [.relay (BitVec.ofNat 32 (srcSecSig + 128 + (5 + 256) * 65536))] ∧
      (after (exec .verifyDone s)).flt.inQ.map (fun r => r.source) = [srcImgLoad]) ∧
    (let s := { loading .verify with mode := { (loading .verify).mode with trial := true, slotB := true } }
     s.mode.trial = true ∧ (s.slotValid s.mode.slotB && s.slotDigestOk s.mode.slotB) = false ∧
      (after (exec .verifyDone s)).mode.slotB = false ∧ (after (exec .verifyDone s)).mode.lstate = .verify) ∧
    (let s := { loading .verify with mode := { (loading .verify).mode with hostRst := false } }
     s.mode.hostRst = false ∧ srcSecSig ∈ (after (exec .verifyDone s)).flt.inQ.map (fun r => r.source)) := by decide +kernel

/-- A running trial image. -/
def onTrial : State := { live with mode := { live.mode with trial := true, slotB := true } }

/-- Witnesses of ModeCommandsTakeEffect. -/
theorem witness_mode_commands :
    (live.fieldOn = true ∧ live.loadAccepted = true ∧ live.loadSlot 3 = none) ∧ (live.cell 0).stopped = false ∧
    ((after (exec (.loadCommand (.register 3)) live)).cell 0).stopped = true ∧
    (after (exec (.loadCommand (.register 3)) live)).mode.lstate = .wait ∧
    (let s := { live with mode := { live.mode with validB := true } }
     (s.loadAccepted = true ∧ s.loadSlot 1 = some true ∧ s.slotValid true = true) ∧
      (after (exec (.loadCommand (.register 1)) s)).mode.lstate = .verify ∧
      (after (exec (.loadCommand (.register 1)) s)).mode.trial = true ∧
      (after (exec (.loadCommand (.register 1)) s)).mode.start = 2) ∧
    ((loading .done).mode.lstate = .done ∧ (after (exec (.runCommand (.register 0)) (loading .done))).running = true) ∧
    (live.running = true ∧ (after (exec (.safeCommand (.register 0)) live)).mode.mode = .safe) ∧
    ((loading .wait).loadAccepted = true ∧
      (after (exec (.retestCommand (.register 0)) (loading .wait))).mode.mode = .test) ∧
    ((onTrial.running = true ∧ onTrial.mode.trial = true) ∧
      (after (exec (.commit (.register 0)) onTrial)).mode.activeB = true) ∧
    (after (exec (.modeBootWrite 0x500) live)).mode.standalone = true ∧
    (after (exec (.modeBootWrite 0x500) live)).mode.autoload = false ∧
    (after (exec (.modeBootWrite 0x500) live)).mode.autorun = true := by decide +kernel

/-- A MODE command of the ring: that the engine takes it and the field side answers, the mode it leaves, the status that it
completes with, and the reports that wait then. -/
def ringMode (i : Instr) (s : State) (op slot : Nat) : Bool × Mode × List Byte × List Nat :=
  let c := cmd 0x10 (BitVec.ofNat 32 op) (BitVec.ofNat 32 slot) 0
  let t := after (exec i (commanded s c))
  (commandOk s c && (commanded s c).fieldAnswers, t.mode.mode, t.hor.cplQ.map (fun x => x.status),
    t.flt.inQ.map (fun r => r.source))

/-- Witnesses of the ring's forms of ModeCommandsTakeEffect: each op at the head of the command ring, with the status it
completes with. -/
theorem witness_ring_modes :
    [ringMode (.loadCommand .ring) live 1 3, ringMode (.runCommand .ring) (loading .done) 2 0,
        ringMode (.safeCommand .ring) live 3 0, ringMode (.retestCommand .ring) (loading .wait) 4 0,
        ringMode (.commit .ring) onTrial 5 0] =
      [(true, .load, [0], []), (true, .run, [0], []), (true, .safe, [0], []), (true, .test, [0], []), (true, .run, [0], [])] ∧
    (after (exec (.commit .ring) (commanded onTrial (cmd 0x10 5 0 0)))).mode.activeB = true := by decide +kernel

/-- A module in SAFE with the safe line broken. -/
def cut : State := { inMode .safe with flt := { Collector.reset with safeLine := true } }

/-- Witnesses of the ring's clause of RefusedModeCommandsChangeNoMode, and of the safe line's. -/
theorem witness_ring_modes_refused :
    [ringMode (.loadCommand .ring) (loading .verify) 1 0, ringMode (.loadCommand .ring) cut 1 3,
        ringMode (.loadCommand .ring) live 1 0, ringMode (.runCommand .ring) live 2 0, ringMode (.safeCommand .ring) cut 3 0,
        ringMode (.retestCommand .ring) live 4 0, ringMode (.commit .ring) (loading .done) 5 0, ringMode (.commit .ring) live 5 0] =
      [Mode.load, .safe, .run, .run, .safe, .run, .load, .run].map (fun m => (true, m, [4], [srcModeBad])) ∧
    (cut.mode.mode = .safe ∧ cut.fatal = false ∧ cut.fieldOn = true) ∧
    (after (exec (.loadCommand (.register 3)) cut)).regF aModeCmd 14 12 = 2 := by decide +kernel

/-- Witnesses of RefusedModeCommandsChangeNoMode, one for each reason. -/
theorem witness_refused_commands :
    ((loading .verify).fieldOn = true ∧ (loading .verify).loadAccepted = false) ∧
    (after (exec (.loadCommand (.register 0)) (loading .verify))).regF aModeCmd 14 12 = 1 ∧
    (let s := (inMode .safe).setReg (aFltPend 0) 0x8
     let s := s.setRegF (aFltSrc 3) 2 0 4
     (s.mode.mode = .safe ∧ s.fatal = true) ∧
      (after (exec (.loadCommand (.register 0)) s)).regF aModeCmd 14 12 = 2) ∧
    (live.loadSlot 0 = some false ∧ live.slotValid false = false) ∧
    (after (exec (.loadCommand (.register 0)) live)).regF aModeCmd 14 12 = 3 ∧
    (after (exec (.runCommand (.register 0)) live)).regF aModeCmd 14 12 = 1 ∧
    ((inMode .test).running = false ∧ (inMode .test).mode.mode ≠ .load) ∧
    (after (exec (.safeCommand (.register 0)) (inMode .test))).regF aModeCmd 14 12 = 1 ∧
    (after (exec (.retestCommand (.register 0)) live)).regF aModeCmd 14 12 = 1 ∧
    (after (exec (.commit (.register 0)) (loading .done))).regF aModeCmd 14 12 = 1 ∧ live.mode.trial = false ∧
    (after (exec (.commit (.register 0)) live)).regF aModeCmd 14 12 = 4 := by decide +kernel

/-- Witnesses of DebugActionsTakeEffect: each action at the head of the command ring. -/
theorem witness_debug_actions :
    ((commanded attached (cmd 0x18 1 0 0)).fieldAnswers = true ∧ commandOk attached (cmd 0x18 1 0 0) = true ∧
      commandOk attached (cmd 0x18 5 0 112) = true) ∧
    ((live.partition 0).used = true ∧ (live.partition 0).dbg = true ∧ live.running = true) ∧
    (after (exec .attach (commanded live (cmd 0x18 1 0 0)))).mode.attached = 1 ∧ attached.attachedPart 0 = true ∧
    (after (exec .detach (commanded attached (cmd 0x18 2 0 0)))).mode.attached = 0 ∧
    (after (exec .haltAction (commanded attached (cmd 0x18 3 0 0)))).mode.mode = .halt ∧
    (scheduled.partition 0).sched = true ∧
    ((after (exec .haltAction (commanded scheduled (cmd 0x18 3 0 0)))).part 0).haltAsk = true ∧
    (after (exec .resume (commanded attached (cmd 0x18 4 0 0)))).hor.cplQ.length = 1 := by decide +kernel

/-- A witness of STEP, of DebugActionsTakeEffect: a strand stands stopped with its record at word 112. -/
theorem witness_debug_step :
    let s := commanded (attached.modCell 0 (fun c => { c with debugList := [strand0] })) (cmd 0x18 5 0 112)
    (commandOk attached (cmd 0x18 5 0 112) = true ∧ s.checks 0 = false ∧
      ((s.cell 0).stopped? 112).isSome = true) ∧
    ((after (exec .step s)).cell 0).debugList = [] ∧
    ((after (exec .step s)).cell 0).resume.map (fun u => (u.uid, u.stepping)) = [(1, true)] := by decide +kernel

/-! ### Faults -/

/-- A report of MEM_SRAM_CE, which reacts with LOG, waits at a running module's collector. -/
def reporting : State :=
  { live with flt := { live.flt with inQ := [{ source := srcCellTrap, time := 0, details := some { master := 0, access := 4, addr := 5, syn := 6 } }] } }

/-- Witnesses of CollectorTakesReports. -/
theorem witness_reports : (reporting.mode.mode ≠ .reset ∧ srcCellTrap < 96 ∧
      (reporting.setRegF (aFltSrc srcCellTrap) 2 0 0).reactionOf srcCellTrap { master := 0, access := 4, addr := 5, syn := 6 } false = 0 ∧
      (reporting.setRegF (aFltSrc srcCellTrap) 2 0 0).regF (aFltRecInfo (srcClass srcCellTrap)) 31 31 = 0) ∧
    (after (exec (.faultReport .waiting) (reporting.setRegF (aFltSrc srcCellTrap) 2 0 0))).pending? srcCellTrap = true ∧
    (after (exec (.faultReport .waiting) (reporting.setRegF (aFltSrc srcCellTrap) 2 0 0))).reg
      (aFltRecAddr (srcClass srcCellTrap)) = 5 ∧
    live.flt.inQ = [] ∧ (live.raisedEffect srcVmonIo { master := 0, access := 0, addr := 0, syn := 0 }).reactionOf srcVmonIo
      (raisedDetails srcVmonIo { master := 0, access := 0, addr := 0, syn := 0 }) false = 4 ∧
    (after (exec (.faultReport (.raised srcVmonIo { master := 0, access := 0, addr := 0, syn := 0 })) live)).mode.mode = .safe ∧
    srcFltSelf ∉ live.flt.level ∧ (after (exec (.faultReport .collectorSelf) live)).mode.mode = .safe ∧
    (inMode .reset).mode.mode = .reset := by decide +kernel

/-- A report raised in the cycle of one that waits: behind a lower source, and behind an earlier cycle's. -/
theorem witness_raised_order :
    (let s := reporting.setRegF (aFltSrc srcCellTrap) 2 0 0
     let d : Details := { master := 0, access := 0, addr := 0, syn := 0 }
     srcCellTrap < srcVmonIo + 96 ∧ ¬ (0 = s.zen.count ∧ srcCellTrap + 1 < srcCellTrap) ∧
      (s.raisedEffect (srcCellTrap + 1) d).reactionOf srcCellTrap { master := 0, access := 4, addr := 5, syn := 6 } false = 0 ∧
      (after (exec (.faultReport (.raised (srcCellTrap + 1) d)) s)).pending? srcCellTrap = true ∧
      (after (exec (.faultReport (.raised (srcCellTrap + 1) d)) s)).flt.inQ.map (fun r => r.source) = [srcCellTrap + 1]) := by
  decide +kernel

/-- Witnesses of SensorsAssertTheirSources. -/
theorem witness_sensors : live.mode.mode ≠ .reset ∧
    (after (exec (.supplyExcursion .io .above) live)).flt.level = [srcVmonIo] ∧
    (after (exec (.supplyExcursion .dram .below) live)).flt.level = [srcVmonDram] ∧
    (after (exec (.supplyExcursion .io .inside) (after (exec (.supplyExcursion .io .above) live)))).flt.level = [] ∧
    (after (exec (.supplyExcursion .core .belowHeld) live)).mode.mode = .reset ∧
    (after (exec (.temperatureThreshold 0x6A) live)).flt.level = [srcTempWarn] ∧
    (after (exec (.temperatureThreshold 0x69) live)).flt.level = [] ∧
    (after (exec (.temperatureThreshold 0x74) live)).flt.level = [srcTempWarn, srcTempCrit] ∧
    (after (exec .referenceLoss live)).flt.level = [srcRefClk] ∧
    (after (exec (.pllUnlock none) live)).flt.level = [srcPllCore] ∧
    (0 < live.variant.clouds ∧ (live.cloud 0).pllLock = true ∧ (live.cloud 0).relock = false) ∧
    ((after (exec (.pllUnlock (some 0)) live)).cloud 0).pllLock = false ∧
    live.faultN = some true ∧ (after (exec .faultNReadback live)).flt.level = [srcFaultnRb] ∧
    ((inMode .link).flt.inQ = [] ∧ srcCellTrap ∉ (inMode .link).flt.wires ∧ (inMode .link).reactionOf srcCellTrap { master := masterNone, access := accNone, addr := 0, syn := 0 } true = 0) ∧
    (after (exec (.brokenWire (.source srcCellTrap)) (inMode .link))).pending? srcCellTrap = true ∧
    (after (exec (.brokenWire .safeLine) live)).mode.mode = .safe ∧ (after (exec (.brokenWire .safeLine) live)).flt.safeLine = true ∧
    srcVmonIo ∉ (inMode .reset).flt.level ∧
    (after (exec (.supplyExcursion .io .above) (inMode .reset))).flt.sensed.map (fun x => x.1) = [srcVmonIo] ∧
    (after (exec (.sourceHealthy .safeLine) cut)).flt.safeLine = false ∧
    (let s := after (exec (.brokenWire (.source srcCellTrap)) (inMode .link))
     srcCellTrap ∈ s.flt.wires ∧ (after (exec (.sourceHealthy (.source srcCellTrap)) s)).flt.wires = []) := by decide +kernel

/-- FLT_PEND and a full record, of a module in LOAD: source 2 asserts, source 3 does not. -/
def recorded : State :=
  { (((loading .wait).setReg (aFltPend 0) 0xC).setReg (aFltRecInfo 0) 0x80000000).setReg (aFltRecMore 0) 9 with
    flt := { Collector.reset with level := [2] } }

/-- Witnesses of FaultRegistersClearAsWritten. -/
theorem witness_fault_registers : recorded.hostWrites (aFltPend 0) = true ∧ (loading .wait).hostWrites (aFltRecInfo 1) = true ∧
    (loading .wait).hostWrites (aFltSrc srcCellTrap) = true ∧ (loading .wait).hostWrites aFltCmd = true ∧
    after (exec .fltClearCounts ((loading .check).setRegF (aFltSrc 5) 31 16 9)) = (loading .check).setRegF (aFltSrc 5) 31 16 9 ∧
    (after (exec (.fltPendWrite 0 0xC) recorded)).reg (aFltPend 0) = 4 ∧ recorded.pendClass (srcClass 2) = true ∧
    (loading .wait).pendClass 0 = false ∧
    (after (exec (.fltRecInfoWrite 1 0x80000000) (((loading .wait).setReg (aFltRecInfo 1) 0x80000000).setReg (aFltRecMore 1) 9))).reg
      (aFltRecMore 1) = 0 ∧
    ((loading .wait).running = false ∧ srcAllows srcCellTrap 0 = true ∧ srcAllows srcCellTrap 7 = false ∧
      live.running = true) ∧
    (after (exec (.fltSrcWrite srcCellTrap 0) (loading .wait))).regF (aFltSrc srcCellTrap) 2 0 = 0 ∧
    (after (exec .fltClearCounts ((loading .wait).setRegF (aFltSrc 5) 31 16 9))).regF (aFltSrc 5) 31 16 = 0 := by
  decide +kernel

/-- The record that FLT_REC_INFO has cleared captures the next report of its class, which waits (R374). -/
theorem witness_record_again :
    let s := { loading .wait with flt := { Collector.reset with
      inQ := [{ source := srcCellTrap, time := 0, details := some { master := 0, access := 4, addr := 5, syn := 6 } }] } }
    (s.reactionOf srcCellTrap { master := 0, access := 4, addr := 5, syn := 6 } false = 0 ∧
      s.pendClass (srcClass srcCellTrap) = false) ∧
    (after (exec (.faultReport .waiting) (after (exec (.fltRecInfoWrite (srcClass srcCellTrap) 0x80000000) s)))).regF
      (aFltRecInfo (srcClass srcCellTrap)) 31 31 = 1 := by decide +kernel

/-- Partition 0 is FAULTED, Dynamic or Scheduled. -/
def faulted (s : State) : State := { s with variant := .ltm7064, flt := { s.flt with faulted := 1 } }

/-- Witnesses of RestartEndsAPartitionsFault: accepted for a Dynamic and a Scheduled partition, and each refusal. -/
theorem witness_restart :
    (faulted live).hostWrites aFltCmd = true ∧ ((faulted live).flt.faulted.getLsbD 0 = true ∧ (faulted live).pairs? = [] ∧ (faulted live).fatal = false ∧
      (∀ l, l < (faulted live).variant.lcells → ((faulted live).partition 0).cells.getLsbD l = true →
        (faulted live).placeOf l ≠ none)) ∧
    goes (exec (.restart 0) (faulted live)) = true ∧ (faulted live).restartStatus 0 = 0 ∧
    ((faulted scheduled).partition 0).sched = true ∧ (faulted scheduled).restartStatus 0 = 0 ∧
    live.flt.faulted.getLsbD 0 = false ∧ (after (exec (.restart 0) live)).regF aFltCmd 14 12 ≠ 0 ∧
    (after (exec (.restart 0) { faulted live with rep := { live.rep with place := [(0, 1)] } })).regF aFltCmd 14 12 ≠ 0 ∧
    (((faulted live).setReg (aFltPend 0) 0x2).fatal = true) ∧
    (after (exec (.restart 0) ((faulted live).setReg (aFltPend 0) 0x2))).regF aFltCmd 14 12 ≠ 0 := by decide +kernel

/-- A pair in MISMATCH refuses RESTART. -/
theorem witness_restart_pair :
    (live.setReg (aPairPair 0 0) 0x80012000).pairs? = [(0, 0, 0, 1)] ∧
    (live.setReg (aPairPair 0 0) 0x80012000).pairState 0 0 = 2 ∧ live.partOf 0 = some 0 ∧
    goes (exec (.restart 0) { live.setReg (aPairPair 0 0) 0x80012000 with flt := { live.flt with faulted := 1 } }) = true := by
  decide +kernel

/-! ### Zenith -/

/-- A module with one sync result of offset 2000 ns at zenith, in a state of zenith. -/
def syncing (z : ZenState) (disc : Nat) (off : Int) (run : Nat) : State :=
  { live.setRegF aZenCtrl 0 0 disc with zen := { live.zen with
      state := z, count := 10000, run, syncQ := [{ seq := 5, master := 10000 - off, t2z := 10000, complete := true }] } }

/-- Witnesses of SyncResultsMoveZenith, clause by clause. -/
theorem witness_sync_results :
    (after (exec .syncResult { syncing .locked 1 9 0 with zen := { (syncing .locked 1 9 0).zen with lastSeq := some 5 } })).zen.syncQ = [] ∧
    ((syncing .locked 1 1000000001 0).zen.state = .locked ∧ (1000000000 : Int) < 1000000001) ∧
    (after (exec .syncResult (syncing .locked 1 1000000001 0))).zen.offset = none ∧
    (syncing .locked 0 9 0).regF aZenCtrl 0 0 = 0 ∧ (after (exec .syncResult (syncing .locked 0 9 0))).zen.offset = some 9 ∧
    (syncing .locked 1 9 0).regF aZenCtrl 0 0 = 1 ∧
    (after (exec .syncResult (syncing .unlocked 1 2000 0))).zen.count = 8000 ∧
    (after (exec .syncResult (syncing .unlocked 1 2000 0))).zen.state = .acquiring ∧
    (after (exec .syncResult (syncing .acquiring 1 1001 0))).zen.count = 8999 := by decide +kernel

/-- The states of SyncResultsMoveZenith whose outcome sets a rate: the premises of their clauses, at their bounds. -/
theorem witness_sync_bounds : ∀ c ∈ [(ZenState.locked, (50 : Int), 0), (.locked, 51, 2), (.acquiring, 8, 15), (.holdover, 50, 3)],
    goes (exec .syncResult (syncing c.1 1 c.2.1 c.2.2)) = true ∧ (syncing c.1 1 c.2.1 c.2.2).zen.syncQ.length = 1 ∧
    (syncing c.1 1 c.2.1 c.2.2).zen.lastSeq = none := by decide +kernel

/-- A module whose zenith is in a state, with the value 7 in ZEN_SET. -/
def setting (z : ZenState) (hi : Word) : State :=
  { (live.setReg aZenSetlo 7).setReg aZenSethi hi with zen := { live.zen with state := z, count := 100 } }

/-- Witnesses of ZenithCommandsAndTimeouts. -/
theorem witness_zenith_commands :
    (setting .unlocked 0).hostWrites aZenCmd = true ∧ live.hostWrites aZenCtrl = true ∧
    (after (exec .syncTimeout (setting .acquiring 0))).zen.state = .unlocked ∧
    (after (exec .syncTimeout (setting .locked 0))).zen.state = .holdover ∧
    (after (exec .holdoverExpiry (setting .holdover 0))).zen.state = .unlocked ∧
    (after (exec .zenCmdSet (setting .unlocked 0))).zen.count = 7 ∧
    (after (exec .zenCmdSet (setting .unlocked 0x80000000))).regF aZenCmd 9 8 = 2 ∧
    ((setting .locked 0).regF aZenCtrl 0 0 ≠ 0 ∨ (after (exec .zenCmdSet ((setting .locked 0).setRegF aZenCtrl 0 0 1))).regF aZenCmd 9 8 = 1) ∧
    (after (exec .zenCmdStep { setting .locked 0 with zen := { (setting .locked 0).zen with offset := some 30 } })).zen.count = 70 ∧
    (after (exec .zenCmdStep (setting .locked 0))).regF aZenCmd 9 8 = 3 ∧
    (loading .wait).running = false ∧ (after (exec (.discEnWrite 0) (loading .wait))).zen.state = .unlocked ∧
    (after (exec (.discEnWrite 0) live)).regF aZenCtrl 15 8 = 1 ∧
    (after (exec .zenNowloRead (setting .locked 0))).zen.captured = 100 := by decide +kernel

/-- STEP ends the slew at the largest rate, of ZenithCommandsAndTimeouts. -/
theorem witness_step_ends_slew :
    let s := { setting .acquiring 0 with zen := { (setting .acquiring 0).zen with offset := some 30, farOff := true } }
    s.zen.farOff = true ∧ (after (exec .zenCmdStep s)).zen.farOff = false ∧ (after (exec .zenCmdStep s)).zen.count = 70 := by
  decide +kernel

/-- Timer 15 is enabled with a period of 1 µs, due since the count reached 1000. -/
def ticking : State :=
  let s := (live.setReg (aZenTmrCfg 15) 0x80000005).setReg (aZenTmrPer 15) 1
  { s with zen := { s.zen with count := 1000, timers := [(15, { next := 1, pending := none })] } }

/-- The dispatcher's timer queue of such a state is full. -/
def ticked : State :=
  { ticking with dsp := { ticking.dsp with
      events := [(4, List.replicate 16 { flow := 0, flag := 0, value := 0, time := 0, local_ := true })] } }

/-- Witnesses of TimerTicksPostEventsOrAreHeld, at the last timer. -/
theorem witness_timer_tick : (ticking.timerOn 15 = true ∧ ticking.mode.loaded = true ∧
      ticking.tickTime 15 1 ≤ ticking.zen.count ∧ ticking.eventRoom 4 = true ∧ ticked.eventRoom 4 = false) ∧
    ((after (exec (.timerTick 15) ticking)).events 4).map (fun e => (e.time, e.value, e.flow)) = [(1000, 1, 5)] ∧
    ((after (exec (.timerTick 15) ticked)).timer 15).pending = some (1, 1000, true) ∧
    ticking.timerOn 14 = false := by decide +kernel

/-- A second tick is lost while one is held, and counted (R395). -/
theorem witness_timer_lost :
    (after (exec (.timerTick 15) { ticked with zen := { ticked.zen with
      timers := [(15, { next := 1, pending := some (0, 0) })] } })).regF (aZenTmrStat 15) 15 0 = 1 := by decide +kernel

/-- A timing message (R382). -/
def msg (kind : Byte) (time corr : BitVec 64) : TimingMsg := { kind, seq := 3, origin := 0, time, corr }

/-- A running module that has kept the Sync 3, arrived at 40, with port 0 at a step and some markers. -/
def synced (step : Nat) (markers : List (Nat × Nat)) : State :=
  { live.setReg (aLnkStat 0) (BitVec.ofNat 32 step) with hor := { live.hor with syncs := [(3, 40, [])], markers } }

/-- Witnesses of TimingMessagesAreKeptAndAnswered: markers once a millisecond, times at 2 ns, Follow_Up at step 9 and below. -/
theorem witness_timing_messages :
    (let s := { live with zen := { live.zen with count := 2999999 } }
     s.zen.count / 1000000 ≠ s.zen.marked ∧ (after (exec .timeMarker s)).bar.toHost = [.marker 2999999] ∧
      after (exec .timeMarker (after (exec .timeMarker s))) = after (exec .timeMarker s)) ∧
    (after (exec (.sync (msg 1 0 0) 41 [(1, 43)]) live)).hor.syncs = [(3, 40, [(1, 42)])] ∧
    ((synced 9 [(1000000, 0)]).toZenith 40 = some 1000040 ∧ (synced 9 []).toZenith 40 = none ∧ (synced 8 []).regF (aLnkStat 0) 3 0 ≠ 9) ∧
    (after (exec (.followUp (msg 2 5 0)) (synced 9 [(1000000, 0)]))).bar.toField =
      [.syncResult { seq := 3, master := 5, t2z := 1000040, complete := true }] ∧
    (after (exec (.followUp (msg 2 5 0)) (synced 9 []))).bar.toField.length = 1 ∧
    (after (exec (.followUp (msg 2 5 0)) (synced 8 []))).bar.toField = [] ∧
    (after (exec (.followUp (msg 2 5 0)) (synced 8 []))).hor.syncs = [] ∧
    (after (exec (.delayReqSend 51) (live.setReg (aLnkStat 0) 8))).hor.delays = [(0, 50)] ∧
    ((after (exec (.delayReq 3 (msg 3 0 0) 100 130) live)).link 3).txSeq = 1 ∧
    (let s := { live with hor := { live.hor with delays := [(3, 100)] } }
     (after (exec (.delayResp (msg 4 0 (30 * 65536)) 151) s)).hor.dlinks = [10] ∧
      (after (exec (.delayResp (msg 4 0 (30 * 65536)) 151) s)).regF aZenDelay 15 0 = 10) ∧
    (let s := { inMode .reset with hor := { live.hor with delays := [(3, 100)] } }
     (after (exec (.delayResp (msg 4 0 0) 151) s)).hor.dlinks.length = 1 ∧ (after (exec (.delayResp (msg 4 0 0) 151) s)).regs = s.regs) := by
  decide +kernel

/-- A release of an action that was due at time 0. -/
def rel (act param : Nat) : Release :=
  { time := 0, action := BitVec.ofNat 4 act, pin := 0, param := BitVec.ofNat 16 param, flow := 0, sender := 0, part := none }

/-- A token of flow 5 and iteration 0 to parcel 3 of cell 0, on a port. -/
def tok (port : BitVec 2) (value : Word) : Token :=
  { value, stamp := 0, flow := 5, iteration := 0, addr := 3, port, cell := 0, cls := 1, pair := false, replay := false
    spilled := false, late := false, ordered := false, fmt := 3 }

/-! ### The field side -/

/-- A witness of StepNeverDrivesOutputsOutsideRun: the state after reset, and a state of SAFE with every pin undriven. -/
theorem witness_outputs_off : OutputsOff State.reset ∧ goes (step State.reset) = true ∧
    State.reset.fio.ready = false ∧ (after (exec (.safeCommand (.register 0)) (live.modPin 0 (fun p => { p with drv := some true })))).fio.pins = [] :=
  ⟨⟨fun _ => rfl, fun h => by simp [State.reset, State.running, ModeUnit.reset] at h, fun _ n => by
      simp [State.pin, State.reset, FieldIO.reset, tget, tfind, Pin.idle]⟩, by decide +kernel, rfl, by decide +kernel⟩

/-- Pin 63 captures rising edges into flow 9 with flag 4, at count 1001. -/
def capturing : State :=
  let s := (live.setReg (aTioCfg 63) (0x1 + 0x8 + 4 * 32)).setReg (aTioFlow 63) 9
  { s with zen := { s.zen with count := 1001 } }

/-- The dispatcher's queue for captures is full. -/
def crowded (s : State) : State :=
  { s with dsp := { s.dsp with
      events := [(1, List.replicate 16 { flow := 0, flag := 0, value := 0, time := 0, local_ := true })] } }

/-- Witnesses of CapturesBecomeEvents: an event, a full dispatcher queue, a full FIFO. -/
theorem witness_capture : (capturing.fieldLive = true ∧ capturing.pinFunc 63 = 1 ∧
      capturing.regF (aTioCfg 63) 3 3 = 1 ∧ 1001 ≤ capturing.zen.count ∧ capturing.eventRoom 1 = true) ∧
    ((after (exec (.captureEdge 63 true ⟨1001, 0⟩) capturing)).events 1).map (fun e => (e.time, e.value, e.flow, e.flag)) =
      [(1000, 1000, 9, 4)] ∧ (crowded capturing).eventRoom 1 = false ∧
    ((after (exec (.captureEdge 63 true ⟨1001, 0⟩) (crowded capturing))).pin 63).capQ = [{ time := 1000, local_ := true, rising := true, count := none }] ∧
    (after (exec (.captureEdge 63 true ⟨1001, 0⟩) ((crowded capturing).modPin 63 (fun p => { p with
      capQ := List.replicate 16 { time := 0, local_ := true, rising := true, count := none } })))).regF (aTioStat 63) 31 24 = 1 := by
  decide +kernel

/-- The filter's clause of CapturesBecomeEvents, at its bound of 4 ns, and a level that has passed already. -/
theorem witness_capture_filter :
    (let s := capturing.setRegF (aTioCfg 63) 31 24 1
     s.passesFilter 63 3 = false ∧ s.passesFilter 63 4 = true ∧ (after (exec (.captureEdge 63 true ⟨1001, 3⟩) s)).events 1 = [] ∧
      ((after (exec (.captureEdge 63 true ⟨1001, 3⟩) s)).pin 63).stable = false ∧
      ((after (exec (.captureEdge 63 true ⟨1001, 4⟩) s)).events 1).length = 1) ∧
    (let s := capturing.modPin 63 (fun p => { p with stable := true })
     (s.pin 63).stable = true ∧ (after (exec (.captureEdge 63 true ⟨1001, 4⟩) s)).events 1 = []) := by decide +kernel

/-- Witnesses of the quadrature clauses of CapturesBecomeEvents. -/
theorem witness_quadrature : ((live.setReg (aTioCfg 62) 4).fieldLive = true ∧ (live.setReg (aTioCfg 62) 4).pinFunc 62 = 4) ∧
    goes (exec (.quadratureStep 62 true false 0) (live.setReg (aTioCfg 62) 4)) = true ∧
    (after (exec (.quadratureStep 62 true true 0) (live.setReg (aTioCfg 62) 4))).regF (aTioStat 62) 31 24 = 1 := by
  decide +kernel

/-- Both pins within one interval of 2 ns, in two commands: illegal, counted once, and the count as before the interval. -/
theorem witness_quadrature_interval :
    let s := { ((live.setReg (aTioCfg 62) 4).setReg (aTioQcnt 62) 10).modPin 62 (fun p => { p with
      quadA := true, quadIv := some { at_ := 2, a := false, b := false, count := 9, bad := false } }) with
      zen := { live.zen with count := 5 } }
    let t := after (exec (.quadratureStep 62 true true 5) s)
    (s.quadInterval 62 5).bad = false ∧ (s.quadInterval 62 5).a = false ∧ (s.quadInterval 62 6).a = true ∧
      t.reg (aTioQcnt 62) = 9 ∧ t.regF (aTioStat 62) 31 24 = 1 ∧
      (after (exec (.quadratureStep 62 false true 5) t)).regF (aTioStat 62) 31 24 = 1 := by decide +kernel

/-- A release token of flow 0 for a pin 0 that is an output: an action and a parameter, 40 ns ahead of the count 80. -/
def releasing (act param : Nat) : State :=
  { live.setReg (aTioCfg 0) 2 with
    zen := { live.zen with count := 80, state := .locked }
    fio := { live.fio with inQ := [({ tok 0 (BitVec.ofNat 32 (act * 256 + param * 65536 + 2 * 64)) with flow := 0, stamp := 7 }, 0)] } }

/-- The same in SAFE, and with zenith UNLOCKED. -/
def releasingSafe : State := { releasing 1 0 with mode := { live.mode with mode := .safe } }
def releasingUnlocked : State := { releasing 1 0 with zen := { (releasing 1 0).zen with state := .unlocked } }

/-- Witnesses of ReleaseTokensAreCheckedAndQueued: not live, not permitted, not accepted, queued at the bound of 40 ns. -/
theorem witness_release_token :
    (releasingSafe.fieldLive = false ∧ (after (exec .releaseToken releasingSafe)).fio.inQ = []) ∧
    (releasingUnlocked.fieldLive = true ∧ releasingUnlocked.releaseAllowed 0 = false) ∧
    (after (exec .releaseToken releasingUnlocked)).fio.inQ = [] ∧ releasingUnlocked.mode.mode ≠ .reset ∧
    (after (exec .releaseToken releasingUnlocked)).regF (aZenCnt 5) 31 0 = 1 ∧
    (after (exec .releaseToken releasingUnlocked)).flt.inQ.map (fun r => r.source) = [srcZenRelRefused] ∧
    ((releasing 1 5).releaseAllowed 0 = true ∧ (releasing 1 5).actionOk 1 0 5 = false) ∧
    (after (exec .releaseToken (releasing 1 5))).regF aTioAcnt 15 0 = 1 ∧
    ((releasing 1 0).actionOk 1 0 0 = true ∧ (releasing 1 0).pinFaulted 0 = false ∧
      releaseTime 80 7 0x180 = 120) ∧
    ((after (exec .releaseToken (releasing 1 0))).pin 0).relQ.map (fun r => (r.time, r.action)) = [(120, 1)] ∧
    (after (exec .releaseToken ((releasing 1 0).modPin 0 (fun p => { p with relQ := List.replicate 16 (rel 0 0) })))).fio.inQ = [] := by decide +kernel

/-- Witnesses of the late, the seventeenth, the FAULTED pin's and the serial clause of ReleaseTokensAreCheckedAndQueued. -/
theorem witness_release_late :
    (let s := { releasing 1 0 with zen := { live.zen with count := 81, state := .locked } }
     releaseTime 81 7 0x180 = 120 ∧ s.regF (aTioCfg 0) 15 15 = 0 ∧ s.actionOk 1 0 0 = true ∧
      (after (exec .releaseToken s)).regF aTioAcnt 31 16 = 1 ∧
      (after (exec .releaseToken s)).flt.inQ.map (fun r => r.source) = [srcTioLate]) ∧
    (let s := (releasing 1 0).modPin 0 (fun p => { p with relQ := List.replicate 16 (rel 0 0) })
     (after (exec .releaseToken s)).flt.inQ.map (fun r => r.source) = [srcTioQfull]) ∧
    (let s := { releasing 1 0 with flt := { Collector.reset with faulted := 1 } }
     s.pinFaulted 0 = true ∧ (after (exec .releaseToken s)).regF aTioAcnt 15 0 = 1) ∧
    (let s := { ((releasing 8 0x41).setReg (aSpCfg 0) 3).setReg (aSpClk 0) 100 with zen := { live.zen with count := 119, state := .locked } }
     s.releaseAllowed 0 = true ∧ s.actionOk 8 0 0x41 = true ∧ (after (exec .releaseToken s)).fio.pins = s.fio.pins ∧
      ((after (exec .releaseToken s)).port 0).relQ.map (fun r => (r.time, r.action, r.param)) = [(120, 8, 0x41)]) := by decide +kernel

/-- A due release of an action at the head of pin 0's queue. -/
def due (act param : Nat) : State :=
  { live.modPin 0 (fun p => { p with drv := some true, relQ := [rel act param] }) with
    zen := { live.zen with state := .locked } }

/-- Witnesses of PinActionsDriveThePin. -/
theorem witness_pin_actions : ((due 0 0).fieldLive = true ∧ (due 0 0).releaseAllowed 0 = true) ∧
    ((after (exec (.low 0) (due 0 0))).pin 0).drv = some false ∧ ((after (exec (.high 0) (due 1 0))).pin 0).drv = some true ∧
    ((after (exec (.toggle 0) (due 2 0))).pin 0).drv = some false ∧ ((after (exec (.hiz 0) (due 3 0))).pin 0).drv = none ∧
    ((after (exec (.pulse 0) (due 4 3))).pin 0).pulse = some { before := some true, ends := 12 } ∧
    (let s := (due 4 3).modPin 0 (fun p => { p with drv := some false, pulse := some { before := some true, ends := 5 } })
     ((after (exec (.pulse 0) s)).pin 0).pulse = some { before := some true, ends := 12 } ∧ ((after (exec (.pulse 0) s)).pin 0).drv = some false) ∧
    ((due 0 0).modPin 0 (fun p => { p with pulse := none })).pin 0 = (due 0 0).pin 0 ∧ ((after (exec (.low 0) (due 0 0))).pin 0).drvAt = 0 ∧
    ((after (exec (.pulse 0) (due 4 3))).pin 0).drv = some false ∧
    ((after (exec (.duty 0) (due 5 9))).pin 0).dutyAt = some (9, 0) ∧
    ((after (exec (.pulseEnd 0) (live.modPin 0 (fun p => { p with pulse := some { before := some true, ends := 0 } })))).pin 0).drv
      = some true ∧
    ((after (exec (.pulseEnd 0) (live.modPin 0 (fun p => { p with pulse := some { before := some true, ends := 1 } })))).pin 0).drv
      = none := by decide +kernel

/-- Pin 0 runs PWM with a period of 1024 ns and a duty. -/
def pulsing (duty : Nat) : State :=
  ((live.setReg (aTioCfg 0) 3).setReg (aTioPwm 0) 256).modPin 0 (fun p => { p with pwmOn := true, duty })

/-- Witnesses of PwmReadbackAndPinConfiguration: the duties, a period that has started, and a DUTY that starts a stopped pin. -/
theorem witness_pwm : ((pulsing 0).fieldLive = true ∧ (pulsing 0).running = true ∧ (pulsing 0).pinFunc 0 = 3 ∧
      (pulsing 0).pinFaulted 0 = false ∧ (pulsing 0).regF (aTioPwm 0) 31 0 * 4 = 1024 ∧ ((pulsing 0).pin 0).pwmAt = none) ∧
    ((after (exec (.pwmPeriodStart 0) (pulsing 0))).pin 0).drv = some false ∧
    ((after (exec (.pwmPeriodStart 0) (pulsing 0xFFFF))).pin 0).drv = some true ∧
    ((after (exec (.pwmPeriodStart 0) (pulsing 0x8000))).pin 0).pulse = some { before := some false, ends := 512 } ∧
    ((after (exec (.pwmPeriodStart 0) ((pulsing 0x8000).setReg (aTioPwm 0) 0))).pin 0).drv = some false ∧
    (let t := after (exec (.pwmPeriodStart 0) (pulsing 0x8000))
     (t.pin 0).pwmAt = some 0 ∧ after (exec (.pwmPeriodStart 0) t) = t) ∧
    (let s := (pulsing 0).modPin 0 (fun p => { p with dutyAt := some (0x4000, 0), pwmOn := false })
     ((after (exec (.pwmPeriodStart 0) s)).pin 0).duty = 0x4000 ∧ ((after (exec (.pwmPeriodStart 0) s)).pin 0).pwmOn = true) ∧
    (after (exec (.pwmPeriodStart 0) ((pulsing 9).modPin 0 (fun p => { p with pwmOn := false })))).fio.pins.map (fun e => e.2.drv) = [none] := by decide +kernel

/-- Pin 0 driven high at core cycle 7, with the cycle as it is now. -/
def driven (cycle : Nat) : State :=
  let s := { live with zen := { live.zen with cycle := 7 } }.modPin 0 (fun p => { p with drv := some true })
  { s with zen := { s.zen with cycle } }

/-- Witnesses of the readback's clauses of PwmReadbackAndPinConfiguration, at the bound of 3 µs, and of TIO_CFG. -/
theorem witness_readback :
    ((driven 3007).pin 0).drvAt = 7 ∧ (after (exec (.readbackMismatch 0) (driven 3007))).flt.level = [srcTioReadback] ∧
    after (exec (.readbackMismatch 0) (driven 3006)) = driven 3006 ∧
    (let t := after (exec (.readbackMismatch 0) (driven 3007))
     (t.pin 0).rb = true ∧ (after (exec (.sourceHealthy (.readback 0)) t)).flt.level = []) ∧
    live.hostWrites (aTioCfg 0) = true ∧
    (after (exec (.tioCfgWrite 0 0xFF0F0002) live)).reg (aTioCfg 0) = 0xFF0F0000 ∧
    ((loading .wait).hostWrites (aTioCfg 0) = true ∧ (loading .wait).running = false) ∧
    (after (exec (.tioCfgWrite 0 0xFFFFFFFA) (loading .wait))).reg (aTioCfg 0) = 0xFF7FFFFA := by decide +kernel

/-- Serial port 3 in a mode, enabled, with an action at the head of its queue. -/
def serial (mode act param : Nat) : State :=
  { ((live.setReg (aSpCfg 3) (BitVec.ofNat 32 (1 + mode * 2))).setReg (aSpClk 3) 100).modPort 3 (fun p => { p with
      relQ := [rel act param] }) with
    zen := { live.zen with state := .locked } }

/-- Witnesses of SerialActionsFillTheFifo: an SPI byte and halfword, a UART's DE, TXEND, I2C_START, and a full FIFO. -/
theorem witness_serial_actions : ((serial 0 8 0x41).fieldLive = true ∧ (serial 0 8 0x41).portOn 3 = true ∧
      (serial 0 8 0x41).releaseAllowed 0 = true ∧ ((serial 0 8 0x41).portNow 3).tx = []) ∧
    ((after (exec (.txb 3) (serial 0 8 0x41))).port 3).tx = [.byte 0x41] ∧
    ((after (exec (.txb 3) (serial 1 8 0x41))).port 3).de = true ∧
    ((after (exec (.txh 3) (serial 0 9 0x4241))).port 3).tx = [.byte 0x41, .byte 0x42] ∧
    ((after (exec (.txend 3) (serial 0 10 0))).port 3).tx = [.txend] ∧
    ((after (exec (.i2cStart 3) (serial 2 11 0x0501))).port 3).tx = [.i2cStart 0x0501] := by decide +kernel

/-- The same with 255 bytes in the FIFO: one more fits, two do not. -/
def stuffed (act param : Nat) : State := (serial 0 act param).modPort 3 (fun p => { p with busy := true, tx := List.replicate 255 (.byte 0) })

/-- The bound of 256 entries of SerialActionsFillTheFifo. -/
theorem witness_serial_full : ((stuffed 8 1).portNow 3).tx.length = 255 ∧
    ((after (exec (.txb 3) (stuffed 8 1))).port 3).tx.length = 256 ∧ ((after (exec (.txh 3) (stuffed 9 1))).port 3).tx.length = 255 ∧
    (after (exec (.txh 3) (stuffed 9 1))).flt.inQ.map (fun r => r.source) = [srcTioQfull] := by decide +kernel

/-- Serial port 0 in a mode with a bit time of 100 ns, enabled, in the middle of a frame of one byte, at a core cycle. -/
def framing (mode : Nat) (tx : List TxEntry) (de : Bool) (cycle : Nat) : State :=
  let s := ((live.setReg (aSpCfg 0) (BitVec.ofNat 32 (1 + mode * 2 + 2 ^ 21))).setReg (aSpClk 0) 100).modPort 0 (fun p => { p with
    busy := true, len := 1, sent := 1, tx, de })
  { s with zen := { s.zen with cycle } }

/-- Witnesses of SerialEventsEndFramesAndReport for bytes received: a UART byte, the 2,047th, and one that finds the FIFO full. -/
theorem witness_serial_bytes : ((framing 1 [] false 0).portOn 0 = true ∧ (framing 1 [] false 0).portHeld 0 = false ∧
      ((framing 1 [] false 0).portNow 0).expects 1 = true ∧ (framing 1 [] false 0).bitTime 0 = 100) ∧
    mget (after (exec (.uartRxByte 0 0x55 false false) (framing 1 [] false 0))).mem.glob 0 = 0x55 ∧
    (let s := (framing 1 [] false 0).modPort 0 (fun p => { p with len := 2046 })
     ((after (exec (.uartRxByte 0 0x55 false false) s)).port 0).busy = false) ∧
    (let s := (framing 1 [] false 0).modPort 0 (fun p => { p with rx := List.replicate 64 0 })
     (after (exec (.uartRxByte 0 0x55 false false) s)).regF (aSpStat 0) 31 16 = 1 ∧
      (after (exec (.uartRxByte 0 0x55 false false) s)).flt.inQ.map (fun r => r.source) = [srcSpOvr]) ∧
    (let s := (framing 0 [] false 0).modPort 0 (fun p => { p with sent := 2 })
     (s.portNow 0).expects 0 = true ∧ ((after (exec (.uartRxByte 0 1 false false) s)).port 0).len = 2) := by decide +kernel

/-- Witnesses of the ends of frames and the reports of SerialEventsEndFramesAndReport, at their bounds. -/
theorem witness_serial_events :
    ((framing 0 [.txend, .byte 2] false 100).portNow 0).tx = [.txend, .byte 2] ∧
    ((after (exec (.frameEnd 0 .txend) (framing 0 [.txend, .byte 2] false 100))).port 0).tx = [.byte 2] ∧
    ((after (exec (.frameEnd 0 .txend) (framing 0 [.txend, .byte 2] false 99))).port 0).busy = true ∧
    ((after (exec (.frameEnd 0 .txend) (framing 2 [.txend] false 0))).port 0).busy = false ∧
    (let s := (framing 2 [] false 0).modPort 0 (fun p => { p with reading := 1 })
     ((after (exec (.frameEnd 0 .readDone) s)).port 0).reading = 0) ∧
    ((after (exec (.frameEnd 0 .idle) (framing 1 [] false 200))).port 0).busy = false ∧
    ((after (exec (.frameEnd 0 .idle) (framing 1 [] false 199))).port 0).busy = true ∧
    (after (exec (.txUnderrun 0) (framing 0 [] false 800))).flt.inQ.map (fun r => r.source) = [srcSpUnder] ∧
    (after (exec (.txUnderrun 0) (framing 0 [] false 799))).flt.inQ = [] ∧
    ((after (exec (.deOff 0) (framing 1 [] true 0))).port 0).de = false ∧
    ((after (exec (.i2cNack 0) (framing 2 [.byte 1, .txend, .byte 2] false 0))).port 0).busy = false ∧
    (after (exec (.i2cNack 0) (framing 2 [] false 0))).flt.inQ.map (fun r => r.source) = [srcSpNack] ∧
    (after (exec (.clockStretchTimeout 0) (framing 2 [] false 0))).flt.level = [srcSpBus] ∧
    (framing 1 [.byte 1] true 0).regF (aSpCfg 0) 21 21 = 1 ∧
    (after (exec (.echoMismatch 0) (framing 1 [.byte 1] true 0))).flt.level = [srcSpBus] ∧
    ((after (exec (.echoMismatch 0) (framing 1 [.byte 1] true 0))).port 0).tx = [] := by decide +kernel

/-- A module in RUN whose port k stands at a training step. -/
def atStep (k step : Nat) : State := live.setReg (aLnkStat k) (BitVec.ofNat 32 step)

/-- A frame of a type for a device downward. -/
def frame (type : Byte) (dst : BitVec 6) (local_ : Bool) : Frame :=
  { type, dst, isLocal := local_, up := false, src := 0, adapter := false, seq := 0, payload := [] }

/-! ### The barrier and the Powyn ports -/

/-- A sync result of seq 1. -/
def result1 : SyncRes := { seq := 1, master := 0, t2z := 0, complete := true }

/-- Witnesses of BarrierMessagesCrossOrAreRetried: a first, and a fourth failed try. -/
theorem witness_barrier :
    (after (exec (.barrierMessage true true) (live.toField (.syncResult result1)))).zen.syncQ = [result1] ∧
    (after (exec (.barrierMessage false true) (live.toHost (.marker 5000000)))).bar.toHost = [] ∧
    (after (exec (.barrierMessage true false) (live.toField (.relay 1)))).bar.triesF = 1 ∧
    (after (exec (.barrierMessage true false) { live with bar := { live.bar with toField := [.relay 1], triesF := 3 } })).bar.toField = [] ∧
    (after (exec .barrierLaneLoss live)).bar.up = false ∧ (after (exec .barrierLaneLoss live)).flt.level = [srcBarLink] ∧
    live.bar.lost = false ∧ (after (exec .heartbeatMissing live)).flt.level = [srcHostLost, srcLnkDown] := by decide +kernel

/-- Witnesses of SetUpAccessesReadAndWriteRegisters. -/
theorem witness_set_up_access : (atHorizon aZenNowlo = false ∧ live.fieldAnswers = true) ∧
    (after (exec (.setUpAccess (BitVec.ofNat 24 aZenNowlo) none .host) { live with zen := { live.zen with count := 9 } })).zen.captured = 9 ∧
    ((loading .wait).fieldAnswers = true ∧ (loading .wait).running = false ∧ (loading .wait).loaderOwns aFltCtrl = false) ∧
    (after (exec (.setUpAccess (BitVec.ofNat 24 aFltCtrl) (some 0x501) .host) (loading .wait))).reg aFltCtrl = 0x505 ∧
    ((atStep 0 9).upstreamUp = true ∧ (atStep 0 9).hor.waitRegs = [] ∧ (atStep 0 9).regF (aRingCfg 0) 8 8 = 0) ∧
    (after (exec (.regRd 0x020000) (atStep 0 9))).hor.outbox.length = 1 ∧
    (after (exec (.regWr 0x020000 0x501) ((loading .wait).setReg (aLnkStat 0) 9))).reg aFltCtrl = 0x505 ∧
    (after (exec (.regWr 0x020001 1) (atStep 0 9))).hor.outbox.length = 1 := by decide +kernel

/-- A module at step 9 whose field side does not answer, with register messages waiting. -/
def unanswered (ws : List (BitVec 24 × Option Word)) : State :=
  { atStep 0 9 with bar := { live.bar with up := false }, hor := { live.hor with waitRegs := ws } }

/-- Witnesses of the register messages' clauses of SetUpAccessesReadAndWriteRegisters: REFUSED with the command ring enabled, a
message that waits, and one that is served after those before it. -/
theorem witness_register_messages :
    (let s := { atStep 0 9 with regs := ((atStep 0 9).setReg (aRingCfg 0) 0x104).regs }
     s.regF (aRingCfg 0) 8 8 = 1 ∧ inHorizonBlock 0x20000 = false ∧
      (after (exec (.regRd 0x20000) s)).hor.outbox.map (fun f => (f.type, f.payload.getD 8 0)) = [(3, 4)]) ∧
    ((unanswered []).fieldAnswers = false ∧ (unanswered []).upstreamUp = true ∧ atHorizon 0x20000 = false ∧ inHorizonBlock aLnkDev = true) ∧
    (after (exec (.regWr 0x20000 7) (unanswered []))).hor.waitRegs = [(0x20000, some 7)] ∧
    (let s := { unanswered [(0x20004, none)] with bar := live.bar }
     s.fieldAnswers = true ∧ (after (exec (.regRd 0x20000) s)).hor.outbox.length = 2) := by decide +kernel

/-- Witnesses of TrainingGoesStepByStep, at port 3 and port 0. -/
theorem witness_training : ((atStep 3 0).portStep 3 = 0 ∧ ((atStep 3 0).setReg aLnkCtrl 0x10).portEnabled 3 = true) ∧
    (after (exec (.electricalDetect 3) ((atStep 3 0).setReg aLnkCtrl 0x10))).portStep 3 = 2 ∧
    (after (exec (.electricalDetect 0) (atStep 0 1))).portStep 0 = 2 ∧
    (after (exec (.laneLock 3 2) (atStep 3 2))).regF (aLnkStat 3) 9 8 = 2 ∧
    (after (exec (.laneDeskew 3) (atStep 3 3))).portStep 3 = 4 ∧
    (after (exec (.laneDeskew 3) (atStep 3 0x1003))).portStep 3 = 5 ∧
    (after (exec (.rateNegotiation 3 2) ((atStep 3 4).setRegF aLnkCtrl 1 0 1))).portStep 3 = 2 ∧
    (after (exec (.rateNegotiation 3 0) (atStep 3 4))).portStep 3 = 5 ∧
    (after (exec (.transmitEqualisation 3 [1, 2, 9, 9, 0, 0, 0, 0]) (atStep 3 5))).regF (aLnkStat 3) 23 20 = 2 ∧
    (after (exec (.version 3 5 5) (atStep 3 6))).portStep 3 = 7 ∧ (after (exec (.version 3 4 4) (atStep 3 6))).regF (aLnkStat 3) 19 16 = 4 ∧
    (after (exec (.version 3 3 1) (atStep 3 6))).portStep 3 = 10 ∧ (after (exec (.version 3 7 6) (atStep 3 6))).portStep 3 = 10 := by
  decide +kernel

/-- Port 0 is up, and device 9 lies behind port 3, which is up. -/
def chain : State := (((atStep 0 9).setReg (aLnkStat 3) 9).setReg (aLnkRange 2) 0x0109)

/-- Port 0 up with the frame 7 kept, asked for so many times already. -/
def asked (n : Nat) : State :=
  (atStep 0 9).modLink 0 (fun l => { l with sent := [{ frame 1 9 false with seq := 7 }], replaySeq := 7, replays := n })

/-- A frame is received with its crc, and with a bad one. -/
def receive (f : Frame) : Instr := .frameReceive 0 (frameBody f) (crc32 (frameBody f))
def broken (f : Frame) : Instr := .frameReceive 0 (frameBody f) (crc32 (frameBody f) + 1)

/-- Witnesses of the reception of frames of FramesAreKeptInOrderAndPortsRetrain: round trip, bad crc, in order, ahead, twice,
forwarded, and discarded. -/
theorem witness_frames : let f := { frame 1 9 false with payload := List.replicate 32 7 }
    (frameOf (frameBody f) (crc32 (frameBody f)) = some f ∧ frameOf (frameBody f) (crc32 (frameBody f) + 1) = none) ∧
    chain.portStep 0 = 9 ∧
    ((after (exec (broken (frame 1 9 false)) chain)).link 0).fails = 1 ∧
    ((after (exec (broken (frame 1 9 false)) chain)).link 0).line = [.askReplay 0] ∧
    ((after (exec (receive (frame 0x10 9 true)) chain)).link 0).rxSeq = 1 ∧ knownType 0x10 = true ∧
    (let s := chain.modLink 0 (fun l => { l with early := [{ frame 0x10 9 true with seq := 1 }] })
     ((after (exec (receive (frame 0x10 9 true)) s)).link 0).rxSeq = 2) ∧
    ((after (exec (receive { frame 1 9 false with seq := 63 }) chain)).link 0).early.length = 1 ∧
    ((after (exec (receive { frame 1 9 false with seq := 64 }) chain)).link 0).early = [] ∧
    (chain.rangePort 9 = some 3 ∧ chain.portStep 3 = 9 ∧ chain.regF aLnkDev 6 6 = 0 ∧ chain.rangePort 40 = none) ∧
    ((after (exec (receive (frame 1 9 false)) chain)).link 3).sent.length = 1 ∧
    (after (exec (receive (frame 1 40 false)) chain)).regF (aLnkErr 0) 15 0 = 1 ∧
    knownType 0 = false ∧ (after (exec (receive (frame 0 9 true)) chain)).regF (aLnkErr 0) 15 0 = 1 := by
  decide +kernel

/-- Witnesses of replays, lost ports and error rates of FramesAreKeptInOrderAndPortsRetrain, at their bounds. -/
theorem witness_replays : ((asked 7).link 0).sent.find? (fun f => f.seq = 7) = some { frame 1 9 false with seq := 7 } ∧
    ((after (exec (.replayRequest 0 7) (asked 7))).link 0).replays = 8 ∧
    ((after (exec (.replayRequest 0 7) (asked 7))).link 0).line = [.frame { frame 1 9 false with seq := 7 }] ∧
    (after (exec (.replayRequest 0 7) (asked 8))).portStep 0 = 1 ∧
    (let s := (asked 8).modLink 0 (fun l => { l with replaySeq := 6 })
     ((after (exec (.replayRequest 0 7) s)).link 0).replays = 1) ∧
    (((asked 0).link 0).sent.all (fun f => f.seq ≠ 8) = true ∧ (after (exec (.replayRequest 0 8) (asked 0))).portStep 0 = 1) ∧
    (after (exec (.portDown 0) (atStep 0 2))).portStep 0 = 1 ∧
    (after (exec (.trainingTimeout 0) (atStep 0 0x2002))).regF (aLnkStat 0) 13 12 = 1 ∧
    (after (exec (.trainingTimeout 0) (atStep 0 0x1003))).portStep 0 = 5 ∧
    (after (exec (.trainingTimeout 0) (atStep 0 8))).portStep 0 = 1 ∧
    (after (exec (.errorRateCheck 0) ((live.setReg aLnkErrth 2).modLink 0 (fun l => { l with fails := 3 })))).bar.toField.length = 1 ∧
    (after (exec (.errorRateCheck 0) ((live.setReg aLnkErrth 2).modLink 0 (fun l => { l with fails := 2 })))).bar.toField.length = 0 := by
  decide +kernel

/-- An enumeration that waits for port 1's answer. -/
def numbering (next : Nat) (rejoin : Bool) : State :=
  { atStep 1 7 with hor := { live.hor with enumAt := some { port := 1, next, fin := 64, used := 1, rejoin } } }

/-- Port 0 at step 8 with n delay results, the module in LINK. -/
def calibrating (n : Nat) : State :=
  { (inMode .link).setReg (aLnkStat 0) 8 with hor := { live.hor with dlinks := List.replicate n 10 } }

/-- Witnesses of EnumerationNumbersTheChain. -/
theorem witness_enumeration : ((atStep 0 7).portStep 0 = 7 ∧ (atStep 0 7).regF aLnkDev 6 6 = 0) ∧
    (after (exec (.enum 63 7 64) (atStep 0 7))).reg aLnkDev = 0x07F ∧
    (after (exec (.enum 63 7 64) (atStep 0 7))).portStep 0 = 8 ∧
    (after (exec (.enumRsp 1 3) (numbering 5 true))).portStep 1 = 9 ∧
    ((numbering 5 false).portStep 1 = 7) ∧ (after (exec (.enumRsp 1 3) (numbering 5 false))).reg (aLnkRange 0) = 0x0305 ∧
    ((after (exec (.enum 63 7 64) (atStep 0 9))).portStep 0 = 9 ∧ (after (exec (.enum 63 7 64) (atStep 0 9))).reg aLnkDev = 0x07F) ∧
    (after (exec .delayCalibration (calibrating 16))).portStep 0 = 9 ∧
    (after (exec .delayCalibration (calibrating 16))).mode.mode = .load ∧
    (after (exec .delayCalibration (calibrating 15))).portStep 0 = 8 := by decide +kernel

/-- No downstream port of that module is ready, and no port behind port 1 is in training. -/
theorem witness_no_port_ready : (∀ k ∈ [1, 2, 3], (atStep 0 7).enumReady k = false) ∧ live.variant.dsports = 3 ∧
    (∀ j ∈ [2, 3], (numbering 5 false).portStep j = 0) := by decide +kernel

/-- Witnesses of the offers and the ranges kept of EnumerationNumbersTheChain: a ready port 1, and a port that joins again. -/
theorem witness_enum_offers :
    (let s := (atStep 0 9).setReg (aLnkStat 1) 7
     s.enumReady 1 = true ∧ (after (exec (.enum 62 3 2) s)).hor.enumAt =
        some { port := 1, next := 63, fin := 64, used := 1, rejoin := false } ∧
      ((after (exec (.enum 62 3 2) s)).link 1).txSeq = 1 ∧ (after (exec (.enum 62 3 2) s)).portStep 0 = 9) ∧
    (let s (keep : Bool) := (numbering 63 false).setReg (aLnkRange 0) 0x0109 |> fun s =>
        { s with hor := { s.hor with enumAt := some { port := 1, next := 63, fin := 64, used := 1, rejoin := false, keep } } }
     (after (exec (.enumRsp 1 1) (s true))).reg (aLnkRange 0) = 0x0109 ∧ (after (exec (.enumRsp 1 1) (s true))).portStep 1 = 9 ∧
      (after (exec (.enumRsp 1 1) (s false))).reg (aLnkRange 0) = 0x013F ∧ (after (exec (.enumRsp 1 1) (s true))).hor.enumAt = none) := by
  decide +kernel

/-! ### Rings, commands and the service port -/

/-- A module in RUN with the upstream port up and ring r enabled with 16 entries. -/
def ringed (r : Nat) : State := (atStep 0 9).setReg (aRingCfg r) 0x104

/-- The same with a read of host memory outstanding: its tag, and the bytes that have come. -/
def reading (r tag : Nat) (got : List (Option Byte)) : State :=
  { ringed r with hor := { live.hor with reading := decide (tag = 5), reads := [{ tag, got }] } }

/-- The same with a page read outstanding. -/
def paging (r : Nat) : State := reading r 5 (List.replicate 24 none)

/-- The entry of SETUP_READ of 0x20000 with id 7 (R453). -/
def setupReadEntry : List Byte := [7, 0, 1, 0, 0, 0, 2, 0] ++ List.replicate 56 0

/-- The bytes of the page in which ring 1 has an index. -/
def pageOf (i : Nat) : List Byte := leBytes 4 0 ++ leBytes 4 i ++ List.replicate 16 0

/-- A completion of the command 7. -/
def done7 : Completion :=
  { id := 7, op := 1, status := 0, result := 5, time := 0, local_ := false, data := [], notify := false, haddr := 0
    buffer := [], counts := true }

/-- Witnesses of RingEngineServesThePage: the page's reads, whole and in parts, and each index at its bound. -/
theorem witness_ring_engine : (live.mode.hostRst = true ∧ (ringed 3).upstreamUp = true ∧ (ringed 1).ringOn 1 = true) ∧
    (after (exec (.doorbell 1) (ringed 3))).hor.reading = true ∧ (after (exec .pollTimer (ringed 3))).hor.reading = true ∧
    (after (exec (.doorbell 1) (paging 3))).hor.again = true ∧ (paging 1).indexBad 1 16 = false ∧ (paging 1).indexBad 1 17 = true ∧
    (wordsOf 6 (pageOf 16)).getD 1 0 = 16 ∧
    ((after (exec (.memCpl ⟨5, 0, 0, pageOf 16⟩) (paging 1))).ring 1).host = 16 ∧
    (after (exec (.memCpl ⟨5, 0, 0, pageOf 17⟩) (paging 1))).regF (aRingStat 1) 0 0 = 1 ∧
    (let t := after (exec (.memCpl ⟨5, 0, 0, (pageOf 16).take 23⟩) (paging 1))
     t.hor.reading = true ∧ t.hor.reads.length = 1 ∧ ((after (exec (.memCpl ⟨5, 23, 0, [0]⟩) t)).ring 1).host = 16) ∧
    (after (exec (.notify 3) { ringed 3 with hor := { live.hor with notifyDue := [3] } })).hor.notifyDue = [] := by decide +kernel

/-- Witnesses of the entries, buffers and errors of RingEngineServesThePage. -/
theorem witness_ring_reads :
    (let s := (reading 0 0 (List.replicate 64 none)).modRing 0 (fun r => { r with asked := 1 })
     (s.ringOn 0 = true ∧ ((s.ring 0).asked - (s.reg (aRingIdx 0) + w32 s.heldCommands)).toNat = 1 ∧ s.hor.cmdQ = [] ∧
      (Command.ofBytes setupReadEntry).malformed = none ∧ (Command.ofBytes setupReadEntry).outOfRange = false) ∧
      (after (exec (.memCpl ⟨0, 0, 0, setupReadEntry⟩) s)).hor.cmdQ.map
        (fun c => (c.id, c.op, c.a0)) = [(7, 1, 0x20000)]) ∧
    (let s := (reading 1 1 (List.replicate 64 none)).modRing 1 (fun r => { r with asked := 1 })
     ((after (exec (.memCpl ⟨1, 0, 0, List.replicate 64 9⟩) s)).ring 1).fetched = [List.replicate 64 9]) ∧
    (((cmd 0x31 3 0 4).reads = 4 ∧ (cmd 0x31 3 0 4).buffer = []) ∧
      (let s := commanded (atStep 0 9) (cmd 0x31 3 0 4)
       (after (exec (.memCpl ⟨6, 0, 0, [1, 2, 3, 4]⟩) { s with hor := { s.hor with reads := [{ tag := 6, got := List.replicate 4 none }] } })).hor.cmdQ.map
        (fun c => c.data) = [[1, 2, 3, 4]])) ∧
    (after (exec (.memCpl ⟨4, 0, 1, []⟩) (ringed 4))).regF (aRingStat 4) 5 4 = 3 ∧
    (after (exec (.memCpl ⟨6, 0, 1, []⟩) (ringed 0))).regF (aRingStat 0) 5 4 = 3 ∧
    (after (exec (.memCpl ⟨5, 0, 1, []⟩) (paging 1))).hor.reading = false := by decide +kernel

/-- A held completion is written where ring 3 has room (R454, R456). -/
theorem witness_completion_write : (ringed 3).ringRoom 3 = true ∧
    (after (exec .completionWrite { ringed 3 with hor := { live.hor with cplQ := [done7] } })).reg (aRingIdx 3) = 1 ∧
    (after (exec .completionWrite { ringed 3 with hor := { live.hor with cplQ := [done7] } })).reg (aRingIdx 0) = 1 := by
  decide +kernel

/-- Witnesses of RingsAreEnabledAndDisabled, at the bounds of lsize. -/
theorem witness_ring_enable :
    (after (exec (.ringCfgEnWrite 4 0x110) live)).ringOn 4 = true ∧ (after (exec (.ringCfgEnWrite 0 0x104) live)).ringOn 0 = true ∧
    (after (exec (.ringCfgEnWrite 0 0x103) live)).ringOn 0 = false ∧ (after (exec (.ringCfgEnWrite 0 0x111) live)).ringOn 0 = false ∧
    (after (exec (.ringCfgEnWrite 3 0x004) (ringed 3))).ringOn 3 = false := by decide +kernel

/-- The command in progress finishes over both (R450), and a reserved bit is reported. -/
theorem witness_ring_enable_head :
    let s := { ringed 0 with hor := { live.hor with cmdQ := [cmd 0x01 0 0 0, cmd 0x02 0 0 0] } }
    (after (exec (.ringCfgEnWrite 0 0x104) s)).hor.cmdQ = [{ cmd 0x01 0 0 0 with old := true }] ∧
      (after (exec (.ringCfgEnWrite 0 4) s)).hor.cmdQ = [cmd 0x01 0 0 0] ∧
      after (exec (.ringCfgEnWrite 0 0x103) s) = s := by decide +kernel

/-- Witnesses of ImageCommandsBuildTheInactiveSlot: set-up accesses, and the sequence that fills slot B. -/
theorem witness_image_commands :
    (commandOk live (cmd 0x01 0x20000 0 0) = true ∧ atHorizon 0x20000 = false) ∧
    (after (exec .setupRead (commanded live (cmd 0x01 0x20000 0 0)))).hor.cplQ.map (fun x => (x.id, x.status, x.result)) = [(7, 0, 6)] ∧
    (commandOk (loading .wait) (cmd 0x02 0x20000 0x501 0) = true ∧ (loading .wait).loaderOwns aFltCtrl = false) ∧
    (after (exec .setupWrite (commanded (loading .wait) (cmd 0x02 0x20000 0x501 0)))).reg aFltCtrl = 0x505 ∧
    (commandOk live (cmd 0x20 0x180000 0 0) = true ∧ live.hor.image = none ∧ live.mode.trial = false) ∧
    (after (exec .imageBegin (commanded live (cmd 0x20 0x180000 0 0)))).hor.image =
      some { service := false, next := 0, total := 0x180000 } ∧
    (after (exec .imageSequenceTimeout (after (exec .imageBegin (commanded live (cmd 0x20 0x180000 0 0)))))).hor.image = none := by
  decide +kernel

/-- A sequence of 200 bytes that stands at byte 4. -/
def filling : State := { live with hor := { live.hor with image := some { service := false, next := 4, total := 200 } } }

/-- An image block of 4 bytes with its bytes read from host memory. -/
def block : Command := { cmd 0x21 4 4 0 with data := List.replicate 40 0 ++ [1, 2, 3, 4] }

/-- Witnesses of IMAGE_BLOCK and IMAGE_END of ImageCommandsBuildTheInactiveSlot. -/
theorem witness_image_block : (commandOk filling block = true ∧ srcVmonCore ∉ filling.flt.level) ∧
    mread (after (exec .imageBlock (commanded filling block))).mem.mram 0x180004 4 = [1, 2, 3, 4] ∧
    commandOk filling (cmd 0x22 0 0 0) = true ∧
    ((commanded filling (cmd 0x22 0 0 0)).imageVerdict { service := false, next := 4, total := 200 } (filling.slotImage true)).result = 6 ∧
    (after (exec .imageEnd (commanded filling (cmd 0x22 0 0 0)))).hor.cplQ.map (fun x => x.status) = [6] := by decide +kernel

/-- A revocation image whose signature is the verdict of a constant: its slot number is read from its only section (R471). -/
theorem test_revocation_image :
    let g : List Byte := bytesOf ([0x4D49544C, 0x00070201, 152, 0x00010000, 0, 0, 0, 0, 9, 48, 4, 0, 3, 0] ++ List.replicate 24 0)
    ({ live with mem := { live.mem with mram := mwrite [] 0x180000 g } }.slotImage true).revokes live.variant 152 = some 3 := by
  decide +kernel

/-- An image with a schedule of partition 0: generation 1, one slot, one empty table of cell 0 (R200, R203). -/
def schedImage : List Byte :=
  bytesOf ([0x4D49544C, 0x00070101, 184, 0x00010000, 0, 0, 0, 0, 6, 48, 40, 0, 1, 0, 0, 0, 0x10000, 0, 0, 0, 0, 0]
    ++ List.replicate 24 0)

/-- That image in the inactive slot of a module whose partition 0 is Scheduled. -/
def staging : State :=
  { scheduled with
    mem := { live.mem with mram := mwrite [] 0x180000 schedImage }, mode := { scheduled.mode with validB := true } }

/-- Witnesses of IMAGE_STAGE of ImageCommandsBuildTheInactiveSlot. -/
theorem witness_image_stage : (commandOk staging (cmd 0x23 0 0 0) = true ∧ staging.running = true ∧
      staging.slotValid true = true ∧ (staging.partition 0).sched = true ∧ (staging.part 0).armed = none) ∧
    ((staging.slotImage true).checkLayout 0x180000 = none ∧ ((staging.slotImage true).schedOf 0).isSome = true ∧
      ((commanded staging (cmd 0x23 0 0 0)).takeCommand []).mayStage (staging.slotImage true)
        { idx := 0, type := 6, param := 0, off := 48, len := 40 } 0 = true ∧
      (staging.slotImage true).schedOf 0 = some { idx := 0, type := 6, param := 0, off := 48, len := 40 }) := by decide +kernel

/-- Witnesses of MemoryViewAndKeyCommandsComplete: reads and writes of global memory, DRAM and MRAM. -/
theorem witness_memory_commands :
    (commandOk live (cmd 0x30 3 0x40000 8) = true ∧ live.rangeStatus (cmd 0x30 3 0x40000 8).range = 0 ∧
      (cmd 0x30 3 0x40000 8).range.cloud = none ∧ (cmd 0x30 3 0x40000 8).range.poisonNo = some 18 ∧
      (cmd 0x30 3 0x40000 8).range.words.all (fun w => !live.poisoned 18 w) = true ∧ live.hiddenByte 3 0x40000 = false) ∧
    (after (exec .memRead (commanded { live with mem := { live.mem with glob := [(0x40001, 9)] } } (cmd 0x30 3 0x40000 8)))).hor.cplQ.map
      (fun x => x.buffer) = [[0, 9, 0, 0, 0, 0, 0, 0]] ∧
    (live.rangeStatus (cmd 0x31 3 0x40000 4).range = 0 ∧ live.writeStatus? (cmd 0x31 3 0x40000 4).range = 0) ∧
    (live.rangeStatus (cmd 0x31 4 0 4).range = 0 ∧ live.writeStatus? (cmd 0x31 4 0 4).range = 0 ∧
      commandOk live { cmd 0x31 4 0 4 with data := List.replicate 40 0 ++ [1, 2, 3, 4] } = true) ∧
    (live.rangeStatus (cmd 0x31 5 3932160 4).range = 0 ∧ live.writeStatus? (cmd 0x31 5 3932160 4).range = 0) ∧
    (after (exec .memWrite (commanded live { cmd 0x31 4 0 4 with data := List.replicate 40 0 ++ [1, 2, 3, 4] }))).mem.dram =
      [(0, 1), (1, 2), (2, 3), (3, 4)] := by decide +kernel

/-- MEM_READ of the frame store of cell 0, with its cloud in a state. -/
def peeking (c : CloudState) : State := commanded (live.modCloud 0 (fun k => { k with state := c })) (cmd 0x30 0 0 4)

/-- Witnesses of the clauses of MemoryViewAndKeyCommandsComplete about clouds, poison and restricted writes. -/
theorem witness_memory_refusals :
    (commandOk live (cmd 0x30 0 0 4) = true ∧ live.rangeStatus (cmd 0x30 0 0 4).range = 0 ∧ (cmd 0x30 0 0 4).range.cloud = some 0) ∧
    after (exec .memRead (peeking .drain)) = peeking .drain ∧ ((after (exec .memRead (peeking .parked))).cloud 0).state = .waking ∧
    (∀ c ∈ [CloudState.off, .test, .fenced], (after (exec .memRead (peeking c))).hor.cplQ.map (fun x => x.status) = [5]) ∧
    (after (exec .memRead (peeking .run))).hor.cplQ.map (fun x => x.status) = [0] ∧
    (let s := { live with mem := { live.mem with poison := [(18, 0x40004 / 4)] } }
     (cmd 0x30 3 0x40000 8).range.words.any (fun w => s.poisoned 18 w) = true ∧
      (after (exec .memRead (commanded s (cmd 0x30 3 0x40000 8)))).hor.cplQ.map (fun x => x.status) = [5]) ∧
    (let c := { cmd 0x31 0 0 4 with data := List.replicate 44 0 }
     commandOk live c = true ∧ live.writeStatus? c.range = 4 ∧
      (after (exec .memWrite (commanded live c))).hor.cplQ.map (fun x => x.status) = [4]) := by decide +kernel

/-- Witnesses of the views, SELFTEST and KEY_PROGRAM of MemoryViewAndKeyCommandsComplete. -/
theorem witness_view_commands :
    (commandOk live (cmd 0x32 0 255 0) = true ∧ commandOk live (cmd 0x33 1 0 0) = true ∧ commandOk live (cmd 0x34 0 0 0) = true ∧
      (live.cloud 0).state = .run ∧ live.checks 0 = false ∧ live.placeOf 1 = some 1) ∧
    (after (exec .setView (commanded live (cmd 0x32 0 255 0)))).hor.cplQ.map (fun x => (x.status, x.buffer.length)) = [(0, 256)] ∧
    (after (exec .keyView (commanded live (cmd 0x33 1 0 0)))).hor.cplQ.map (fun x => (x.status, x.buffer.length)) = [(0, 0)] ∧
    (after (exec .slotView (commanded live (cmd 0x34 0 0 0)))).hor.cplQ.map (fun x => x.status) = [0] ∧
    commandOk (inMode .safe) (cmd 0x40 0 0 0) = true ∧
    goes (exec (.selftest { cells := [], clouds := [], root := false, macros := [] }) (commanded (inMode .safe) (cmd 0x40 0 0 0))) = true := by
  decide +kernel

/-- KEY_PROGRAM of slot 3 with usage 2, with and without the 96 bytes of an authorisation. -/
theorem witness_key_program : (commandOk (loading .wait) (cmd 0x50 0xB 0 0) = true ∧ fld (0xB : Word) 3 2 ≠ 0 ∧
      (loading .wait).running = false ∧ (∀ i ∈ [0, 1, 2, 3], ((loading .wait).key i).prog = false)) ∧
    ((after (exec (.keyProgram true) (commanded (loading .wait) (cmd 0x50 0xB 0 0)))).key 3).prog = true ∧
    (after (exec (.keyProgram true) (commanded ((loading .wait).modKey 3 (fun k => { k with prog := true })) (cmd 0x50 0xB 0 0)))).hor.cplQ.map
      (fun x => x.status) = [4] := by decide +kernel

/-- A module whose field side does not answer: the barrier is down. -/
def silent : State := { live with bar := { live.bar with up := false } }

/-- Witnesses of UnansweredAccessesTimeOut: a register message and a command that time out, and messages served again. -/
theorem witness_time_out : silent.fieldAnswers = false ∧
    (let s := unanswered [(0x20000, some 5), (0x20004, none)]
     s.fieldAnswers = false ∧ s.mode.hostRst = true ∧ s.upstreamUp = true ∧
      (after (exec .fieldSideTimeout s)).hor.waitRegs = [(0x20004, none)] ∧
      (after (exec .fieldSideTimeout s)).hor.outbox.map (fun f => (f.type, f.payload.take 9)) = [(3, [0, 0, 2, 0, 5, 0, 0, 0, 7])]) ∧
    (let s := { unanswered [(0x20004, none)] with bar := live.bar }
     s.fieldAnswers = true ∧ s.pending = [] ∧ (after (exec .fieldSideTimeout s)).hor.outbox.length = 1 ∧
      (after (step s)).hor.waitRegs = []) ∧
    ((cmd 0x01 0x20000 0 0).onHorizon = false ∧ commandOk silent (cmd 0x01 0x20000 0 0) = true) ∧
    (after (exec .fieldSideTimeout (commanded silent (cmd 0x01 0x20000 0 0)))).hor.cplQ.map (fun x => (x.id, x.status)) = [(7, 7)] := by
  decide +kernel

/-- An inject ring whose head is an entry of a kind, a reserved byte and a tag (R459). -/
def injecting (kind rsv : Byte) (tag : Byte) : State :=
  (ringed 1).modRing 1 (fun r => { r with fetched := [[kind, rsv, tag, 0, 9, 0, 3, 0, 5] ++ List.replicate 55 0] })

/-- Witnesses of InjectAndExtractEntries: malformed, an event, a token whose tag does not fit. -/
theorem witness_inject :
    (after (exec .injectEntry (injecting 3 0 0))).regF (aRingStat 1) 5 4 = 2 ∧
    ((injecting 1 0 0).fieldAnswers = true ∧ (injecting 1 0 0).dspOn = true ∧ (injecting 1 0 0).eventRoom 3 = true) ∧
    ((after (exec .injectEntry (injecting 1 0 0))).events 3).map (fun e => (e.flow, e.flag, e.value)) = [(9, 3, 5)] ∧
    (injecting 2 0 1).tagOk 0 1 = false ∧
    (after (exec .injectEntry (injecting 2 0 1))).flt.inQ.map (fun r => r.source) = [srcIfcVer] := by decide +kernel

/-- A token entry of flow 5 and cell 0 with no tag, at the head of the inject ring (R459). -/
def injectingToken : State :=
  (ringed 1).modRing 1 (fun r => { r with fetched := [[2] ++ List.replicate 15 0 ++ (tok 0 7).tail ++ List.replicate 32 0] })

/-- Witnesses of the launch and of the held source of InjectAndExtractEntries. -/
theorem witness_inject_token :
    (let e := (injectingToken.ring 1).fetched.headD []
     injectBad e = false ∧ entryNat e 0 1 = 2 ∧ (Token.ofNat (entryNat e 16 16)) = tok 0 7 ∧ injectingToken.tagOk 5 0 = true ∧
      injectingToken.injectCredit 0 = true ∧ (injectingToken.tokenRoute 0).isSome = true) ∧
    (after (exec .injectEntry injectingToken)).jet.rootOut.map (fun p => (p.cargo, p.vc)) = [(.plain (.token (tok 0 7)), .t)] ∧
    (let s := { injectingToken with dsp := { live.dsp with holding := [(3, 5)] } }
     tfind s.dsp.holding 3 = some 5 ∧ after (exec .injectEntry s) = s) := by decide +kernel

/-- A token at the barrier port, with n entries held. -/
def extracting (n : Nat) : State :=
  { ringed 2 with bar := { live.bar with inQ := [tok 0 5], extractQ := List.replicate n [] } }

/-- Witnesses of the extract clauses of InjectAndExtractEntries, at the bound of 64 held entries. -/
theorem witness_extract :
    ((extracting 0).ringRoom 2 = true ∧ (after (exec .extractToken (extracting 0))).reg (aRingIdx 2) = 1) ∧
    ({ extracting 63 with regs := [] }.ringRoom 2 = false) ∧
    (after (exec .extractToken { extracting 63 with regs := [] })).bar.extractQ.length = 64 ∧
    (after (exec .extractToken (extracting 64))).bar.inQ.length = 1 ∧
    (after (exec .extractDrop ({ extracting 2 with regs := [] }.setReg (aRingCfg 2) 0x200))).bar.extractQ.length = 1 := by
  decide +kernel

/-- A connected service port at a level. -/
def serving (level : BitVec 2) : State :=
  { live.setReg aSvcCtrl 3 with hor := { live.hor with svc := { Service.reset with conn := true, level } } }

/-- The same in a lockout after two failures. -/
def lockedOut : State :=
  { serving 0 with hor := { live.hor with svc := { Service.reset with conn := true, lockout := true, streak := 2 } } }

/-- An AUTH payload that no key has signed. -/
def unsigned (rights : Byte) : AuthPayload :=
  { key := 0, rights, expiry := 0, serial := 0, signer := 0, signerSig := 0, ownSig := 0 }

/-- Witnesses of ServiceSessionsFollowTheirRights. -/
theorem witness_sessions : (live.setReg aSvcCtrl 1).regF aSvcCtrl 0 0 = 1 ∧
    (after (exec .usbConnect (live.setReg aSvcCtrl 1))).hor.svc.conn = true ∧
    (after (exec .usbConnect (live.setReg aSvcCtrl 1))).hor.svc.line.isSome = true ∧
    (after (exec .lockoutEnd lockedOut)).hor.svc.lockout = false ∧ (serving 2).svcLive = true ∧
    (after (exec .usbDisconnect (serving 2))).hor.svc.level = 0 ∧ (after (exec .sessionTimeout (serving 2))).hor.svc.level = 0 ∧
    (after (exec (.logout 9) (serving 2))).hor.svc.answers = [svcLine 9 0x84 [0]] ∧ (serving 0).fieldAnswers = true ∧
    (after (exec (.challenge 9) lockedOut)).hor.svc.answers = [svcLine 9 0x82 [4]] ∧
    (after (exec (.ident 9) (serving 0))).hor.svc.answers.length = 1 ∧ (serving 0).hor.svc.lockout = false ∧
    (after (exec (.challenge 9) (serving 0))).hor.svc.nonce.isSome = true ∧
    ((serving 0).authOk (unsigned 2) = false ∧ (after (exec (.auth 9 (unsigned 2)) lockedOut)).hor.svc.lockout = true) := by
  decide +kernel

/-- The ends of a session end the service port's image sequence, and leave one of the ring. -/
theorem witness_sequence_ends :
    let s (service : Bool) := { serving 2 with hor := { (serving 2).hor with image := some { service, next := 0, total := 9 } } }
    (s true).svcLive = true ∧ (∀ i ∈ ([.usbDisconnect, .sessionTimeout, .logout 9] : List Instr),
      (after (exec i (s true))).hor.image = none ∧ (after (exec i (s false))).hor.image.isSome = true) := by decide +kernel

/-- The line of LOGOUT's answer (R464), seq 9 and status 0: the text of R464, its CRC-16 computed by hand. -/
theorem test_service_line : svcLine 9 0x84 [0] = ascii ":098401001CA3" ++ [13, 10] := by decide +kernel

/-- Witnesses of ServiceCommandsNeedTheirLevel: at the level, and one below it. -/
theorem witness_service_levels :
    (after (exec (.logread 9 0 7) (serving 1))).hor.svc.answers.length = 1 ∧ (after (exec (.logread 9 0 7) (serving 1))).mem = live.mem ∧
    (after (exec (.regread 9 0x20000 1) (serving 1))).hor.svc.answers = [svcLine 9 0x91 [0, 6, 0, 0, 0]] ∧
    (after (exec (.logread 9 0 7) (serving 0))).hor.svc.answers = [svcLine 9 0x90 [4]] ∧
    (after (exec (.imgEnd 9) (serving 1))).hor.svc.answers = [svcLine 9 0xB2 [4]] ∧ (serving 2).regF aSvcCtrl 1 1 = 1 ∧
    (after (exec (.imgBegin 9 0x180000) (serving 2))).hor.image = some { service := true, next := 0, total := 0x180000 } ∧
    (after (exec (.imgBlock 9 0 [1, 2]) (after (exec (.imgBegin 9 2) (serving 2))))).hor.image =
      some { service := true, next := 2, total := 2 } ∧
    (after (exec (.imgEnd 9) (after (exec (.imgBegin 9 2) (serving 2))))).hor.image = none ∧
    ((after (exec (.keyProg 9 3 2 5 { key := 0, sig := 0 } true) { serving 2 with mode := (loading .wait).mode })).key 3).digest = 5 ∧
    ((after (exec (.svcSelftest 9 { cells := [], clouds := [], root := false, macros := [] })
      { serving 2 with variant := .ltm7064, mode := (inMode .safe).mode })).hor.svc.answers.length = 1) := by
  decide +kernel

/-- The header of the frame of flow 5, iteration 0: one area of 112 words after the header words at word 0. -/
def header5 : Header :=
  { flow := 5, iteration := 0, cls := 1, atomic := false, base := 0, nareas := 0, areaWords := 112, winWords := 96
    handler := 0x20, hen := true }

/-- Its directory entry in a state, with a busy byte. -/
def dir5 (st : DirState) (busy : Byte) : DirEntry :=
  { hdr := header5, busy, state := st, scheduled := false, trapPending := false, complete := false }

/-- Instruction parcels from parcel 0 on, each instruction one 32-bit word with its head bit (R84, R86). -/
def parcels : Nat → List Nat → Table (BitVec 17)
  | _, [] => []
  | a, w :: ws => (a, BitVec.ofNat 17 (w % 65536 + 65536)) :: (a + 1, BitVec.ofNat 17 (w / 65536)) :: parcels (a + 2) ws

/-- A strand of flow 5 in slot 0 of cell 0, changed, with instructions from parcel 0 on and two values in w1 and w2. -/
def jitOf (f : Strand → Strand) (ws : List Nat) (a b : Word) : State :=
  liveCell fun c => ({ c with
    dir := [dir5 .live 1], slots := [(0, f strand0)], istore := (parcels 0 ws).filter (fun e => e.2 ≠ 0) }).putWords 17 [a, b]

/-- The same with the strand at its start. -/
def jit (ws : List Nat) (a b : Word) : State := jitOf id ws a b

/-- What the instruction of the strand in slot 0 of cell 0 has at hand. -/
def ctx0 (s : State) : Ctx :=
  let t := ((s.cell 0).strand 0).getD strand0
  let i := (((s.cell 0).decodeAt t).bind t.stepped).getD { op := .nop }
  { s, pcell := 0, slot := 0, t, ins := i, a := s.readReg 0 0 t i.rs1, b := s.readReg 0 0 t i.rs2 }

/-- The premise Issues of the obligations about Jithar, as a check. -/
def issues (s : State) (op : Opc) : Bool :=
  decide (0 < s.variant.pcells) && decide ((s.cell 0).strand 0 = some (ctx0 s).t) && s.mayIssue 0 0 (ctx0 s).t &&
    decide ((ctx0 s).t.wait = .nothing) && decide (((s.cell 0).decodeAt (ctx0 s).t).map (fun i => i.op) = some op) &&
    decide (((s.cell 0).decodeAt (ctx0 s).t).bind (ctx0 s).t.stepped = some (ctx0 s).ins) &&
    ((s.cell 0).decodeAt (ctx0 s).t).all (fun i => decide (s.fetchPoison 0 (ctx0 s).t i.len = none)) &&
    decide (s.poisonHit 0 (ctx0 s).t (ctx0 s).ins = none) &&
    decide (¬ ((ctx0 s).ins.op.writesD = true ∧ 32 ≤ (ctx0 s).ins.rd ∧ (ctx0 s).ins.rd < 40 ∧ s.isPaired 0 = true))

theorem issues_ok (s : State) (op : Opc) (h : issues s op = true) : Issues s 0 0 op (ctx0 s) := by
  simp only [issues, Bool.and_eq_true, decide_eq_true_eq] at h
  obtain ⟨⟨⟨⟨⟨⟨⟨⟨h1, h2⟩, h3⟩, h4⟩, h5⟩, h6⟩, h9⟩, h7⟩, h8⟩ := h
  refine ⟨h1, by decide, ⟨rfl, rfl, rfl⟩, h2, ⟨h3, h4⟩, ?_, h7, h8, ?_, ?_⟩
  · cases e : (s.cell 0).decodeAt (ctx0 s).t with
    | none => rw [e] at h5; cases h5
    | some i =>
      rw [e] at h5 h6 h9
      exact ⟨i, rfl, by simpa using h5, by simpa using h9, h6⟩
  · rfl
  · rfl

/-- The premise Continues, as a check. -/
def goesOn (c : Cell) (u : Strand) : Bool :=
  !u.single && !u.dying && !u.stepping && (u.rep || !isFence (c.fetchWord u))

theorem goesOn_ok (c : Cell) (u : Strand) (h : goesOn c u = true) : Continues c u := by
  simp only [goesOn, Bool.and_eq_true, Bool.or_eq_true, Bool.not_eq_true'] at h
  exact ⟨h.1.1.1, h.1.1.2, h.1.2, h.2⟩

/-- What a command leaves in window register 3 of the strand in slot 0 of cell 0, and its program counter. -/
def w3 (i : Instr) (s : State) : Word × Nat :=
  let t := after (exec i s)
  (t.readReg 0 0 (((t.cell 0).strand 0).getD strand0) 3, (((t.cell 0).strand 0).getD strand0).pc.toNat)


/-- The pending product, and the specials, of the strand after a command. -/
def strandOf (i : Instr) (s : State) : Strand := (((after (exec i s)).cell 0).strand 0).getD strand0

/-- A waiting token, or a latch, of flow 5 and parcel 3, in way 2 of its set. -/
def waiting (port : BitVec 2) (latch : Bool) : Table Entry := [(setOf 5 0 3 * 8 + 2, { tok := tok port 4, latch, past := false })]

/-- Cell 0 after a command. -/
def cell0 (i : Instr) (s : State) : Cell := (after (exec i s)).cell 0

/-- An answer of status 0. -/
def resp (tag : BitVec 6) (data : BitVec 64) : Response := { addr := 0x2200000, status := 0, rcloud := 0, rcell := 0, unit := 0, tag, data, body := [] }

/-! ### Cells -/

/-- A cell with a token at its intake, a LIVE frame of flow 5, and entries in its matching store. -/
def matching (k : Token) (st : Table Entry) : State :=
  liveCell fun c => { c with dir := [dir5 .live 1], inQ := [.network k none none], store := st }

/-- The ready queue of cell 0 after TOKEN_ACCEPT, by the two values, and the number of entries of its store. -/
def fired (s : State) : List (Nat × Nat) × Nat :=
  ((cell0 (.tokenAccept 0 .good) s).readyQ.map (fun a => (a.w0.toNat, a.w1.toNat)), (cell0 (.tokenAccept 0 .good) s).store.length)

/-- The set of chapter 2's example 1, and its latch set (R59). -/
theorem test_set_hash : setOf 0x2A5 0x1C3E 0x0D14 = 0x81 ∧ setOf 0x2A5 0 0x0D14 = 0x90 := by decide +kernel

/-- Witnesses of the premises of TokensFireWaitOrAreRefused: refused, monadic, with a latch, paired, of one port, alone, and
a latch token. -/
theorem witness_tokens : (live.cellRuns 0 = true ∧ live.isSched 0 = false ∧ (live.cell 0).schedQ = []) ∧
    tokenOk { tok 0 7 with cell := 9 } ((live.lidOf 0).map live.workId) false false = false ∧
    ((after (exec (.tokenAccept 0 .good) (matching { tok 0 7 with cell := 9 } []))).flt.inQ.map (fun r => r.source) = [srcTokenBad]) ∧
    tokenOk (tok 0 7) ((live.lidOf 0).map live.workId) false false = true ∧ fired (matching (tok 0 7) []) = ([(7, 0)], 0) ∧
    fired (matching (tok 1 7) (waiting 3 true)) = ([(7, 4)], 1) ∧ fired (matching (tok 1 7) (waiting 2 false)) = ([(7, 4)], 0) ∧
    fired (matching (tok 2 7) (waiting 1 false)) = ([(4, 7)], 0) ∧ fired (matching (tok 1 7) (waiting 1 false)) = ([], 1) ∧
    fired (matching (tok 2 7) []) = ([], 1) ∧
    (cell0 (.tokenAccept 0 .good) (matching (tok 3 7) (waiting 3 true))).store.map (fun e => e.2.tok.value) = [7] := by decide +kernel

/-- The clauses for a full ready queue and for a frame that is not there. -/
theorem witness_tokens_full :
    (cell0 (.tokenAccept 0 .good) ((matching (tok 0 7) []).modCell 0 (fun c =>
      { c with readyQ := List.replicate 64 (monoAct (tok 0 7)) }))).inQ.length = 1 ∧
    fired ((matching (tok 0 7) []).modCell 0 (fun c => { c with dir := [] })) = ([], 0) := by decide +kernel

/-- Witnesses of the prefetch and pre-matched clauses of TokensFireWaitOrAreRefused. -/
theorem witness_prefetch :
    ((liveCell fun c => { c with prefetchIn := some (header5, tok 0 7) }).cell 0).prefetch = none ∧
    (cell0 (.prefetchMessage 0) (liveCell fun c => { c with prefetchIn := some (header5, tok 0 7) })).dir.map (fun e => e.busy) = [0] ∧
    (cell0 (.preMatchedActivation 0) (liveCell fun c => { c with dir := [dir5 .live 1], preQ := [(monoAct (tok 0 7), none)] })).readyQ.length = 1 := by
  decide +kernel

/-- The clauses for a prefetch message in a FAULTED partition, and for a level-1 entry with a double-bit error. -/
theorem witness_prefetch_faulted :
    (let s := (liveCell fun c => { c with prefetchIn := some (header5, tok 0 7) })
     let s := { s with flt := { s.flt with faulted := 1 } }
     s.inFaulted 0 = true ∧ (cell0 (.prefetchMessage 0) s).dir = []) ∧
    (cell0 (.tokenAccept 0 (.double 2)) (matching (tok 1 7) (waiting 2 false))).store.map (fun e => e.2.tok.port) = [1] := by
  decide +kernel

/-- A cell whose latch of flow 5 and parcel 3 sweeps a waiting left token of iteration 1 and a right one of iteration 2. -/
def sweeping : State :=
  liveCell fun c => { c with
    dir := [dir5 .live 1, { dir5 .live 1 with hdr := { header5 with iteration := 1 } }], sweep := some (tok 3 7)
    store := waiting 3 true ++ [(setOf 5 1 3 * 8, { tok := { tok 1 9 with iteration := 1 }, latch := false, past := false }),
      (setOf 5 2 3 * 8, { tok := { tok 2 9 with iteration := 2 }, latch := false, past := false })] }

/-- Witnesses of StoresAreSweptAgedAndPurged: a sweep, a visit that finds a late token under two policies, both levels of the
spill engine, and a purge in a Dynamic and in a Scheduled cell. -/
theorem witness_stores : ((sweeping.cell 0).findLatch 5 3).isSome = true ∧
    (cell0 (.latchSweep 0) sweeping).store.length = 1 ∧ (sweeping.cell 0).live 5 1 = true ∧
    (cell0 (.latchSweep 0) sweeping).readyQ.map (fun a => (a.w0, a.w1, a.iteration)) = [(9, 4, 1)] ∧
    (after (exec (.latchSweep 0) sweeping)).flt.inQ.map (fun r => r.source) = [srcPortMix] ∧
    (let aged (p : BitVec 2) := liveCell fun c => { c with
        latePol := [(5, p)], ager := setOf 5 0 3, store := [(setOf 5 0 3 * 8, { tok := { tok 1 9 with stamp := 1 }, latch := false, past := true })] }
     (cell0 (.agerVisit 0 .good) (aged 0)).store.map (fun e => e.2.tok.late) = [true] ∧ (cell0 (.agerVisit 0 .good) (aged 1)).store = []) ∧
    live.engineOn 0 = true ∧ live.flowPolicy 5 = 0 ∧
    (let l2 := live.modCloud 0 (fun c => { c with l2 := waiting 1 false, l3 := waiting 1 false })
     ((after (exec (.spillAger 0 2) l2)).cloud 0).l2.length = 1 ∧ ((after (exec (.spillAger 0 3) l2)).cloud 0).l3.length = 1) ∧
    (let p := liveCell fun c => { c with store := waiting 1 false, purges := [{ flow := 5, iteration := none }] }
     (cell0 (.purge ⟨0, .good⟩) p).store = [] ∧ (cell0 (.purge ⟨0, .good⟩) p).houseQ.length = 1) ∧
    (after (exec (.purge ⟨0, .good⟩) (scheduled.modCell 0 (fun c => { c with purges := [{ flow := 5, iteration := none }] })))).dsp.reports =
      [.purgeDone 0 { flow := 5, iteration := none }] := by decide +kernel

/-- The first place of the level-2 set of such a token, and of its level-3 bucket. -/
def place2 : Nat := (tok 1 0).spillIndex % live.l2Sets 0 * 7
def place3 : Nat := (l3Places (tok 1 0).spillIndex).headD 0

/-- A late token at level 2 or 3 of cloud 0, of flow 5 with a late policy. -/
def lateAt (level3 : Bool) (policy : Nat) : State :=
  let e : Table Entry := [(place2, { tok := { tok 1 9 with stamp := 1 }, latch := false, past := true })]
  (live.modCloud 0 (fun c => { c with l2 := if level3 then [] else e, l3 := if level3 then e else [] })).setFlowW 5 0
    (BitVec.ofNat 32 (policy * 32))

/-- Witnesses of the spill ager's late entries of StoresAreSweptAgedAndPurged: kept, dropped and counted, and reported. -/
theorem witness_spill_ager_late : ∀ b ∈ [true, false],
    let k (p : Nat) := (after (exec (.spillAger 0 (if b then 3 else 2)) (lateAt b p))).cloud 0
    ((lateAt b 1).flowPolicy 5 = 1 ∧ (lateAt b 1).homeIn 0 0 = some 0 ∧ (lateAt b 2).flowPolicy 5 = 2) ∧
    (k 0).l2.length + (k 0).l3.length = 1 ∧ (k 1).l2.length + (k 1).l3.length = 0 ∧ (k 2).l2.length + (k 2).l3.length = 0 ∧
    ((after (exec (.spillAger 0 (if b then 3 else 2)) (lateAt b 1))).cell 0).lateDrops = 1 ∧
    (after (exec (.spillAger 0 (if b then 3 else 2)) (lateAt b 2))).flt.inQ.map (fun r => r.source) = [srcTokenLate] := by
  decide +kernel

/-- A cell with a LIVE frame of flow 5, and one firing in the ready queue and in the prefetch slot. -/
def firing (ready pre : List Activation) : State :=
  liveCell fun c => { c with dir := [dir5 .live 0], readyQ := ready, prefetch := pre.head? }

/-- Witnesses of the start clause of StrandsStartYieldAndResume, from the ready queue and from the prefetch slot. -/
theorem witness_strand_start :
    ((firing [monoAct (tok 0 7)] []).cell 0).freeSlot = some 0 ∧
    (firing [monoAct (tok 0 7)] []).bestStart 0 = some (.ready 0 (monoAct (tok 0 7))) ∧
    (firing [] [monoAct (tok 0 7)]).bestStart 0 = some (.prefetch (monoAct (tok 0 7))) ∧
    ((dir5 .live 0).freeArea = some 0 ∧ ((firing [] []).cell 0).parcel 3 = 0) ∧
    (((cell0 (.strandStart 0) (firing [monoAct (tok 0 7)] [])).strand 0).map (fun u => (u.pc, u.b)) = some (3, 16)) ∧
    (cell0 (.strandStart 0) (firing [] [monoAct (tok 0 7)])).word 16 = 7 := by decide +kernel

/-- Eight strands of flow 6, and an urgent firing of flow 5. -/
def fullSlots : State :=
  (firing [{ monoAct (tok 0 7) with cls := 0 }] []).modCell 0 (fun c => { c with
    slots := (upTo 8).map (fun i => (i, { strand0 with uid := i + 1, flow := 6 })) })

/-- A suspended strand that is the best start. -/
def suspended : State := liveCell fun c => { c with dir := [dir5 .live 1], resume := [strand0] }

/-- Witnesses of the other clauses of StrandsStartYieldAndResume. -/
theorem witness_preemption_resume :
    (fullSlots.bestStart 0).isSome = true ∧ ((fullSlots.cell 0).victimStrand fullSlots.now (fullSlots.cell 0).slots).isSome = true ∧
    (fullSlots.cell 0).listRoom = true ∧ strand0.atPoint = true ∧ (cell0 (.preemption 0) fullSlots).resume.length = 1 ∧
    suspended.bestStart 0 = some (.resume strand0) ∧
    isFence ((suspended.cell 0).fetchWord ((suspended.cell 0).restoreStrand strand0)) = false ∧
    (cell0 (.strandResume 0) suspended).resume = [] ∧
    (let d := jitOf (fun t => { t with wait := .divide 3 1 false }) [0] 0 0
     goesOn (d.cell 0) ({ strand0 with qt := 3, md := 1, wait := .nothing }.advance 2 none) = true ∧
      (strandOf (.divideComplete 0 0) d).qt = 3) := by decide +kernel

/-- A strand that waits for something, with an answer at its cell. -/
def answered (w : Wait) (r : Response) (c0 : Cell → Cell) : State :=
  (jitOf (fun t => { t with wait := w }) [0] 0 0).modCell 0 (fun c => c0 { c with respQ := [r] })

/-- Witnesses of AnswersCompleteWaitingStrands: a signed byte loaded, and a lock granted to a strand and to none. -/
theorem witness_answers :
    (let s := answered (.remote 3) (resp 3 0x80) (fun c => { c with
        tags := [{ tag := 3, head := 0, uid := 1, what := .load 3 1 true, ea := 0x2200000, time := 0 }] })
     goesOn (s.cell 0) (strand0.advance 2 none) = true ∧ (cell0 (.responseArrival 0) s).word 19 = 0xFFFFFF80 ∧
      (strandOf (.responseArrival 0) s).pc = 2) ∧
    (let s := answered (.lock 2 3 0x2200000) (resp 63 (2 * 2 ^ 22)) (fun c => { c with
        waits := [{ waitId := 2, uid := 1, flow := 5, addr := 0x2200000, bank := 0 }] })
     (cell0 (.lockGrant 0) s).held.length = 1 ∧ (strandOf (.lockGrant 0) s).pc = 2 ∧
      (cell0 (.lockGrant 0) (s.modCell 0 (fun c => { c with slots := [] }))).houseQ.length = 1) := by decide +kernel

/-- Witnesses of the other clauses of AnswersCompleteWaitingStrands. -/
theorem witness_grants_boosts_acks :
    (let s := (jitOf (fun t => { t with wait := .iter 3 0 }) [0] 0 0).modCell 0 (fun c => { c with
        inQ := [.grant { header5 with iteration := 1 } 0 none] })
     (strandOf (.iterGrantMessage 0) s).si = 1 ∧ (cell0 (.iterGrantMessage 0) s).word 19 = 1 ∧
      (after (exec (.iterGrantMessage 0) (s.modCell 0 (fun c => { c with slots := [] })))).dsp.reports =
        [.completion 0 5 1, .frameFree 0 5 1]) ∧
    (let s := (jitOf (fun t => { t with wait := .lock 2 3 0x2200000 }) [0] 0 0).modCell 0 (fun c => { c with boostQ := [(5, some 0)] })
     (cell0 (.boostApply 0) s).boost 5 = some 0 ∧ (cell0 (.boostApply 0) s).houseQ.length = 1) ∧
    (let s := (jitOf (fun t => { t with unacked := [1, 2] }) [0] 0 0).modCell 0 (fun c => { c with ackQ := [(0, 1)] })
     (strandOf (.pairAck 0) s).unacked = [2]) := by decide +kernel
/-! ### Jithar -/

/-- The six instructions of chapter 3's example 1, from their words in its table. -/
theorem test_decode_example :
    decodeIns 0x0401C020 = some { op := .sub, rd := 8, rs1 := 1, rs2 := 0 } ∧
    decodeIns 0x8410D024 = some { op := .ldw, rd := 9, rs1 := 33, imm := 16 } ∧
    decodeIns 0x2230C200 = some { op := .mul, rs1 := 8, rs2 := 35 } ∧
    decodeIns 0x2488C024 = some { op := .adds, rd := 9, rs1 := 9, rs2 := 8 } ∧
    decodeIns 0xA405C128 = some { op := .mov, rd := 10, rs1 := 41 } ∧
    decodeIns 0x8410D224 = some { op := .stw, rs1 := 33, rs2 := 9, imm := 16 } := by decide +kernel

/-- SUB w8, w1, w0 of that example, on its operands (error 250). -/
theorem test_example_sub : let s := liveCell fun c => ({ c with
      dir := [dir5 .live 1], slots := [(0, strand0)], istore := parcels 0 [0x0401C020] }).putWords 16 [18250, 18500]
    (after (exec (.sub 0 0) s)).readReg 0 0 strand0 8 = 0xFA := by decide +kernel

/-- The trap word of chapter 4: cause 6, code 5 at parcel 0x230 (R160). -/
theorem test_trap_word : trapWord .trap false 5 0x230 = 0x08C00506 := by decide +kernel

/-- A witness of the premises of ArithmeticWritesItsDestination: ADD w3, w1, w2 wraps. -/
theorem witness_arithmetic : Issues (jit [0x0420C00C] 0xFFFFFFFF 2) 0 0 .add (ctx0 (jit [0x0420C00C] 0xFFFFFFFF 2)) ∧
    Continues ((jit [0x0420C00C] 0xFFFFFFFF 2).cell 0)
      ((ctx0 (jit [0x0420C00C] 0xFFFFFFFF 2)).t.advance (ctx0 (jit [0x0420C00C] 0xFFFFFFFF 2)).ins.len none) ∧
    (ctx0 (jit [0x0420C00C] 0xFFFFFFFF 2)).t.rep = false ∧ (ctx0 (jit [0x0420C00C] 0xFFFFFFFF 2)).ins.rd = 3 ∧
    w3 (.add 0 0) (jit [0x0420C00C] 0xFFFFFFFF 2) = (1, 2) :=
  ⟨issues_ok _ _ (by decide +kernel), goesOn_ok _ _ (by decide +kernel), by decide +kernel, by decide +kernel, by decide +kernel⟩

/-- A global written by ADD g2, w1, w2: its own strand sees the sum, another strand the value before (R94), of
ArithmeticWritesItsDestination. -/
theorem witness_global :
    let s := jit [0x0420C088] 3 4
    let t := after (exec (.add 0 0) s)
    issues s .add = true ∧ (ctx0 s).ins.rd = 34 ∧ (s.cell 0).lately = [] ∧ t.readReg 0 0 strand0 34 = 7 ∧
      t.readReg 0 1 { strand0 with uid := 2 } 34 = 0 ∧ (t.cell 0).lately.map (fun w => (w.reg, w.uid)) = [(2, 1)] := by
  decide +kernel

/-- A destination word that was poisoned is poisoned no more, of ArithmeticWritesItsDestination. -/
theorem witness_poison_cleared :
    let s := jit [0x0420C00C] 3 4
    let s := { s with mem := { s.mem with poison := [(framePoison 0, strand0.windowWord 3)] } }
    issues s .add = true ∧ (after (exec (.add 0 0) s)).mem.poison = [] := by decide +kernel

/-- R-format arithmetic on w1 and w2 into w3, one word for each fn of majors 0 and 1 (R102): values by hand from R103 and
R104. -/
theorem test_arithmetic_r :
    w3 (.sub 0 0) (jit [0x0421C00C] 1 2) = (0xFFFFFFFF, 2) ∧ w3 (.and 0 0) (jit [0x0422C00C] 12 10) = (8, 2) ∧
    w3 (.or 0 0) (jit [0x0423C00C] 12 10) = (14, 2) ∧ w3 (.xor 0 0) (jit [0x0424C00C] 12 10) = (6, 2) ∧
    w3 (.shl 0 0) (jit [0x0425C00C] 1 63) = (0, 2) ∧ w3 (.shr 0 0) (jit [0x0426C00C] 0x80000000 31) = (1, 2) ∧
    w3 (.sar 0 0) (jit [0x0427C00C] 0x80000000 63) = (0xFFFFFFFF, 2) ∧
    w3 (.adds 0 0) (jit [0x0428C00C] 0x7FFFFFFF 1) = (0x7FFFFFFF, 2) ∧
    w3 (.subs 0 0) (jit [0x0429C00C] 0x80000000 1) = (0x80000000, 2) ∧
    w3 (.slt 0 0) (jit [0x042AC00C] 0xFFFFFFFF 1) = (1, 2) ∧ w3 (.sltu 0 0) (jit [0x042BC00C] 0xFFFFFFFF 1) = (0, 2) ∧
    w3 (.min 0 0) (jit [0x042CC00C] 0xFFFFFFFF 1) = (0xFFFFFFFF, 2) ∧ w3 (.max 0 0) (jit [0x042DC00C] 0xFFFFFFFF 1) = (1, 2) ∧
    w3 (.minu 0 0) (jit [0x042EC00C] 0xFFFFFFFF 1) = (1, 2) ∧ w3 (.maxu 0 0) (jit [0x042FC00C] 0xFFFFFFFF 1) = (0xFFFFFFFF, 2) := by
  decide +kernel

/-- Unary operations and rotations, major 1. -/
theorem test_arithmetic_unary :
    w3 (.abs 0 0) (jit [0x0400C10C] 0x80000000 0) = (0x80000000, 2) ∧ w3 (.abss 0 0) (jit [0x0401C10C] 0x80000000 0) = (0x7FFFFFFF, 2) ∧
    w3 (.neg 0 0) (jit [0x0402C10C] 1 0) = (0xFFFFFFFF, 2) ∧ w3 (.not 0 0) (jit [0x0403C10C] 0xF 0) = (0xFFFFFFF0, 2) ∧
    w3 (.clz 0 0) (jit [0x0404C10C] 0 0) = (32, 2) ∧ w3 (.clz 0 0) (jit [0x0404C10C] 1 0) = (31, 2) ∧
    w3 (.mov 0 0) (jit [0x0405C10C] 9 0) = (9, 2) ∧ w3 (.sextb 0 0) (jit [0x0406C10C] 0x180 0) = (0xFFFFFF80, 2) ∧
    w3 (.sexth 0 0) (jit [0x0407C10C] 0x18000 0) = (0xFFFF8000, 2) ∧ w3 (.zextb 0 0) (jit [0x0408C10C] 0x180 0) = (0x80, 2) ∧
    w3 (.zexth 0 0) (jit [0x0409C10C] 0x18000 0) = (0x8000, 2) ∧ w3 (.rol 0 0) (jit [0x042AC10C] 0x80000001 33) = (3, 2) ∧
    w3 (.ror 0 0) (jit [0x042BC10C] 0x80000001 1) = (0xC0000000, 2) := by decide +kernel

/-- Immediate and 16-bit arithmetic, majors 4 to 6 and nibbles 1 to 6 (R101, R102). -/
theorem test_arithmetic_immediate :
    w3 (.addi 0 0) (jit [0x07FFC40C] 1 0) = (0, 2) ∧ w3 (.andi 0 0) (jit [0x07FFC40D] 0xFFFFFFFF 0) = (0x3FF, 2) ∧
    w3 (.ori 0 0) (jit [0x0401C40E] 2 0) = (3, 2) ∧ w3 (.xori 0 0) (jit [0x0403C40F] 1 0) = (2, 2) ∧
    w3 (.shli 0 0) (jit [0x0404C50C] 1 0) = (16, 2) ∧ w3 (.shri 0 0) (jit [0x0404C50D] 16 0) = (1, 2) ∧
    w3 (.sari 0 0) (jit [0x043FC50E] 0x80000000 0) = (0xFFFFFFFF, 2) ∧ w3 (.slti 0 0) (jit [0x07FFC50F] 0xFFFFFFFE 0) = (1, 2) ∧
    w3 (.movi 0 0) (jit [0x8000C60C] 0 0) = (0xFFFF8000, 2) ∧ w3 (.movhi 0 0) (jit [0x8000C60D] 0 0) = (0x80000000, 2) ∧
    w3 (.movS 0 0) (jit [0x1310] 7 0) = (7, 1) ∧ w3 (.moviS 0 0) (jit [0x230F] 0 0) = (15, 1) ∧
    w3 (.addS 0 0) (jit [0x3312] 7 8) = (15, 1) ∧ w3 (.subS 0 0) (jit [0x4312] 7 8) = (0xFFFFFFFF, 1) ∧
    w3 (.addiS 0 0) (jit [0x531F] 1 0) = (16, 1) ∧ w3 (.subiS 0 0) (jit [0x631F] 1 0) = (0xFFFFFFF2, 1) := by decide +kernel

/-- Witnesses of MultipliesDividesAndRepeats. -/
theorem witness_multiply :
    issues (jit [0x0420C200] 0xFFFFFFFF 2) .mul = true ∧
    goesOn ((jit [0x0420C200] 0xFFFFFFFF 2).cell 0) (strandOf (.mul 0 0) (jit [0x0420C200] 0xFFFFFFFF 2)) = true ∧
    (strandOf (.mul 0 0) (jit [0x0420C200] 0xFFFFFFFF 2)).mulPend = some 0xFFFFFFFFFFFFFFFE ∧
    (strandOf (.mulu 0 0) (jit [0x0421C200] 0xFFFFFFFF 2)).mulPend = some 0x1FFFFFFFE ∧
    (strandOf (.macc 0 0) (jitOf (fun t => { t with pl := 5 }) [0x0422C200] 3 2)).mulPend = some 11 ∧
    (strandOf (.maccs 0 0) (jitOf (fun t => { t with mulPend := some 0x7FFFFFFFFFFFFFFF }) [0x0423C200] 3 2)).mulPend =
      some 0x7FFFFFFFFFFFFFFF ∧
    (strandOf (.div 0 0) (jit [0x0424C200] 0xFFFFFFF9 2)).wait = .divide 0xFFFFFFFD 0xFFFFFFFF false ∧
    (strandOf (.divu 0 0) (jit [0x0425C200] 7 0)).wait = .divide 0xFFFFFFFF 7 false := by decide +kernel

/-- Repeats: REP 64 times of ADD with every field stepped, REP from a register, and LIMIT for a count of 0 (R110, R111). -/
theorem witness_repeat :
    issues (jit [0x003FCD01, 0x0420C00C] 0 0) .rep = true ∧ (strandOf (.rep 0 0) (jit [0x003FCD01, 0x0420C00C] 0 0)).rc = 64 ∧
    (strandOf (.rep 0 0) (jit [0x0400CD02, 0x0420C00C] 3 0)).rc = 3 ∧
    (strandOf (.repu 0 0) (jit [0x0001CD03, 0x0420C00C] 0 0)).repu = true ∧ issues (jit [0x0400CD02, 0x0420C00C] 0 0) .rep = true ∧
    ((after (exec (.rep 0 0) (jit [0x0400CD02, 0x0420C00C] 0 0))).cell 0).word 4 = 5 ∧
    (let s := jitOf (fun t => { t with rep := true, rc := 1, k := 2 }) [0x0420C00C] 4 5
     issues s .add = true ∧ w3 (.add 0 0) s = (9, 2) ∧ (strandOf (.add 0 0) s).rc = 0 ∧ (strandOf (.add 0 0) s).rep = false) := by
  decide +kernel

/-- Witnesses of the branches of TransfersGoWhereTheyShould, taken with offset -2 and not taken (R102, R109). -/
theorem witness_branches :
    issues (jit [0x07FEC808] 4 4) .beq = true ∧
    (strandOf (.beq 0 0) (jit [0x07FEC808] 4 4)).pc = 0x3FFE ∧ (strandOf (.bne 0 0) (jit [0x07FEC809] 4 4)).pc = 2 ∧
    (strandOf (.blt 0 0) (jit [0x07FEC80A] 0xFFFFFFFF 0)).pc = 0x3FFE ∧ (strandOf (.bge 0 0) (jit [0x07FEC80B] 0xFFFFFFFF 0)).pc = 2 ∧
    (strandOf (.bltu 0 0) (jit [0x07FEC908] 0xFFFFFFFF 0)).pc = 2 ∧ (strandOf (.bgeu 0 0) (jit [0x07FEC909] 0 0)).pc = 0x3FFE ∧
    (strandOf (.beqz 0 0) (jit [0x0010CA04] 0 0)).pc = 16 ∧ (strandOf (.bnez 0 0) (jit [0x0010CA05] 0 0)).pc = 2 ∧
    (strandOf (.bltz 0 0) (jit [0x0010CA06] 0x80000000 0)).pc = 16 ∧ (strandOf (.bgez 0 0) (jit [0x0010CA07] 0 0)).pc = 16 ∧
    (strandOf (.bgtz 0 0) (jit [0x0010CB04] 0 0)).pc = 2 ∧ (strandOf (.blez 0 0) (jit [0x0010CB05] 0 0)).pc = 16 ∧
    (strandOf (.j 0 0) (jit [0xFFFFCB02] 0 0)).pc = 0x3FFF ∧ (strandOf (.beqzS 0 0) (jit [0x71FF] 0 0)).pc = 0x3FFF ∧
    (strandOf (.bnezS 0 0) (jit [0x8102] 1 0)).pc = 2 ∧ (strandOf (.nop 0 0) (jit [0x0100] 0 0)).pc = 1 := by decide +kernel

/-- Witnesses of the other transfers: registers, calls with the smallest and a too large shift, returns, and LIMIT and WINDOW. -/
theorem witness_calls :
    (strandOf (.jr 0 0) (jit [0x0404CC00] 0x3FFF 0)).pc = 0x3FFF ∧ issues (jit [0x0404CC00] 0x4000 0) .jr = true ∧
    ((after (exec (.jr 0 0) (jit [0x0404CC00] 0x4000 0))).cell 0).word 4 = 5 ∧
    (let u := strandOf (.call 0 0) (jit [0x0010CB23] 0 0); (u.pc, u.b, u.lk, u.depth) = (16, 24, 0x20002, 1)) ∧
    (let u := strandOf (.callr 0 0) (jit [0x0485CC00] 16 0); (u.pc, u.b, u.lk, u.depth) = (16, 24, 0x20002, 1)) ∧
    ((after (exec (.call 0 0) (jitOf (fun t => { t with b := 73 }) [0x0010CB23] 0 0))).cell 0).word 4 = 4 ∧
    (let u := strandOf (.ret 0 0) (jitOf (fun t => { t with b := 24, lk := 0x20002, depth := 1 }) [0x0003CC00] 0 0)
     (u.pc, u.b, u.depth) = (2, 16, 0)) ∧
    ((after (exec (.ret 0 0) (jit [0x0003CC00] 0 0))).cell 0).word 4 = 5 ∧
    ((after (exec (.ret 0 0) (jitOf (fun t => { t with lk := 0x20002 }) [0x0003CC00] 0 0))).cell 0).word 4 = 4 ∧
    (strandOf (.fencei 0 0) (jit [0x0007CC00] 0 0)).pc = 2 := by decide +kernel

/-- Witnesses of StrandsEndTrapAndBreak. -/
theorem witness_ends :
    (issues (jit [0x0200] 0 0) .endStrand = true ∧ ((jit [0x0200] 0 0).cell 0).findDir 5 0 = some 0) ∧
    ((after (exec (.endStrand 0 0) (jit [0x0200] 0 0))).cell 0).dir.map (fun e => e.busy) = [0] ∧
    (issues (jit [0x0300] 0 0) .endr = true ∧ (jit [0x0300] 0 0).lidOf 0 = some 0) ∧
    (after (exec (.endr 0 0) (jit [0x0300] 0 0))).dsp.reports = [.completion 0 5 0, .frameFree 0 5 0] ∧
    issues (jit [0x0005CD00] 0 0) .trap = true ∧ ((after (exec (.trap 0 0) (jit [0x0005CD00] 0 0))).cell 0).word 4 = 0x506 ∧
    ((after (exec (.trap 0 0) (jit [0x0005CD00] 0 0))).cell 0).inQ.length = 1 ∧
    (((jit [0] 0 0).cell 0).decodeAt strand0 = none ∧ (jit [0] 0 0).eligible 0 strand0 = true) ∧
    ((after (exec (.undefinedEncoding 0 0) (jit [0] 0 0))).cell 0).word 4 = 1 ∧
    issues (jit [0x0400] 0 0) .brk = true ∧ (jit [0x0400] 0 0).attachedCell 0 = false ∧ (strandOf (.brk 0 0) (jit [0x0400] 0 0)).pc = 1 ∧
    (let s := { jit [0x0400] 0 0 with mode := { live.mode with attached := 1 } }
     (s.partOfCell 0 = some 0 ∧ s.mode.attached.getLsbD 0 = true ∧ (s.cell 0).listRoom = true) ∧
      ((after (exec (.brk 0 0) s)).cell 0).debugList.length = 1 ∧ (after (exec (.brk 0 0) s)).mode.mode = .halt) := by decide +kernel

/-- A dying strand at BRK stops and is not listed, of StrandsEndTrapAndBreak; a word of code that is poisoned is trapped. -/
theorem witness_dying_break :
    (let s := { jitOf (fun t => { t with dying := true }) [0x0400] 0 0 with mode := { live.mode with attached := 1 } }
     issues s .brk = true ∧ s.attachedCell 0 = true ∧ (cell0 (.brk 0 0) s).slots = [] ∧ (cell0 (.brk 0 0) s).debugList = []) ∧
    (jit [0] 0 0).fetchPoison 0 strand0 (wordLen (((jit [0] 0 0).cell 0).fetchWord strand0)) = none ∧
    (let s := { jit [0] 0 0 with mem := { live.mem with poison := [(codePoison 0, 0)] } }
     (s.fetchPoison 0 strand0 1).isSome = true ∧ fld (((after (exec (.undefinedEncoding 0 0) s)).cell 0).word 4) 7 0 ≠ 1) := by
  decide +kernel

/-- The same, with a word at word 200 of the frame store, address 800, and 7 behind it. -/
def mem (ws : List Nat) (b v : Word) : State := (jit ws 800 b).modCell 0 (·.putWords 200 [v, 7])

/-- Witnesses of MemoryInstructionsReachTheirPlace in the frame store: each width and extension, and a misaligned load. -/
theorem witness_frame_accesses :
    issues (mem [0x0400D00C] 0 0) .ldw = true ∧ (ctx0 (mem [0x0400D00C] 0 0)).frameRefusal 4 = none ∧
    w3 (.ldw 0 0) (mem [0x0400D00C] 0 0xFFFF8081) = (0xFFFF8081, 2) ∧ w3 (.ldh 0 0) (mem [0x0400D00D] 0 0xFFFF8081) = (0xFFFF8081, 2) ∧
    w3 (.ldhu 0 0) (mem [0x0400D00E] 0 0xFFFF8081) = (0x8081, 2) ∧ w3 (.ldb 0 0) (mem [0x0400D00F] 0 0xFFFF8081) = (0xFFFFFF81, 2) ∧
    w3 (.ldbu 0 0) (mem [0x0400D10C] 0 0xFFFF8081) = (0x81, 2) ∧
    (after (exec (.ldd 0 0) (mem [0x0400D111] 0 9))).readReg 0 0 strand0 5 = 7 ∧
    ((after (exec (.stw 0 0) (mem [0x0400D208] 9 0))).cell 0).word 200 = 9 ∧
    ((after (exec (.sth 0 0) (mem [0x0402D209] 0x10009 0))).cell 0).word 200 = 0x90000 ∧
    ((after (exec (.stb 0 0) (mem [0x0401D20A] 0x109 0))).cell 0).word 200 = 0x900 ∧
    ((after (exec (.std 0 0) (mem [0x0400D20B] 9 0))).cell 0).word 200 = 9 ∧
    w3 (.swp 0 0) (mem [0x0420D30C] 5 3) = (3, 2) ∧ ((after (exec (.ldw 0 0) (mem [0x0401D00C] 0 0))).cell 0).word 4 = 2 ∧
    ((after (exec (.ldw 0 0) (jit [0x0400D00C] 68 0))).cell 0).word 4 = 3 := by
  decide +kernel

/-- A partition with the every right. -/
def rights (s : State) : State := s.setReg (aMemPright 0) 0xFFFFFFFF

/-- Witnesses of the accesses beyond the frame store, to global memory. -/
theorem witness_far_accesses :
    ((ctx0 (rights (jit [0x0400D00C] 0x2200000 0))).reach 0x2200000 .read 4).isSome = true ∧
    (ctx0 (rights (jit [0x0400D00C] 0x2200000 0))).unackedFull = false ∧ (ctx0 (rights (jit [0x0400D00C] 0x2200000 0))).outputsSpent = false ∧
    (strandOf (.ldw 0 0) (rights (jit [0x0400D00C] 0x2200000 0))).wait = .remote 0 ∧
    (strandOf (.stw 0 0) (rights (jit [0x0400D208] 0x2200000 0))).pc = 2 ∧
    ((after (exec (.stw 0 0) (rights (jit [0x0400D208] 0x2200000 0)))).cell 0).reqQ.length = 1 ∧
    (ctx0 (jit [0x0400D00C] 0xF0000000 0)).reach 0xF0000000 .read 4 = none ∧
    ((after (exec (.ldw 0 0) (jit [0x0400D00C] 0xF0000000 0))).cell 0).word 4 = 3 ∧
    (strandOf (.swp 0 0) (rights (jit [0x0420D30C] 0x2200000 0))).wait = .remote 0 := by decide +kernel

/-- Witnesses of the lock operations and of STI, of MemoryInstructionsReachTheirPlace. -/
theorem witness_locks_and_sti :
    ((ctx0 (rights (jit [0x0401D30C] 0x2200000 0))).reach 0x2200000 .lock 4).isSome = true ∧
    issues (rights (jit [0x0401D30C] 0x2200000 0)) .lck = true ∧ ((rights (jit [0x0401D30C] 0x2200000 0)).cell 0).freeWait = some 0 ∧
    ((after (exec (.lck 0 0) (rights (jit [0x0401D30C] 0x2200000 0)))).cell 0).waits.length = 1 ∧
    (strandOf (.tlck 0 0) (rights (jit [0x0402D30C] 0x2200000 0))).wait = .remote 0 ∧
    (strandOf (.unl 0 0) (rights (jit [0x0403D300] 0x2200000 0))).wait = .remote 0 ∧
    w3 (.tlck 0 0) ((rights (jit [0x0402D30C] 0x2200000 0)).modCell 0 (fun c => { c with held := List.replicate 32 { flow := 0, addr := 0 } })) = (2, 2) ∧
    (rights (jit [] 0 0)).regF (aMemPright 0) 12 12 = 1 ∧ issues (rights (jit [0x0420D400] 0x3FFF 7)) .sti = true ∧
    ((after (exec (.sti 0 0) (rights (jit [0x0420D400] 0x3FFF 7)))).cell 0).parcel 0x3FFF = 7 ∧
    ((after (exec (.stiH 0 0) (rights (jit [0x0421D400] 0x3FFF 7)))).cell 0).parcel 0x3FFF = 0x10007 ∧
    ((after (exec (.stiW 0 0) (rights (jit [0x0422D400] 0x3FFE 0x20007)))).cell 0).parcel 0x3FFF = 2 ∧
    ((after (exec (.stiWh 0 0) (rights (jit [0x0423D400] 0x3FFE 0x20007)))).cell 0).parcel 0x3FFE = 0x10007 := by decide +kernel

/-- STI.W of a whole word of code clears its poison; a half of a poisoned word is refused, of
MemoryInstructionsReachTheirPlace. -/
theorem witness_sti_poison :
    let s (w : Nat) (a : Word) := let s := rights (jit [w] a 0x20007); { s with mem := { s.mem with poison := [(codePoison 0, 0x1FFF)] } }
    (ctx0 (s 0x0422D400 0x3FFE)).codeRefusal true = none ∧ (after (exec (.stiW 0 0) (s 0x0422D400 0x3FFE))).mem.poison = [] ∧
      (ctx0 (s 0x0420D400 0x3FFF)).codeRefusal false ≠ none ∧ ((after (exec (.sti 0 0) (s 0x0420D400 0x3FFF))).cell 0).parcel 0x3FFF = 0 ∧
      (after (exec (.sti 0 0) (s 0x0420D400 0x3FFF))).mem.poison = [(codePoison 0, 0x1FFF)] := by decide +kernel

/-- The tokens in the output queue of cell 0 after a command: value, flow, address and port. -/
def sent (i : Instr) (s : State) : List (List Nat) :=
  ((after (exec i s)).cell 0).outQ.filterMap fun p =>
    match p.cargo with
    | .plain (.token k) => some [k.value.toNat, k.flow.toNat, k.addr.toNat, k.port.toNat]
    | _ => none

/-- The events in the output queue of cell 0 after a command. -/
def raised (i : Instr) (s : State) : List (List Nat) :=
  ((after (exec i s)).cell 0).outQ.filterMap fun p =>
    match p.cargo with
    | .plain (.event n ty tg) => some [n.toNat, ty.toNat, tg.toNat]
    | _ => none

/-- Witnesses of TokensAndEventsLeaveStrands: every send, a condition that fails, a full queue, and the LIMITs. -/
theorem witness_sends :
    issues (jit [0xFFFED804] 9 0) .send = true ∧ (jit [0xFFFED804] 9 0).isPaired 0 = false ∧
    sent (.send 0 0) (jit [0xFFFED804] 9 0) = [[9, 5, 0x3FFF, 2]] ∧ sent (.sendS 0 0) (jit [0x917F] 9 0) = [[9, 5, 0x3FFF, 1]] ∧
    sent (.sendc 0 0) (jit [0x0804D905] 9 1) = [[9, 5, 4, 1]] ∧ sent (.sendc 0 0) (jit [0x0804D905] 9 0) = [] ∧
    sent (.sendcn 0 0) (jit [0x0804DA05] 9 0) = [[9, 5, 4, 1]] := by
  decide +kernel

/-- The same for the far and timed sends and the event, each refused for a field out of its range. -/
theorem witness_far_sends :
    sent (.sendx 0 0) (jit [0x0421DB00] 9 0x0000007) = [[9, 7, 0, 0]] ∧
    ((after (exec (.sendx 0 0) (jit [0x0421DB00] 9 0x10000000))).cell 0).word 4 = 5 ∧
    (sent (.sendt 0 0) (jit [0x0420DB00] 0x00010405 0x10)).length = 1 ∧
    ((after (exec (.sendt 0 0) (jit [0x0420DB00] 0x40 0x10))).cell 0).word 4 = 5 ∧
    raised (.evs 0 0) (jit [0x041FDC00] 4095 0) = [[4095, 31, 0x10000005]] := by
  decide +kernel

/-- Witnesses of ITER and of a full output queue. -/
theorem witness_iter : issues (jit [0x0000DC0D] 0 0) .iter = true ∧ (jit [0x0000DC0D] 0 0).isSched 0 = false ∧
    (after (exec (.iter 0 0) (jit [0x0000DC0D] 0 0))).dsp.iters = [{ lid := 0, flow := 5, iteration := 0 }] ∧
    ((after (exec (.iter 0 0) (jitOf (fun t => { t with atomic := true }) [0x0000DC0D] 0 0))).cell 0).word 4 = 5 ∧
    ((after (exec (.evs 0 0) (jit [0x0400DC00] 4096 0))).cell 0).word 4 = 5 ∧
    (strandOf (.send 0 0) ((jit [0xFFFED804] 9 0).modCell 0 (fun c => { c with
      outQ := List.replicate 16 (cellPacket 0 (0, 0) .t (.plain (.token (tok 0 0)))) }))).pc = 0 := by decide +kernel

/-- A dying strand at ITER stops and asks nothing. -/
theorem test_dying_iter :
    let s := jitOf (fun t => { t with dying := true }) [0x0000DC0D] 0 0
    (cell0 (.iter 0 0) s).slots = [] := by decide +kernel


/-- The statuses and data of the answers in a queue. -/
def replies (l : List Packet) : List (List Nat) :=
  l.filterMap fun p => match p.cargo with
    | .plain (.response r) => some [r.status.toNat, r.data.toNat]
    | _ => none

/-- A request of cell 0. -/
def req (op : Byte) (addr : Word) (data : BitVec 64) : Request :=
  { op, addr, data, body := [], rcloud := 0, rcell := 0, unit := 0, tag := 3, credit := none }

/-- A request at the head of the queue of bank 144, the first of global memory, with no area of the dispatcher. -/
def requested (op : Byte) (addr : Word) (data : BitVec 64) : State := (live.setReg aMemGsys 0).modBank 144 (fun b => { b with queue := [req op addr data] })

/-- The answers of bank 144 after a command. -/
def said (i : Instr) (s : State) : List (List Nat) := replies ((after (exec i s)).bank 144).answers

/-- A token spilled by cell 0, as an entry. -/
def spilled (port : BitVec 2) (value : Word) : Entry := { tok := { tok port value with spilled := true }, latch := false, past := false }

/-- The status of the answer of a message. -/
def status (i : Instr) (s : State) : Byte := (after (exec i s)).mem.reply.1


/-! ### Spill engines and messages to cells -/

/-- A message of cell 0 to its spill engine (R274). -/
def engineMsg (op : Byte) (addr : Word) (data : BitVec 64) (body : List Byte) : Request :=
  { op, addr, data, body, rcloud := 0, rcell := 0, unit := 2, tag := 3, credit := none }

/-- SPILL of an entry, RECALL of port 1 of flow 5 and parcel 3, FETCH of a set, SWEEP of a latch, a purge of flow 5. -/
def msgSpill (e : Entry) : Request := engineMsg 0x60 (if e.past then 4096 else 0) 0 e.tok.tail
def msgRecall : Request := engineMsg 0x61 0 (BitVec.ofNat 64 (5 + 3 * 2 ^ 28 + 2 ^ 42)) []
def msgFetch (set : Nat) : Request := engineMsg 0x62 (BitVec.ofNat 32 set) 0 []
def msgSweep (t : Token) : Request := engineMsg 0x64 0 0 t.tail
def msgPurge : Request := engineMsg 0x65 0 (BitVec.ofNat 64 (5 + 2 ^ 28)) []

/-- A cloud 0 with a message at the head of its spill engine's queue, and entries at levels 2 and 3. -/
def engine (m : Request) (l2 l3 : Table Entry) : State :=
  live.modCloud 0 (fun k => { k with engineQ := [m], l2, l3 })

/-- What the engine of cloud 0 sends: firings by their two values, tokens by their port and value, and answers by their data. -/
def engineSent (s : State) : List (List Nat) :=
  (s.cloud 0).engineOut.map fun p => match p.cargo with
    | .plain (.preMatched t w1 _ _ _ _) => [0, t.value.toNat, w1.toNat]
    | .plain (.token t) => [1, t.port.toNat, t.value.toNat]
    | .plain (.response r) => [2, r.data.toNat]
    | _ => []

/-- Witnesses of the clause for SPILL of SpillEngineServesItsCells: either pairing, one port, no entry, and a double-bit error. -/
theorem witness_spill : live.engineOn 0 = true ∧
    engineSent (after (exec (.spill ⟨0, .good⟩) (engine (msgSpill (spilled 1 7)) [(place2, spilled 2 4)] []))) = [[0, 7, 4], [2, 0]] ∧
    engineSent (after (exec (.spill ⟨0, .good⟩) (engine (msgSpill (spilled 2 7)) [] [(place3, spilled 1 4)]))) = [[0, 4, 7], [2, 0]] ∧
    ((after (exec (.spill ⟨0, .good⟩) (engine (msgSpill (spilled 1 7)) [(place2, spilled 1 4)] []))).cloud 0).l2.map (fun e => e.2.tok.value) = [4] ∧
    ((after (exec (.spill ⟨0, .good⟩) (engine (msgSpill (spilled 1 7)) [] []))).cloud 0).l2 = [(place2, spilled 1 7)] ∧
    ((after (exec (.spill ⟨0, (.double 0)⟩) (engine (msgSpill (spilled 1 7)) [(place2, spilled 2 4)] []))).cloud 0).l2 =
      [(place2, spilled 1 7)] := by decide +kernel

/-- Witnesses of the clauses for RECALL, FETCH, SWEEP and ENGINE_PURGE. -/
theorem witness_engine_messages :
    engineSent (after (exec (.recall 0) (engine msgRecall [(place2, spilled 1 7)] []))) = [[1, 1, 7], [2, 2]] ∧
    engineSent (after (exec (.recall 0) (engine msgRecall [(place2, spilled 2 7)] []))) = [[1, 2, 7], [2, 1]] ∧
    engineSent (after (exec (.recall 0) (engine msgRecall [] []))) = [[2, 0]] ∧
    engineSent (after (exec (.fetch 0) (engine (msgFetch (setOf 5 0 3)) [] [(place3, spilled 1 7)]))) = [[1, 1, 7], [2, 1]] ∧
    ((after (exec (.fetch 0) (engine (msgFetch (setOf 5 0 3)) [] [(place3, spilled 1 7)]))).cloud 0).l3 = [] ∧
    engineSent (after (exec (.sweep 0) (engine (msgSweep (tok 3 4)) [(place2, spilled 1 7)] []))) = [[0, 7, 4], [2, 1]] ∧
    ((after (exec (.sweep 0) (engine (msgSweep (tok 3 4)) [(place2, spilled 1 7)] []))).cloud 0).l2 = [] ∧
    ((after (exec (.enginePurge 0) (engine msgPurge [(place2, spilled 1 7)] []))).cloud 0).l2 = [] ∧
    engineSent (after (exec (.enginePurge 0) (engine msgPurge [(place2, spilled 1 7)] []))) = [[2, 1]] := by decide +kernel

/-- A purge's answer makes the cell report it complete. -/
theorem witness_purge_answer :
    let s := liveCell fun c => { c with
      respQ := [resp 3 1]
      tags := [{ tag := 3, head := 0, uid := 0, what := .purge { flow := 5, iteration := none }, ea := 0, time := 0 }] }
    s.lidOf 0 = some 0 ∧ (cell0 (.responseArrival 0) s).respQ = [] ∧
      (after (exec (.responseArrival 0) s)).dsp.reports = [.purgeDone 0 { flow := 5, iteration := none }] := by decide +kernel

/-- A token of class N waits. -/
def spillable : Entry := { tok := { tok 1 4 with cls := 2 }, latch := false, past := false }

/-- Witnesses of the clauses for COUNT, FLUSH and EVICT. -/
theorem witness_counts :
    (cell0 (.count 0) ((live.modCloud 0 (fun k => { k with left := [(7, 2)] })).modCell 0 (fun c => { c with spillCnt := [(7, 5)] }))).spills 7 = 3 ∧
    (let s := ((live.setReg (aMemSpillCfg 0) 0x10000).modCloud 0 (fun k => { k with flushAsk := true })).modCell 0 (fun c => { c with store := [(8, spillable)] })
     s.parkLoses 0 = false ∧ s.storesSent 0 = false ∧ s.bucketsFit 0 = true ∧ (s.cell 0).store.any (fun e => e.2.sendable) = true ∧
      (cell0 (.flush 0) s).evictAsk = true) ∧
    (let s := (live.modCloud 0 (fun k => { k with flushAsk := true })).modCell 0 (fun c => { c with store := [(8, spillable)] })
     s.l3On 0 = false ∧ s.parkLoses 0 = true ∧ ((after (exec (.flush 0) s)).cloud 0).wakeAsk = true ∧ (cell0 (.flush 0) s).evictAsk = false) ∧
    (let s := live.modCloud 0 (fun k => { k with flushAsk := true })
     s.storesSent 0 = true ∧ s.l3On 0 = false ∧ ((after (exec (.flush 0) s)).cloud 0).flushed = true) ∧
    (let s := live.modCell 0 (fun c => { c with store := [(8, spillable)], evictAsk := true })
     (cell0 (.evict 0) s).store = [] ∧ (cell0 (.evict 0) s).houseQ.length = 1) := by decide +kernel

/-- A full level-3 bucket ends the park that asked for the flush. -/
theorem witness_flush_full :
    let s := (live.setReg (aMemSpillCfg 0) 0x10000).modCloud 0 (fun k => { k with
      flushAsk := true, l2 := [(place2, spilled 1 7)], l3 := (l3Places (tok 1 0).spillIndex).map (fun i => (i, spilled 1 9)) })
    s.l3On 0 = true ∧ s.bucketsFit 0 = false ∧ ((after (exec (.flush 0) s)).cloud 0).wakeAsk = true := by decide +kernel

/-- A strand at a breakpoint: on the debug list, its record at word 112. -/
def stopped : State := live.modCell 0 (fun c => { c with debugList := [strand0] })

/-- Witnesses of MessagesToCellsAreAnswered: a parked and a fenced cloud, blocks, views, a checker. -/
theorem witness_messages :
    ((after (exec (.viewSlot 0 0) (live.modCloud 0 (fun k => { k with state := .parked })))).cloud 0).state = .waking ∧
    status (.viewSlot 0 0) (live.modCloud 0 (fun k => { k with state := .fenced })) = 0xFF ∧
    after (exec (.viewSlot 0 0) (live.modCloud 0 (fun k => { k with state := .drain }))) = live.modCloud 0 (fun k => { k with state := .drain }) ∧
    (∀ c ∈ [CloudState.off, .test, .fenced], status (.readBlock 0 true 0) (live.modCloud 0 (fun k => { k with state := c })) = 0xFF) ∧
    status (.copyBlock 0 false 0xFFC0 0 (List.replicate 64 7)) live = 0 ∧
    (cell0 (.copyBlock 0 true 0x7FC0 1 (List.replicate 64 7)) live).parcel 0x3FE0 = 0x10707 ∧
    status (.copyBlock 0 true 0x8000 1 (List.replicate 64 7)) live = 0x10 ∧
    status (.readBlock 0 false 0) live = 0 ∧
    status (.readBlock 0 false 0) { live with mem := { live.mem with poison := [(32, 15)] } } = 0x11 ∧
    (after (exec (.readBlock 0 false 0) { live with mem := { live.mem with poison := [(framePoison 0, 15)] } })).regF (aMemCnt 2) 31 0 = 1 ∧
    status (.readBlock 0 true 0) { live with mem := { live.mem with poison := [(codePoison 0, 15)] } } = 0x11 ∧
    (after (exec (.copyBlock 0 true 0 0 (List.replicate 64 7)) { live with mem := { live.mem with poison := [(codePoison 0, 15)] } })).mem.poison = [] ∧
    (after (exec (.readBlock 0 true 0) live)).mem.reply.2.length = 68 ∧
    live.checks 0 = false ∧ (after (exec (.viewSet 0 3 0) live)).mem.reply.2.length = 64 ∧
    status (.viewSet 0 3 1) (after (exec (.viewSet 0 3 0) live)) = 0 ∧ ((after (exec (.viewSet 0 3 0) live)).cell 0).viewStore.length = 8 ∧
    (after (exec (.viewKey 0 5 0 3) (liveCell fun c => { c with store := waiting 1 false }))).mem.reply.2.length = 32 ∧
    (after (exec (.viewSlot 0 0) live)).mem.reply.2.length = 64 ∧ ((after (exec (.viewSlot 0 0) live)).cell 0).viewSlots.length = 8 := by
  decide +kernel

/-- Witnesses of the debugger's clauses of MessagesToCellsAreAnswered, and of the set-up accesses. -/
theorem witness_debug_writes : (live.lidOf 0).bind live.pairOf = none ∧ (stopped.cell 0).stopped? 112 = some strand0 ∧
    (cell0 (.dbgWrite 0 0 112 0x3FFF 9 false) stopped).word 0x3FFF = 9 ∧
    (cell0 (.dbgWrite 0 2 112 0x3FFF 9 true) stopped).parcel 0x3FFF = 0x10009 ∧
    ((cell0 (.dbgWrite 0 1 112 40 9 false) stopped).stopped? 112).isSome = true ∧
    ((cell0 (.dbgWrite 0 1 112 47 9 false) stopped).stopped? 112).isSome = true ∧
    (cell0 (.dbgCtrl 0 112 1) stopped).resume.map (fun u => (u.stepping, u.passBrk)) = [(true, false)] ∧
    (cell0 (.dbgCtrl 0 112 2) stopped).debugList = [] ∧
    (after (exec (.viewSpill 0 0 5 0 3) (engine (msgFetch 0) [(place2, spilled 1 7)] []))).mem.reply.2.length = 32 ∧
    (after (exec (.setupWr (BitVec.ofNat 24 (aCldCtrl 0)) 0xFFFFFFFF) live)).reg (aCldCtrl 0) = 3 ∧
    (after (exec (.setupRd (BitVec.ofNat 24 (aCldCtrl 0))) live)).mem.reply = (0, [0, 0, 0, 0]) ∧
    inSky (aCldSbud 0 0) = true ∧ (regAt (aCldSbud 0 0)).isSome = true ∧ live.variant.absent (aCldSbud 0 0) = false ∧
    status (.setupRd (BitVec.ofNat 24 (aCldSbud 0 0))) live = 0 ∧ status (.setupWr (BitVec.ofNat 24 (aCldSbud 0 0)) 5) live = 0 ∧
    inSky (aCldSbud 0 0 + 1) = true ∧ status (.setupWr (BitVec.ofNat 24 (aCldSbud 0 0 + 1)) 5) live = 0x10 := by decide +kernel

/-- A running module in which cell 1 checks cell 0. -/
def pairedLive : State := live.setReg (aPairPair 0 0) 0x80010000

/-- A checker answers every view and every debugger's write with ACCESS. -/
theorem witness_checker : pairedLive.checks 1 = true ∧ status (.viewSet 1 0 0) pairedLive = 0x10 ∧
    status (.viewKey 1 0 0 0) pairedLive = 0x10 ∧ status (.viewSlot 1 0) pairedLive = 0x10 ∧
    status (.dbgWrite 1 0 0 0 0 false) pairedLive = 0x10 ∧ status (.dbgCtrl 1 0 1) pairedLive = 0x10 := by decide +kernel

/-! ### Banks, locks, semaphores, DRAM and MRAM -/

/-- Bytes 1 to 8 from address 0x1000 of global memory. -/
def filled (s : State) : State := { s with mem := { s.mem with glob := mwrite [] 0x1000 [1, 2, 3, 4, 5, 6, 7, 8] } }

/-- Global memory from 0x1000 after a command. -/
def holds (i : Instr) (s : State) : List Nat := ((after (exec i s)).bankRead 144 0x1000 8).map BitVec.toNat

/-- Witnesses of the accesses of BanksServeLoadsAndStores: every width of the operations, with a frame. -/
theorem witness_banks : (live.bankExists 144 = true ∧ live.bankOn 144 = true) ∧
    ((requested 0 0 0).bank 144).nextRequest 144 = some (1, req 0 0 0) ∧ inBank 144 0x1000 8 = true ∧
    (requested 0 0 0).bankRefuses 144 0x1000 = false ∧ live.bankPoisoned 144 0x1000 8 = false ∧
    said (.bankLoad 144 .good) (filled (requested 0x10 0x1003 0)) = [[0, 4]] ∧
    said (.bankLoad 144 .good) (filled (requested 0x12 0x1000 0)) = [[0, 0x04030201]] ∧
    said (.bankLoad 144 .good) (filled (requested 0x13 0x1000 0)) = [[0, 0x0807060504030201]] ∧
    holds (.bankStore 144 .good) (filled (requested 0x21 0x1002 0xFFFFAAAA)) = [1, 2, 0xAA, 0xAA, 5, 6, 7, 8] ∧
    holds (.setAliasStore 144 .good) (filled (requested 0x30 0x1000 0xF0)) = [0xF1, 2, 3, 4, 5, 6, 7, 8] ∧
    holds (.clearAliasStore 144 .good) (filled (requested 0x38 0x1002 2)) = [1, 2, 1, 4, 5, 6, 7, 8] ∧
    said (.bankSwp 144 .good) (filled (requested 0x40 0x1000 9)) = [[0, 0x04030201]] ∧
    holds (.bankSwp 144 .good) (filled (requested 0x40 0x1000 9)) = [9, 0, 0, 0, 5, 6, 7, 8] ∧
    said (.blockLoad 144 .good) (filled (requested 0x14 0x1000 0)) = [[0, 0]] := by decide +kernel

/-- The refusals: an address outside the bank at its bound, the dispatcher's area, a poisoned word, a strange operation; and a
word store that clears the poison. -/
theorem witness_bank_refusals : inBank 144 0x60000 1 = false ∧
    said (.bankLoad 144 .good) (requested 0x10 0x60000 0) = [[0x10, 0]] ∧
    said (.bankStore 144 .good) ((requested 0x20 0x1000 0).setReg aMemGsys 8) = [[0x10, 0]] ∧
    ((requested 0x20 0x1000 0).setReg aMemGsys 8).bankRefuses 144 0x1000 = true ∧
    (let p := { requested 0x20 0x1000 0 with mem := { (requested 0x20 0x1000 0).mem with poison := [(18, 0x400)] } }
     p.bankPoisoned 144 0x1000 1 = true ∧ said (.bankStore 144 .good) p = [[0x11, 0]]) ∧
    (let p := { requested 0x22 0x1000 5 with mem := { (requested 0x22 0x1000 5).mem with poison := [(18, 0x400)] } }
     said (.bankStore 144 .good) p = [[0, 0]] ∧ (after (exec (.bankStore 144 .good) p)).bankPoisoned 144 0x1000 4 = false) ∧
    bankOp 0x77 = false ∧ said (.bankLoad 144 .good) (requested 0x77 0x1000 0) = [[0x13, 0]] ∧
    (let b := (live.setReg aMemGsys 0).modBank 144 (fun k => { k with queue := [{ req 0x24 0x1000 0 with body := List.replicate 64 7 }] })
     holds (.blockStore 144) b = List.replicate 8 7) := by decide +kernel

/-- An error in a word that an access reads, the first or the second of eight bytes: the answer, the poison and the frame. -/
theorem witness_bank_struck : (Ecc.doubleAt 1).struck = some 1 ∧ bankWords 144 0x1000 8 = [(18, 0x400), (18, 0x401)] ∧
    (after (exec (.bankLoad 144 (.doubleAt 1)) (filled (requested 0x13 0x1000 0)))).poisoned 18 0x401 = true ∧
    said (.bankLoad 144 (.doubleAt 1)) (filled (requested 0x13 0x1000 0)) = [[0x11, 0]] ∧
    holds (.bankSwp 144 .double) (filled (requested 0x40 0x1000 9)) = [1, 2, 3, 4, 5, 6, 7, 8] ∧
    said (.bankStore 144 .double) (filled (requested 0x22 0x1000 5)) = [[0, 0]] := by decide +kernel

/-- The registers whose write by the host is a command take it. -/
theorem witness_host_writes : live.mramStopped = false ∧
    [aDspFcmd, aDspFsel, aLckCmd, aSemHop, aSeqSwap 0, aPrbCfg 31, aCldCtrl 17].all live.hostWrites = true := by decide +kernel

/-- A request at the DRAM controller, and at the MRAM controller. -/
def dramAsked (op : Byte) (addr : Word) (data : BitVec 64) : State := { live with mem := { live.mem with dramQ := [req op addr data] } }
def mramAsked (op : Byte) (addr : Word) (data : BitVec 64) : State := { live with mem := { live.mem with mramQ := [req op addr data] } }

/-- Witnesses of the clauses for DRAM, MRAM and the rolling march of BanksServeLoadsAndStores, at their bounds. -/
theorem witness_root_memories : live.mode.mode ≠ .reset ∧ srcVmonCore ∉ live.flt.level ∧
    (mread (after (exec (.dramAccess .good) (dramAsked 0x22 0x1000 9))).mem.dram 0x1000 4 = [9, 0, 0, 0]) ∧
    replies (after (exec (.dramAccess .good) (dramAsked 0x10 (BitVec.ofNat 32 (live.variant.dramBytes - 1)) 9))).mem.rootAns = [[0, 0]] ∧
    replies (after (exec (.dramAccess .double) (dramAsked 0x10 0 9))).mem.rootAns = [[0x11, 0]] ∧
    live.variant.mramUser = (0x3C0000, 0x40000) ∧
    (mread (after (exec (.mramAccess .good) (mramAsked 0x23 0x3FFFF8 9))).mem.mram 0x3FFFF8 2 = [9, 0]) ∧
    replies (after (exec (.mramAccess .good) (mramAsked 0x20 0x400000 9))).mem.rootAns = [[0x10, 0]] ∧
    replies (after (exec (.mramAccess .good) (mramAsked 0x20 0x3BFFFF 9))).mem.rootAns = [[0x10, 0]] ∧
    replies (after (exec (.mramAccess .double) (mramAsked 0x10 0x3C0000 9))).mem.rootAns = [[0x11, 0]] ∧
    (live.setReg aMarCtrl 1).running = true ∧ (live.setReg aMarCtrl 1).regF aMarCtrl 0 0 = 1 ∧
    tget (fun _ => 0) (after (exec (.rollSegment 0 []) (live.setReg aMarCtrl 1))).mem.marchAt 0 = 1 ∧
    tget (fun _ => 0) (after (exec (.rollSegment 18 []) (live.setReg aMarCtrl 1))).mem.marchAt 18 = 1 := by decide +kernel

/-- A lock held, or left, by flow 5 of a cell. -/
def lockBy (cell : BitVec 8) (held : Bool) (ws : List Waiter) : LockEntry :=
  { addr := 0x1000, held, cell, flow := 5, cls := 1, waiters := ws, boosted := none }

/-- A waiter: flow 6 of cell 1. -/
def waiter : Waiter := { cell := 1, flow := 6, cls := 2, waitId := 3, record := 0, rcloud := 0, rcell := 1 }

/-- A request of cell 0 and flow 5 at bank 144 for the lock at 0x1000, over a lock directory. -/
def lockAsked (op : Byte) (dir : Table LockEntry) : State :=
  (requested op 0x1000 (lockWord 0 5 1 2)).modBank 144 (fun b => { b with dir })

/-- The directory of bank 144 after a command: owner, 1 for held, then the waiting cells and their classes. -/
def dirAfter (i : Instr) (s : State) : List (List Nat) :=
  ((after (exec i s)).bank 144).dir.map fun e =>
    e.2.cell.toNat :: (if e.2.held then 1 else 0) :: e.2.waiters.flatMap fun w => [w.cell.toNat, w.cls.toNat]

/-- Witnesses of acquisition in LocksAndSemaphoresChangeHands: free, full, abandoned, own, and held. -/
theorem witness_lock :
    said (.bankLck 144 .good) (lockAsked 0x50 []) = [[0, 0]] ∧ dirAfter (.bankLck 144 .good) (lockAsked 0x50 []) = [[0, 1]] ∧
    said (.bankTlck ⟨144, .good⟩) (lockAsked 0x51 ((upTo 32).map (fun i => (i, { lockBy 1 true [] with addr := i })))) = [[2, 0]] ∧
    said (.bankLck 144 .good) (lockAsked 0x50 [(0, lockBy 1 false [])]) = [[1, 0]] ∧
    said (.bankLck 144 .good) (lockAsked 0x50 [(0, lockBy 0 true [])]) = [[4, 0]] ∧
    said (.bankTlck ⟨144, .good⟩) (lockAsked 0x51 [(0, lockBy 1 true [])]) = [[3, 0]] ∧
    said (.bankLck 144 .good) (lockAsked 0x50 [(0, lockBy 1 true [waiter])]) = [[5, 0]] ∧
    dirAfter (.bankLck 144 .good) (lockAsked 0x50 [(0, lockBy 1 true [waiter])]) = [[1, 1, 0, 1, 1, 2]] ∧
    said (.bankLck 144 .good) (lockAsked 0x50 [(0, lockBy 1 true (List.replicate 64 waiter))]) = [[2, 0]] := by decide +kernel

/-- Witnesses of releases, cancels, reprioritising and a departed owner. -/
theorem witness_unlock :
    said (.bankUnl ⟨144, .good⟩) (lockAsked 0x52 []) = [[0x12, 0]] ∧ said (.bankUnl ⟨144, .good⟩) (lockAsked 0x52 [(0, lockBy 1 true [])]) = [[0x12, 0]] ∧
    dirAfter (.bankUnl ⟨144, .good⟩) (lockAsked 0x52 [(0, lockBy 0 true [])]) = [] ∧
    dirAfter (.releaseAbandoned ⟨144, .good⟩) (lockAsked 0x53 [(0, lockBy 0 true [])]) = [[0, 0]] ∧
    dirAfter (.bankUnl ⟨144, .good⟩) (lockAsked 0x52 [(0, lockBy 0 true [waiter])]) = [[1, 1]] ∧
    dirAfter (.cancelWait ⟨144, .good⟩) (lockAsked 0x54 [(0, lockBy 1 true [{ waiter with cell := 0, flow := 5, waitId := 2 }, waiter])]) =
      [[1, 1, 1, 2]] ∧
    dirAfter (.reprioritiseWaiter ⟨144, .good⟩) (lockAsked 0x55 [(0, lockBy 1 true [{ waiter with cell := 0, flow := 5, waitId := 2 }])]) =
      [[1, 1, 0, 1]] ∧
    dirAfter (.ownerGone ⟨144, .good⟩) (live.modBank 144 (fun b => { b with gone := [1], dir := [(0, lockBy 1 true [])] })) = [[1, 0]] := by
  decide +kernel

/-- An error of a record that a lock operation reads, of the entry and of a waiter's record, is reported with its number and
changes nothing else (R294, R308). -/
theorem test_lock_ecc :
    said (.bankLck 144 (.double true 0)) (lockAsked 0x50 [(0, lockBy 1 true [waiter])]) = [[5, 0]] ∧
    ((after (exec (.bankLck 144 (.double true 0)) (lockAsked 0x50 [(0, lockBy 1 true [waiter])]))).flt.inQ.map
      (fun r => (r.source, r.details.map (fun d => d.syn)))) = [(srcLckDirUe, some 0x4090)] := by decide +kernel

/-- The host's command on the lock at 0x1000. -/
def hostLock (held : Bool) : State :=
  (live.modBank 144 (fun b => { b with dir := [(0, lockBy 1 held [])] })).setReg aLckCaddr 0x2001000

/-- Witnesses of the host's clauses on locks. -/
theorem witness_host_locks : (hostLock true).lockTarget = some (144, 0x1000) ∧
    dirAfter .clearAbandon (hostLock false) = [] ∧ (after (exec .clearAbandon (hostLock true))).regF aLckCmd 9 8 = 1 ∧
    (after (exec .forceRelease (hostLock false))).regF aLckCmd 9 8 = 1 ∧ dirAfter .forceRelease (hostLock true) = [[1, 0]] := by
  decide +kernel

/-- A request at semaphore 63, its count and maximum as given, and the host's right to it as given. -/
def sema (op : Byte) (off count max right : Nat) : State :=
  (({ live with mem := { live.mem with semQ := [req op (BitVec.ofNat 32 (0x300000 + 63 * 16 + off)) 0] } }).setReg (aSemCfg 63)
    (BitVec.ofNat 32 (count + max * 65536))).setReg (aSemRights 7) (BitVec.ofNat 32 (right * 256))

/-- Witnesses of the semaphore clauses: acquired, at zero, read, released, at the maximum; and the host with and without its
right. -/
theorem witness_semaphores :
    replies (after (exec .semaphoreAcquire (sema 0x58 0 2 2 0))).mem.rootAns = [[0, 0x10001]] ∧
    replies (after (exec .semaphoreAcquire (sema 0x58 0 0 2 0))).mem.rootAns = [[0, 0]] ∧
    replies (after (exec .semaphoreAcquire (sema 0x12 8 2 2 0))).mem.rootAns = [[0, 0x20000]] ∧
    (after (exec .semaphoreRelease (sema 0x59 4 1 2 0))).regF (aSemCfg 63) 15 0 = 2 ∧
    ((after (exec .semaphoreRelease (sema 0x59 4 2 2 0))).flt.inQ.map (fun r => r.source) = [srcSemOvf]) ∧
    (after (exec (.hostAcquire 63) (sema 0x58 0 2 2 0))).regF aSemHop 17 16 = 3 ∧
    (after (exec (.hostAcquire 63) (sema 0x58 0 2 2 1))).regF (aSemCfg 63) 15 0 = 1 ∧
    (after (exec (.hostAcquire 63) (sema 0x58 0 0 2 1))).regF aSemHop 17 16 = 2 ∧
    (after (exec (.hostRelease 63) (sema 0x58 0 1 2 1))).regF (aSemCfg 63) 15 0 = 2 ∧
    (after (exec (.hostRelease 63) (sema 0x58 0 2 2 1))).regF aSemHop 17 16 = 2 := by decide +kernel

/-! ### The dispatcher -/

/-- A running module without tracing, in which flow 5 has these words 0 to 2: mode, mask and flags. -/
def flow5 (w0 mask flags : Word) : State := (((live.setReg aDspCtrl 0).setFlowW 5 0 w0).setFlowW 5 1 mask).setFlowW 5 2 flags

/-- The same with an event of the inject ring that sets flag 31. -/
def happening (w0 mask flags : Word) : State :=
  { flow5 w0 mask flags with dsp := { live.dsp with
      events := [(3, [{ flow := 5, flag := 31, value := 9, time := 0, local_ := false }])] } }

/-- Witnesses of the events of DispatcherServesEventsReportsAndCommands: refused, not ready, held, and ready. -/
theorem witness_events : (live.dspOn = true ∧ (happening 0 0 0).eventTurn = true) ∧ (happening 0 0 0).regF aDspCtrl 0 0 = 0 ∧
    (upTo 32).all (fun p => (live.port p).rx = []) = true ∧
    ((happening 0 0 0).nextSource = some 3 ∧ (happening 0 0 0).dsp.inDram = []) ∧
    (after (exec (.dispatchEvent 3) (happening 0 0 0))).flt.inQ.map (fun r => r.source) = [srcDspEvtBad] ∧
    (happening 0x01000001 0x80000001 0).flowFaulted 5 = false ∧ (happening 0x01000001 0x80000001 0).flowReady 5 0x80000000 = false ∧
    (after (exec (.dispatchEvent 3) (happening 0x01000001 0x80000001 0))).flowW 5 2 = 0x80000000 ∧
    ((happening 0x00000001 0x80000001 1).flowReady 5 0x80000001 = true ∧ (happening 0x00000001 0x80000001 1).pendFull 5 = true) ∧
    ((happening 0x00000001 0x80000001 1).holdsFor 3 5 = true ∧ (happening 0x01000001 0x80000001 1).pendFull 5 = false) ∧
    tfind (after (exec (.dispatchEvent 3) (happening 0x00000001 0x80000001 1))).dsp.holding 3 = some 5 ∧
    (after (exec (.dispatchEvent 3) (happening 0x01000001 0x80000001 1))).flowW 5 2 = 0 := by decide +kernel

/-- An event whose flow has no free place: one live activation and no overlap. -/
def crowdedFlow : State := ((happening 0x01000001 0x80000001 1).setFlowW 5 8 1).setFlowW 5 7 1

/-- The clause for a pending activation. -/
theorem witness_pending : crowdedFlow.hasPlace 5 = false ∧
    ((after (exec (.dispatchEvent 3) crowdedFlow)).pend 5).map (fun a => (a.value, a.src)) = [(9, 3)] := by decide +kernel

/-- A report waits. -/
def reported (r : Report) (s : State) : State := { s with dsp := { s.dsp with reports := [r] } }

/-- The dispatcher's credit for a cell's prefetch slot. -/
def slotCredit (lid : BitVec 8) : Credit := { holder := .root, buffer := .prefetch lid.toNat, time := 0, head := 0, access := 4 }

/-- Witnesses of the reports of DispatcherServesEventsReportsAndCommands. -/
theorem witness_report_kinds :
    (after (exec .completionReport (reported (.completion 0 5 0) ((flow5 1 0 0).setFlowW 5 8 1)))).flowF 5 8 15 0 = 0 ∧
    (after (exec .completionReport (reported (.completion 0 5 15) ((flow5 1 0 0).setFlowW 5 8 0x8001)))).flowF 5 8 15 0 = 1 ∧
    (after (exec .completionReport (reported (.completion 0 5 16) ((flow5 1 0 0).setFlowW 5 8 0x8001)))).flowF 5 8 15 0 = 0x8001 ∧
    (live.placeOf 0 = some 0 ∧ live.cellGone 0 = false) ∧
    (cell0 .abortReport (reported (.abort 0 5 0 true) (flow5 1 0 0))).purges = [{ flow := 5, iteration := some 0 }] ∧
    (after (exec .frameFreeReport { reported (.frameFree 0 5 0) (flow5 1 0 0) with dsp := { live.dsp with
      reports := [.frameFree 0 5 0], frames := [{ lid := 0, flow := 5, iteration := 0, granule := 4, len := 1 }] } })).dsp.frames = [] ∧
    (after (exec .prefetchTakenReport { flow5 1 0 0 with dsp := { live.dsp with
      reports := [.prefetchTaken 0], pfFull := [0, 1] } })).dsp.pfFull = [1] ∧
    (let s := { flow5 1 0 0 with
        dsp := { live.dsp with reports := [.prefetchTaken 0], pfFull := [0, 1] }
        jet := { live.jet with credits := [slotCredit 0, slotCredit 1] } }
     (after (exec .prefetchTakenReport s)).jet.credits = [slotCredit 1]) ∧
    (after (exec .purgeComplete { flow5 1 0 0 with dsp := { live.dsp with
      reports := [.purgeDone 0 { flow := 5, iteration := none }]
      purges := [{ purge := { flow := 5, iteration := none }, cells := [0] }] } })).dsp.purges = [] := by decide +kernel

/-- A boost waits, with n others in the table. -/
def boosting (n : Nat) : State :=
  { flow5 1 0 0 with dsp := { live.dsp with
      reports := [.boost 0 5 144 0], boosts := List.replicate n { lid := 1, flow := 5, bank := 144, cls := 1 } } }

/-- The clauses for boosts at the bound of 64, for an unboost, and for ITER requests. -/
theorem witness_boosts :
    (cell0 .boost (boosting 63)).boostQ = [(5, some 0)] ∧ (after (exec .boost (boosting 63))).dsp.boosts.length = 64 ∧
    (after (exec .boost (boosting 64))).flt.inQ.map (fun r => r.source) = [srcBoostFull] ∧
    (after (exec .unboost { flow5 1 0 0 with dsp := { live.dsp with
      reports := [.unboost 1 5 144], boosts := [{ lid := 1, flow := 5, bank := 144, cls := 1 }] } })).dsp.boosts = [] ∧
    (((flow5 1 0 0).setFlowW 5 8 1).setFlowW 5 7 1).hasPlace 5 = false ∧
    ((after (exec .iterRequest { ((flow5 1 0 0).setFlowW 5 8 1).setFlowW 5 7 1 with dsp := { live.dsp with
      iters := [{ lid := 0, flow := 5, iteration := 0 }] } })).iterWaits 5).length = 1 := by decide +kernel

/-- Flow 5 selected, with this staging copy of word 0, on a code group of cell 0. -/
def editing (w0 winWords : Word) (s : State) : State :=
  { (s.setReg aDspFsel 5).setReg (aDspGroup 0 0) 1 with dsp := { s.dsp with
      staging := [w0, 0, 0, 0, 112 + winWords * 65536, 0, 0, 0, 0, 0, 0, 0, 0, 0, 0, 0] } }

/-- Witnesses of the flow commands: a commit in a disable, refused for its shape, its mode, and a busy flow, and accepted. -/
theorem witness_commit :
    (after (exec .flowCommit (editing 0x01000001 32 { flow5 0 0 0 with dsp := { live.dsp with disabling := [5] } }))).regF aDspFcmd 10 8 = 4 ∧
    (editing 0x01000001 31 (flow5 0 0 0)).entryStatus (editing 0x01000001 31 (flow5 0 0 0)).staged = 1 ∧
    (after (exec .flowCommit (editing 0x01000001 31 (flow5 0 0 0)))).regF aDspFcmd 10 8 = 1 ∧
    (after (exec .flowCommit (editing 0x00000001 32 (flow5 0 0 0)))).regF aDspFcmd 10 8 = 3 ∧
    (editing 0x01000003 32 ((flow5 0 0 0).setFlowW 5 8 1)).flowBusy 5 = true ∧
    (after (exec .flowCommit (editing 0x01000003 32 ((flow5 0 0 0).setFlowW 5 8 1)))).regF aDspFcmd 10 8 = 2 ∧
    (editing 0x01000003 96 (flow5 0 0 0)).flowBusy 5 = false ∧
    (after (exec .flowCommit (editing 0x01000003 96 (flow5 0 0 0)))).flowW 5 0 = 0x01000003 := by decide +kernel

/-- Witnesses of the other flow commands. -/
theorem witness_flow_commands :
    (after (exec (.dspFselWrite 0xFFFFF005) (flow5 0x01000001 7 9))).dsp.staging.getD 1 0 = 7 ∧
    (after (exec .disable (editing 0 0 ((flow5 1 7 9).setFlowW 5 8 1)))).flowF 5 0 0 0 = 0 ∧
    (after (exec .disable (editing 0 0 ((flow5 1 7 9).setFlowW 5 8 1)))).dsp.disabling = [5] ∧
    (after (exec .clearFlags (editing 0 0 (flow5 1 7 9)))).flowW 5 2 = 0 ∧
    (after (exec .clearCounts (editing 0 0 ((flow5 1 7 9).setFlowW 5 8 0x05000001)))).flowW 5 8 = 1 := by decide +kernel

/-! ### The Scheduled regime and pairs -/

/-- Partition 0 Scheduled and running, one slot of 100 ns a frame, at a count. -/
def firing0 (count slot : Nat) : State :=
  { scheduled with
    zen := { scheduled.zen with count }
    seq := [(0, { SeqPart.idle with state := .run, slot, nrootA := 1 })] }

/-- The same with a slot table of one entry in cell 0. -/
def tabled (bits : Nat) (count slot : Nat) : State :=
  (firing0 count slot).modCell 0 (fun c => { c with
    dir := [dir5 .live 0], frame := mwrite c.frame (12288 * 4) (leBytes 8 bits) })

/-- The same with a root entry that samples pin 0 for flow 5 of cell 0. -/
def rooted : State := { firing0 0 0 with mem := { live.mem with
    glob := mwrite [] ((firing0 0 0).rootBase 0 false) (leBytes 16 (5 * 2 ^ 32)) } }

/-- An entry of flow 5 that needs no token, and one that needs a monadic token, with a policy and a substitute limit. -/
def entry0 : Nat := 2 ^ 63 + 5 * 2 ^ 32
def entry1 (policy n : Nat) : Nat := entry0 + 2 ^ 30 + policy * 2 ^ 52 + n * 2 ^ 54

/-- Witnesses of the slot clauses of SequencerFollowsItsTables: a sample sent, an entry met, and misses of both kinds. -/
theorem witness_slots : ((firing0 0 0).firing 0 = true ∧ (firing0 0 0).slots 0 = 1) ∧ (firing0 0 0).slotStart 0 0 0 = 0 ∧
    (rooted.slotRoots 0 0 = [5 * 2 ^ 32] ∧ (rooted.tokenRoute 0).isSome = true) ∧
    (after (exec (.seqSlotStart 0) rooted)).jet.rootOut.length = 1 ∧ ((after (exec (.seqSlotStart 0) rooted)).part 0).slot = 1 ∧
    ((tabled entry0 0 0).partOfCell 0 = some 0 ∧ ((tabled entry0 0 0).partition 0).sched = true) ∧
    ((tabled entry0 0 0).cell 0).nextEntry = some entry0 ∧ (tabled entry0 0 0).checks 0 = false ∧
    (cell0 (.slotAdmit 0) (tabled entry0 0 0)).readyQ.length = 1 ∧ (cell0 (.slotAdmit 0) (tabled entry0 0 0)).engine.pos = 1 ∧
    (cell0 (.slotAdmit 0) (tabled (entry1 0 2) 0 0)).readyQ.map (fun a => a.late) = [true] ∧
    (after (exec (.slotAdmit 0) (tabled (entry1 1 0) 0 0))).regF (aSeqMiss 0) 31 0 = 1 ∧
    (cell0 (.slotAdmit 0) (tabled (entry1 1 0) 0 0)).readyQ = [] ∧
    ((after (exec (.slotAdmit 0) (tabled (entry1 0 3) 0 0))).cell 0).readyQ.length = 0 := by decide +kernel

/-- Partition 0 with a staged schedule of generation 1 on generation 0. -/
def stagedPart : State := (firing0 0 0).modPart 0 (fun q => { q with staged := some [1, 0, 0, 0] })

/-- Partition 0 with a swap. -/
def armedPart (w : Swap) : State := (firing0 100 1).modPart 0 (fun q => { q with armed := some w })

/-- Witnesses of the frame clauses of SequencerFollowsItsTables: a boundary, a halt, a handover, arms and cancels at their
bounds. -/
theorem witness_frames_and_swaps :
    (firing0 100 1).nextFrame 0 = 1 ∧ (firing0 100 1).slotStart 0 1 0 = 100 ∧ (firing0 100 1).frameDone 0 = true ∧
    ((after (exec (.frameBoundary 0) (firing0 100 1))).part 0).frame = 1 ∧
    ((after (exec (.frameBoundary 0) ((firing0 100 1).modPart 0 (fun q => { q with haltAsk := true })))).part 0).state = .halted ∧
    (let s := (firing0 100 1).modPart 0 (fun q => { q with haltAsk := true, state := .faulted })
     s.running = true ∧ s.firing 0 = false ∧ ((after (exec (.frameBoundary 0) s)).part 0).state = .faulted ∧
      (after (exec (.frameBoundary 0) s)).mode.halted.getLsbD 0 = true) ∧
    ((after (exec (.frameBoundary 0) (armedPart { handover := true, target := 1, begun := false }))).part 0).bankB = true ∧
    stagedPart.armStatus 0 true 2 = 0 ∧ stagedPart.armStatus 0 false 1 = 5 ∧ (firing0 0 0).armStatus 0 true 2 = 1 ∧
    ((after (exec (.armHandover 0 2) stagedPart)).part 0).armed = some { handover := true, target := 2, begun := false } ∧
    ((after (exec (.armGap 0 2) stagedPart)).part 0).armed = some { handover := false, target := 2, begun := false } ∧
    (after (exec (.cancel 0) stagedPart)).regF (aSeqSwap 0) 15 15 = 1 ∧
    ((after (exec (.cancel 0) (armedPart { handover := true, target := 2, begun := false }))).part 0).armed = none ∧
    (after (exec (.cancel 0) (armedPart { handover := true, target := 1, begun := false }))).regF (aSeqSwap 0) 10 8 = 5 := by
  decide +kernel

/-- A running module in which cell 1 checks cell 0 and the pair is COMPARING. -/
def comparing : State := live.setReg (aPairPair 0 0) 0x80011000

/-- A packet at the root. -/
def packet (cargo : Cargo) : Packet :=
  { dcloud := 0, dcell := 0, vc := .s, cargo, place := .root, inPort := 0, la := 0, errs := [], hdrErrs := [], sender := 0, credit := none }

/-- A pair packet of the pair's main or checker. -/
def pairPacket (kind : PairKind) (checker : Bool) (msg : Option Msg) (word : Word) : PairPacket :=
  { fseq := 1, n := 2, checker, kind, pid := 0, flow := 5, iteration := 0, dcloud := 0, dcell := 0, vc := .s, msg
    mirror := none, word }

/-- A station 0 that has received a packet. -/
def atStation (cargo : Cargo) : State := comparing.modStation 0 (fun x => { x with inQ := [packet cargo] })

/-- A token of cell c at station 0. -/
def pairTok (c : BitVec 8) : State := atStation (.plain (.token { tok 0 7 with cell := c }))

/-- Witnesses of tokens to pairs, of PairsAreFedComparedAndMirrored. -/
theorem witness_pair_tokens : comparing.pairOf 0 = some (0, 0, 0, 1) ∧ (comparing.placeOf 0 = some 0 ∧ comparing.placeOf 1 = some 1) ∧
    (0 < live.variant.stations ∧ comparing.stationsAct = true) ∧ ((pairTok 0).stationTake 0 Packet.isPlainToken).isSome = true ∧
    (after (exec (.pairToken 0) (pairTok 0))).jet.rootOut.length = 2 ∧
    (after (exec (.pairToken 0) (pairTok 1))).flt.inQ.map (fun r => r.source) = [srcPairAddr] ∧
    (after (exec (.pairToken 0) ((pairTok 0).modStation 0 (fun x => { x with fenced := true })))).jet.rootOut = [] := by decide +kernel

/-- A message of the main at the station, with the checker's copy of this value in its window. -/
def copies (value : Word) : State :=
  (atStation (.paired (pairPacket .message false (some (.token (tok 0 7))) 0))).modStation 0 (fun x => { x with
    checkers := [{ packet := pairPacket .message true (some (.token (tok 0 value))) 0, time := 0 }] })

/-- Witnesses of the packets of pairs: a separate pair, a mirror record, the first of two, two equal, two unequal, a broken
comparator. -/
theorem witness_pair_packets : comparing.pairState 0 0 = 1 ∧ comparing.pairAt 0 0 = some (0, 1) ∧
    (let s := atStation (.paired (pairPacket .message false (some (.token (tok 0 7))) 0))
     ((after (exec (.pairPacket 0 .sound) s)).station 0).mains.length = 1 ∧
      ((after (exec (.pairPacket 0 .sound) (s.setReg (aPairPair 0 0) 0x80010000))).cell 0).ackQ = [(1, 2)]) ∧
    (after (exec (.pairPacket 0 .sound) (atStation (.paired (pairPacket .mirror false none 0))))).jet.rootOut.length = 1 ∧
    ((after (exec (.pairPacket 0 .sound) (copies 7))).jet.rootOut.length = 1 ∧ (cell0 (.pairPacket 0 .sound) (copies 7)).ackQ = [(1, 2)]) ∧
    (after (exec (.pairPacket 0 .sound) (copies 8))).regF (aPairPair 0 0) 14 12 = 2 ∧
    ((after (exec (.pairPacket 0 .b) (copies 7))).flt.inQ.map (fun r => r.source) = [srcPairCmp] ∧
      (after (exec (.pairPacket 0 .b) (copies 7))).jet.rootOut = []) ∧
    (after (exec (.pairPacket 0 .a) (copies 7))).flt.inQ.map (fun r => r.source) = [srcPairMismatch, srcPairCmp] := by decide +kernel

/-- Witnesses of a time-out, an answer, trap notices and a debug stop. -/
theorem witness_stations :
    (comparing.pairHalted 0 = false ∧
      (after (exec (.pairWindowTimeout 0 true 0) (copies 7))).flt.inQ.map (fun r => r.source) = [srcPairTimeout]) ∧
    (let s := comparing.modStation 0 (fun x => { x with
        answers := [resp 9 7], tags := [{ tag := 9, time := 0, head := 0, main := req 0x12 0 0, checker := req 0x12 0 0, mainCell := 0, checkCell := 1 }] })
     (after (exec (.stationResponse 0) s)).jet.rootOut.length = 2 ∧ ((after (exec (.stationResponse 0) s)).station 0).tags = []) ∧
    (let s (w : Word) := (atStation (.paired (pairPacket .trapNotice false none w))).modStation 0 (fun x => { x with
        notices := [{ packet := pairPacket .trapNotice true none 6, time := 0 }] })
     ((after (exec (.trapNotice 0) (s 6))).station 0).drops.length = 1 ∧ (after (exec (.trapNotice 0) (s 7))).regF (aPairPair 0 0) 14 12 = 2 ∧
      ((after (exec (.trapNotice 0) ((s 6).modStation 0 (fun x => { x with notices := [] })))).station 0).notices.length = 1) ∧
    ((after (exec (.debugStop 0) (atStation (.paired (pairPacket .debugStop false none 40))))).cell 1).stops = [(1, 40)] ∧
    (let s := (atStation (.paired (pairPacket .debugStop false none 40))).setReg (aPairPair 0 0) 0x80012000
     s.pairState 0 0 = 2 ∧ ((after (exec (.debugStop 0) s)).cell 1).stops = []) := by
  decide +kernel

/-- A debugger's action for a checker. -/
def replay (what : BitVec 3) (rb : BitVec 14) : Replay :=
  { what, rb, target := 0x3FFF, value := 9, head := true, atCount := 0, fseq := 0 }

/-- A mirror record of the first entry with an outcome and operands present. -/
def mirror (outcome present : BitVec 2) : Mirror :=
  { k := 0, tstart := 0, fseq := 3, entry := 0, outcome, present, mcount := 0 }

/-- The checker, cell 1, with a slot table of one entry and a mirror record. -/
def mirrored (bits : Nat) (m : Mirror) : State :=
  comparing.modCell 1 (fun c => { c with
    dir := [dir5 .live 0], frame := mwrite c.frame (12288 * 4) (leBytes 8 bits), mirrorQ := [m] })

/-- Witnesses of the replayed actions and mirror records of PairsAreFedComparedAndMirrored. -/
theorem witness_mirrors :
    ((after (exec (.replayRecord 1) (comparing.modCell 1 (fun c => { c with replayQ := [replay 0 0] })))).cell 1).word 0x3FFF = 9 ∧
    ((after (exec (.replayRecord 1) (comparing.modCell 1 (fun c => { c with replayQ := [replay 2 0] })))).cell 1).parcel 0x3FFF = 0x10009 ∧
    (let s := comparing.modCell 1 (fun c => { c with replayQ := [replay 3 112], debugList := [strand0] })
     (s.cell 1).standsAt (replay 3 112) = true ∧ ((after (exec (.replayRecord 1) s)).cell 1).resume.length = 1) ∧
    (let s := comparing.modCell 1 (fun c => { c with replayQ := [replay 4 112], debugList := [strand0] })
     ((after (exec (.replayRecord 1) s)).cell 1).resume.length = 1) ∧
    ((mirrored 0 (mirror 0 0)).lidOf 1).bind (mirrored 0 (mirror 0 0)).pairOf = some (0, 0, 0, 1) ∧
    (after (exec (.mirrorRecord 1) (mirrored 0 (mirror 0 0)))).flt.inQ.map (fun r => r.source) = [srcPairSeq] ∧
    ((after (exec (.mirrorRecord 1) (mirrored entry0 (mirror 0 0)))).cell 1).readyQ.length = 1 ∧
    ((after (exec (.mirrorRecord 1) (mirrored (entry1 0 0) (mirror 0 1)))).cell 1).mirrorQ.length = 1 ∧
    (after (exec (.checkerOperandTimeout 1) (mirrored (entry1 0 0) (mirror 0 1)))).flt.inQ.map (fun r => r.source) = [srcPairTimeout] := by
  decide +kernel

/-! ### The jetstream, clouds and relocation -/

/-- A packet of cell 0 to a cell of a cloud. -/
def sending (cloud : BitVec 5) (cell : BitVec 4) (vc : Vc) : Packet := cellPacket 0 (cloud, cell) vc (.plain (.token (tok 0 7)))

/-- Cell 0 with a packet at the front of its output and of its request queue. -/
def outgoing (p : Packet) : State := liveCell fun c => { c with outQ := [p], reqQ := [p] }

/-- The same with the credit of cell 1's token queue spent. -/
def spent : State :=
  { outgoing (sending 0 1 .t) with jet := { live.jet with credits := [{ holder := .cell 0, buffer := .tokenQueue 1, time := 0, head := 0, access := 4 }] } }

/-- Witnesses of the launches of PacketsHopUnderCreditAndTimeOut by cells: with a credit, without one, and on channel S. -/
theorem witness_launches : live.mayLaunch 0 (sending 0 1 .t) = true ∧ live.launchBuffer (.cell 0) (sending 0 1 .t) = some (.tokenQueue 1) ∧
    (live.hasCredit (.cell 0) (.tokenQueue 1) = true ∧ spent.hasCredit (.cell 0) (.tokenQueue 1) = false) ∧
    ((sending 0 1 .t).place = .router 0 0 ∧ (sending 0 1 .t).inPort = 0) ∧
    ((live.mapped (sending 0 1 .t)).map live.tokenRoute).all Option.isSome = true ∧
    live.roomFor (sending 0 1 .t) (.router 0 0) 0 = true ∧
    (after (exec (.flitHop .fromCell 0 []) (outgoing (sending 0 1 .t)))).jet.credits.map (fun c => (c.holder, c.buffer, c.time)) =
      [(.cell 0, .tokenQueue 1, 0)] ∧
    (after (exec (.flitHop .fromCell 0 []) (outgoing (sending 0 1 .t)))).jet.flight.map (fun p => p.la) = [1] ∧
    (after (exec (.flitHop .fromCell 0 []) spent)).jet.flight = [] ∧
    live.launchBuffer (.cell 0) (sending 0 1 .s) = none ∧
    (after (exec (.flitHop .request 0 []) (outgoing (sending 0 1 .s)))).jet.flight.length = 1 := by decide +kernel

/-- A packet of channel P from the root to cell 1. -/
def rootPacket (vc : Vc) : Packet :=
  { dcloud := 0, dcell := 1, vc, cargo := .plain (.token (tok 0 7)), place := .root, inPort := 0, la := 0, errs := [], hdrErrs := [], sender := 0x3FF, credit := none }

/-- Witnesses of the launches by banks, the root and the agents of a cloud. -/
theorem witness_agents :
    ((after (exec (.flitHop .answer 144 []) (live.modBank 144 (fun b => { b with answers := [rootPacket .p] })))).jet.flight.length = 1) ∧
    (let s := { live with jet := { live.jet with rootOut := [rootPacket .p, rootPacket .t] } }
     firstFor (fun x y => x.dcloud = y.dcloud && x.dcell = y.dcell) s.jet.rootOut 1 (rootPacket .t) = true ∧ s.heldForSwap (rootPacket .t) = false ∧
      (s.cloud 0).state = .run ∧ (after (exec (.flitHop .fromRoot 1 []) s)).jet.rootOut.length = 1) ∧
    (let s := { live with jet := { live.jet with errOut := [rootPacket .p, rootPacket .p] } }
     (s.jet.errOut.take 0).all (fun q => decide (q.place ≠ (rootPacket .p).place)) = true ∧
      (after (exec (.flitHop .answer 256 []) s)).jet.errOut.length = 1 ∧
      (after (exec (.flitHop .answer 256 []) s)).jet.flight.length = 1) := by decide +kernel

/-- Cloud 0's egress agent with a packet of the token channel for cloud 16, which runs. -/
def leavingCloud : State :=
  (live.modCloud 0 (fun k => { k with egressB := [sending 16 0 .t] })).modCloud 16 (fun k => { k with state := .run })

/-- Cloud 0's ingress agent with a packet for cell 1. -/
def enteringCloud (vc : Vc) : State := live.modCloud 0 (fun k => { k with ingressB := [rootPacket vc] })

/-- Witnesses of the agents of a cloud: an egress with a credit and without, an ingress of Q, of T and of a cloud in DRAIN. -/
theorem witness_cloud_agents :
    (leavingCloud.cloudGone 16 = false ∧ ((sending 16 0 .t).fromEgress 0).la = 0 ∧ leavingCloud.egressReady 0 0 (sending 16 0 .t) = true ∧
      leavingCloud.arbitrate (.level1 0) 0 = some ((sending 16 0 .t).fromEgress 0).pairCode ∧
      ((after (exec (.flitHop (.egress 0) 0 []) leavingCloud)).cloud 0).egressB = []) ∧
    (let s := { leavingCloud with jet := { leavingCloud.jet with
        credits := List.replicate 64 { holder := .egress 0, buffer := .ingress 16 .t, time := 0, head := 0, access := 4 } } }
     s.egressReady 0 0 (sending 16 0 .t) = false ∧ after (exec (.flitHop (.egress 0) 0 []) s) = s) ∧
    ((enteringCloud .q).ingressReady 0 0 (rootPacket .q) = true ∧ (rootPacket .q).needsCredit = false ∧
      (enteringCloud .q).arbitrate (.level1 0) 1 = some ((rootPacket .q).fromIngress 0).pairCode ∧
      ((after (exec (.flitHop (.ingress 0) 0 []) (enteringCloud .q))).cloud 0).forwarded.length = 1) ∧
    ((enteringCloud .t).ingressReady 0 0 (rootPacket .t) = true ∧ (rootPacket .t).needsCredit = true ∧
      (enteringCloud .t).arbitrate (.level1 0) 1 = some ((rootPacket .t).fromIngress 0).pairCode ∧
      (after (exec (.flitHop (.ingress 0) 0 []) (enteringCloud .t))).jet.credits.map (fun c => (c.holder, c.buffer)) =
        [(.ingress 0, .tokenQueue 1)]) ∧
    (let s := (enteringCloud .q).modCloud 0 (fun k => { k with state := .drain })
     s.ingressReady 0 0 (rootPacket .q) = false ∧ after (exec (.flitHop (.ingress 0) 0 []) s) = s) := by decide +kernel

/-- A packet inside the links, at a router with this output. -/
def crossing (p : Packet) : State := { live with jet := { live.jet with flight := [p] } }

/-- A packet of two flits on its way from router 0 to router 1. -/
def twoFlits : Packet := { sending 0 1 .q with la := 1, cargo := .plain (.start header5 (tok 0 7)) }

/-- A packet of cell 0 at router 1 of cloud 0 that leaves to cell 1 of cloud 0. -/
def arriving : Packet := { sending 0 1 .t with place := .router 0 1, la := 0 }

/-- Witnesses of the clauses for packets inside the links: a hop, one corrected bit, a broken head, an arrival and a sink. -/
theorem witness_hops : live.linkOn (.router 0 0) 1 = true ∧ portLeads (.router 0 0) 1 = some (.router 0 1, 2) ∧
    (after (exec (.flitHop .inFlight 0 []) (crossing { sending 0 1 .t with la := 1 }))).jet.flight.map (fun p => (p.place, p.la)) =
      [(.router 0 1, 0)] ∧
    ((sending 0 1 .t).flits = 1 ∧ (match hopCheck 1 with
      | .single _ _ => true
      | _ => false) = true ∧ (match hopCheck 3 with
      | .bad _ _ => true
      | _ => false) = true) ∧
    (after (exec (.flitHop .inFlight 0 [(0, 1)]) ((crossing { sending 0 1 .t with la := 1 }).setReg aJetCtrl 1))).regF (aJetCnt 0) 31 0 = 1 ∧
    (after (exec (.flitHop .inFlight 0 [(0, 3)]) ((crossing { sending 0 1 .t with la := 1 }).setReg aJetCtrl 1))).regF (aJetCnt 1) 31 0 = 1 ∧
    (after (exec (.flitHop .inFlight 0 [(0, 3)]) (crossing { sending 0 1 .t with la := 1 }))).jet.flight = [] ∧
    ((after (exec (.flitHop .inFlight 0 []) (crossing arriving))).cell 1).inQ.length = 1 ∧
    live.sinkReason { rootPacket .t with dcloud := 18 } = some 1 ∧
    (after (exec (.flitHop .inFlight 0 []) (crossing { rootPacket .t with dcloud := 18 }))).flt.inQ.length = 1 := by decide +kernel

/-- A tail that the check refuses is forwarded as zeros, and a prefetch slot's credit comes back. -/
theorem witness_damaged_tail : twoFlits.flits = 2 ∧
    (after (exec (.flitHop .inFlight 0 [(1, 3)]) (crossing twoFlits))).jet.flight.map (fun q => tget (fun _ => 0) q.errs 1) =
      [twoFlits.zeroed 1] ∧
    (let s := { live with
        jet := { live.jet with returns := [slotCredit 1], credits := [slotCredit 1] }
        dsp := { live.dsp with pfFull := [1] } }
     (after (exec (.creditReturn 0) s)).dsp.pfFull = [] ∧ (after (exec (.creditReturn 0) s)).jet.credits = []) := by decide +kernel

/-- A packet at router 0 of cloud 0 on its way to router 1, from an input port. -/
def eastward (vc : Vc) (inPort : Nat) : Packet := { sending 0 1 vc with la := 1, inPort }

/-- The next input buffer of channel T is full of packets that stand there. -/
def jammed : State :=
  { live with jet := { live.jet with
      flight := eastward .t 0 :: List.replicate 4 { eastward .t 0 with place := .router 0 1, inPort := 2, la := 0 } } }

/-- Witnesses of the clauses for packets that stay: a full buffer, and a packet behind another; and the arbiter's turns, with S
first only under a budget (R240, R245). -/
theorem witness_buffers :
    (jammed.headOfBuffer 0 (eastward .t 0) = true ∧ jammed.canCross (eastward .t 0) = false ∧ (eastward .t 0).towards = none ∧
      (portLeads (.router 0 0) 1).isSome = true ∧ after (exec (.flitHop .inFlight 0 []) jammed) = jammed) ∧
    (let s (b : Word) := { live with jet := { live.jet with flight := [eastward .t 0, eastward .s 2] } }.setReg (aCldSbud 0 0) b
     (s 1).arbitrate (.router 0 0) 1 = some 11 ∧ (s 0).arbitrate (.router 0 0) 1 = some 11 ∧
      ((after (exec (.flitHop .inFlight 1 []) (s 1))).arbitrate (.router 0 0) 1 = some 0)) ∧
    (let s := { live with jet := { live.jet with flight := [eastward .t 0, eastward .t 0] } }
     s.headOfBuffer 1 (eastward .t 0) = false ∧ after (exec (.flitHop .inFlight 1 []) s) = s) := by decide +kernel

/-- A flit of a packet towards a logical cell of no partition goes to the sink, each flit with a report (R25). -/
theorem test_sink_each_flit :
    ((after (exec (.flitHop .inFlight 0 []) (crossing { rootPacket .t with
      dcloud := 18, cargo := .plain (.start header5 (tok 0 7)) }))).flt.inQ.map (fun r => r.source)) = [srcJetSink, srcJetSink] := by
  decide +kernel

/-- A pair station's answer that is missing is replaced by status 0xFF. -/
theorem witness_station_timeout :
    let s := live.modStation 0 (fun x => { x with
      tags := [{ tag := 9, time := 0, head := 0, main := req 0x12 0 0, checker := req 0x12 0 0, mainCell := 0, checkCell := 1 }] })
    ((s.station 0).tags.find? (fun o => o.tag = 9)).isSome = true ∧
      ((after (exec (.responseTimeout (.station 0) 9) s)).station 0).answers.map (fun r => (r.status, r.tag)) = [(0xFF, 9)] := by
  decide +kernel

/-- Witnesses of credits, time-outs and probes. -/
theorem witness_jet_timeouts :
    (after (exec (.creditReturn 0) { spent with jet := { spent.jet with returns := spent.jet.credits } })).jet.credits = [] ∧
    (after (exec (.creditTimeout 0) spent)).flt.inQ.map (fun r => r.source) = [srcJetCreditLost] ∧
    (cell0 (.responseTimeout (.cell 0) 3) (liveCell fun c => { c with
      tags := [{ tag := 3, head := 0, uid := 1, what := .store, ea := 0x2200000, time := 0 }] })).respQ.map (fun r => (r.status, r.tag)) = [(0xFF, 3)] ∧
    ((spent.stalled (.cell 0)).isSome = true ∧ (spent.setReg aJetTmo 0x10000).regF aJetTmo 31 16 ≠ 0) ∧
    (after (exec (.stallTimeout (.cell 0)) (spent.setReg aJetTmo 0x10000))).flt.inQ.map (fun r => r.source) = [srcJetStall] ∧
    (let s := (live.setReg (aPrbCnt 31) 9).setReg (aPrbDrop 31) 9
     s.fieldOn = true ∧ (after (exec (.prbCfgWrite 31 1) s)).reg (aPrbCnt 31) = 0 ∧
      (after (exec (.prbCfgWrite 31 0) s)).reg (aPrbCnt 31) = 9) := by decide +kernel

/-- Cloud 0 changed. -/
def liveCloud (f : Cloud → Cloud) : State := live.modCloud 0 f

/-- Cloud 0 after a command. -/
def cloud0 (i : Instr) (s : State) : Cloud := (after (exec i s)).cloud 0

/-- Cloud 0 drained for a cause. -/
def drained (d : DrainCause) : State := liveCloud fun k => { k with state := .drain, cause := some d }

/-- Cloud 0 drained to be powered off, with no logical cell in it. -/
def leaving : State := { drained .off with rep := { live.rep with place := [] } }

/-- Witnesses of CLD_CTRL and of completed drains, of CloudsDrainParkWakeAndPowerUp. -/
theorem witness_drains :
    (cloud0 (.cldCtrlKeepOnWrite 0 1) (liveCloud fun k => { k with state := .off })).cold = true ∧
    (cloud0 (.cldCtrlKeepOnWrite 0 2) (liveCloud fun k => { k with state := .off })).state = .off ∧
    live.fastForced 0 = false ∧ (live.cloud 0).slowAct = false ∧ (cloud0 (.cldCtrlSlowWrite 0 2) live).cause = some (.freq true) ∧
    (drained .move).drainDone 0 = true ∧ (cloud0 (.drainComplete 0) (drained (.freq true))).relock = true ∧
    (let s := { drained .move with rep := { live.rep with phase := .switch, lid := 0, old := 0, sub := 256 } }
     s.switching = true ∧ s.relocating 0 = true ∧ s.refilling 0 = false ∧ (cloud0 (.drainComplete 0) s).drained = true) ∧
    (cloud0 (.drainComplete 0) (drained .move)).state = .run ∧
    (let s := { drained .move with rep := { live.rep with refills := [(2, 3)] } }
     s.rep.refills.filter (fun r => r.2 / 16 = 0) = [(2, 3)] ∧ (after (exec (.drainComplete 0) s)).placeOf 2 = some 3 ∧
      ((after (exec (.drainComplete 0) s)).cell 3).stopped = false) ∧
    (let s := (drained .park).modCloud 0 (fun k => { k with flushed := true })
     s.parkOff 0 = false ∧ s.levelsEmpty 0 = true ∧ (cloud0 (.drainComplete 0) s).state = .parked) ∧
    (cloud0 (.drainComplete 0) ((drained .park).modCloud 0 (fun k => { k with wakeAsk := true }))).state = .run ∧
    (leaving.drainDone 0 = true ∧ leaving.lidsIn 0 = [] ∧ leaving.relocating 0 = false ∧ leaving.refilling 0 = false ∧
      leaving.regF (aCldCtrl 0) 0 0 = 0 ∧ (cloud0 (.drainComplete 0) leaving).state = .off) ∧
    (cloud0 (.drainComplete 0) (drained .off)).state = .run ∧
    (cloud0 (.drainComplete 0) (leaving.setReg (aCldCtrl 0) 1)).state = .run := by decide +kernel

/-- A running module whose JET_CTRL lets clouds park. -/
def parking : State := live.setReg aJetCtrl 2

/-- Witnesses of relocking, parking and waking. -/
theorem witness_wakes :
    (live.wantsSlow 0 = false ∧ live.lidsIn 0 ≠ [] ∧ live.refilling 0 = false) ∧
    (cloud0 (.pllRelockDone 0) ((drained (.freq false)).modCloud 0 (fun k => { k with relock := true, slowAct := true }))).state = .run ∧
    parking.parkable 0 = true ∧ (cloud0 (.parkIdle 0) parking).flushAsk = true ∧ live.parkable 0 = false ∧
    (cloud0 (.wakeComplete 0) (liveCloud fun k => { k with state := .waking })).state = .run ∧
    (cloud0 (.powerUpComplete 0) (liveCloud fun k => { k with state := .waking, cold := true, scratch := [(0, 1)] })).scratch = [] := by
  decide +kernel

/-- A relocation of logical cell 0 from physical cell 0 to the spare cell 256, in a phase. -/
def rolling (phase : RollPhase) (shadow back : Bool) : State :=
  (live.modCloud 16 (fun k => { k with state := .run })).modCell 0 (fun c => { c with globals := [(0, 5)] })
    |> fun s => { s with rep := { live.rep with phase, lid := 0, old := 0, sub := 256, shadow, back } }

/-- The same with both clouds drained for the move. -/
def bothStand (phase : RollPhase) (shadow back : Bool) : State :=
  ((rolling phase shadow back).modCloud 0 (fun k => { k with state := .drain, cause := some .move, drained := true })).modCloud 16
    (fun k => { k with state := .drain, cause := some .move, drained := true })

/-- Witnesses of the start of relocations, of RelocationsGoStepByStep. -/
theorem witness_roll_start :
    (let s := live.setReg aRepCtrl 1
     s.regF aRepCtrl 0 0 = 1 ∧ s.nextRoll false none = some 0 ∧ s.spareCells.head? = some 256 ∧ s.moveAllowed 0 256 = true ∧
      (after (exec .rollStart s)).rep.phase = .drain) ∧
    (let s := { live.setReg aRepCtrl 1 with rep := { live.rep with fenced := (upTo 32).map (256 + ·) } }
     s.spareCells = [] ∧ (after (exec .rollStart s)).flt.inQ.map (fun r => r.source) = [srcRollSkip]) ∧
    (let s := scheduled.setReg aRepCtrl 2
     s.nextRoll true none = some 0 ∧ (after (exec .rollStart s)).flt.inQ.map (fun r => r.source) = [srcRollSkip]) := by decide +kernel

/-- Witnesses of the drain, copy and test phases. -/
theorem witness_roll_phases :
    ((rolling .drain false false).liveCount 0 = 0 ∧ (after (exec .rollDrainDone (rolling .drain false false))).rep.phase = .copy) ∧
    (let s := { rolling .drain false false with dsp := { live.dsp with
        frames := [{ lid := 0, flow := 5, iteration := 0, granule := 4, len := 1 }], drain := [0] } }
     s.liveCount 0 ≠ 0 ∧ (after (exec .rollDrainTimeout s)).rep.phase = .idle) ∧
    ((after (exec .rollCopyDone (rolling .copy false false))).cell 256).globals = [(0, 5)] ∧
    ((after (exec .rollCopyDone (rolling .copy false false))).cloud 16).cause = some .move ∧
    (let s := { (rolling .copy false false) with mem := { (rolling .copy false false).mem with poison := [(codePoison 0, 3)] } }
     (after (exec .rollCopyDone s)).poisoned (codePoison 256) 3 = true ∧
      (after (exec .rollCopyDone s)).poisoned (codePoison 256) 4 = false) ∧
    (after (exec (.rollTestDone true []) (rolling .test false false))).rep.phase = .return_ ∧
    (after (exec (.rollTestDone false []) (rolling .test false false))).rep.failed = [0] ∧
    (after (exec (.rollTestDone false []) (rolling .test false false))).flt.inQ.map (fun r => r.source) =
      [srcBistCell, srcRepRollFail] := by decide +kernel

/-- Witnesses of the moves of RelocationsGoStepByStep. -/
theorem witness_moves : (bothStand .switch false false).moving 0 256 = true ∧
    ((after (exec (.moveEntry 0 256 3) ((bothStand .switch false false).modCell 0 (fun c => { c with store := [(3, spilled 1 7)] })))).cell 256).store =
      [(3, spilled 1 7)] ∧
    ((after (exec (.moveSpill 0 2 6) ((bothStand .switch false false).modCloud 0 (fun k => { k with l2 := [(6, spilled 1 7)] })))).cloud 0).l2 = [] ∧
    ((after (exec (.moveState 0 256 5 0) (bothStand .switch false false))).cell 256).globals = [(0, 5)] ∧
    status (.moveState 0 256 6 0) (bothStand .switch false false) = 0x10 ∧
    (let s := (bothStand .switch false false).modCloud 0 (fun k => { k with l3 := [(place3, spilled 1 7)] })
     ((after (exec (.moveSpill 0 3 place3) s)).cloud 0).l3 = []) ∧
    ((bothStand .switch false false).modCell 256 (fun c => { c with globals := [(0, 5)] })).allMoved 0 256 = true ∧
    (after (exec (.moveDone 0 256) ((bothStand .switch false false).modCell 256 (fun c => { c with globals := [(0, 5)] })))).placeOf 0 = some 256 ∧
    (bothStand .switch false false).allMoved 0 256 = false := by decide +kernel

/-- Witnesses of the shadow swap, at the bound of 16 waits. -/
theorem witness_shadow_swap : (rolling .drain true false).moveAllowed 0 256 = true ∧ ((rolling .drain true false).cell 0).still = true ∧
    (after (exec .quietSpanStart (rolling .drain true false))).rep.phase = .copy ∧
    (let s (waited : Nat) := (rolling .drain true false).modCell 0 (fun c => { c with slots := [(0, strand0)] })
       |> fun s => { s with rep := { s.rep with waited } }
     (after (exec .quietSpanStart (s 14))).rep.waited = 15 ∧ (after (exec .quietSpanStart (s 15))).rep.phase = .idle) ∧
    ((bothStand .copy true false).bothDrained = true ∧ (bothStand .copy true false).inFlightFor 0 0 = false) ∧
    (after (exec .shadowCopyDone (bothStand .copy true false))).placeOf 0 = some 256 := by decide +kernel

/-- A Scheduled pair whose checker stands in cloud 16, so that its main may not move there. -/
theorem witness_move_forbidden :
    (let s := { (scheduled.setReg (aPairPair 0 0) 0x80011000) with rep := { (rolling .drain true false).rep with place := [(0, 1), (1, 258)] } }
     s.moveAllowed 0 256 = false ∧ (after (exec .quietSpanStart s)).rep.phase = .idle) := by decide +kernel

end Sys2Proof.Tests
end

section
namespace Sys2Proof.Machine
open Sys2Proof.Safety

/-! ### The issue of an instruction -/

/-- A strand that issues with nothing in its way has the instruction's own effect (R138). -/
theorem issue_of_issues {s : State} {pcell slot : Nat} {op : Opc} {x : Ctx} (h : Issues s pcell slot op x)
    (effect : Ctx → State) : s.issue pcell slot op effect = .next (State.hasIssued pcell slot (effect x)) := by
  obtain ⟨xs, xp, xl, t, ins, a, b⟩ := x
  obtain ⟨hcell, hslot, ⟨rfl, rfl, rfl⟩, hstrand, ⟨hmay, hwait⟩, ⟨i, hdec, hop, hfetch, hstep⟩, hclean, hright, ha, hb⟩ := h
  dsimp only at hstrand hmay hwait hdec hfetch hstep hclean hright ha hb
  have ht : { t with wait := .nothing } = t := by rw [← hwait]
  unfold State.issue unitOk
  simp only [hcell, hslot, and_self, decide_true, if_true, hstrand, hdec, hop, hmay, ne_eq, not_true_eq_false,
    or_self, if_false, ht, hfetch, hstep, hclean, hright, ← ha, ← hb]

/-- After an issue the cell has its slots' order of issue and the ages of its global writes brought up to date, and
nothing else has changed (R94, R139). -/
theorem State.hasIssued_cell (pcell slot : Nat) (s : State) (q : Nat) :
    ∃ is la, (State.hasIssued pcell slot s).cell q = { s.cell q with issued := is, lately := la } := by
  unfold State.hasIssued
  split
  · exact ⟨_, _, rfl⟩
  · by_cases hq : q = pcell
    · subst hq
      exact ⟨_, _, State.cell_modCell_same ..⟩
    · exact ⟨_, _, State.cell_modCell_other s _ hq⟩

section
variable (pcell slot : Nat) (s : State) (q : Nat)

@[simp] theorem State.hasIssued_slots : ((State.hasIssued pcell slot s).cell q).slots = (s.cell q).slots := by
  obtain ⟨_, _, h⟩ := State.hasIssued_cell pcell slot s q; rw [h]
@[simp] theorem State.hasIssued_frame : ((State.hasIssued pcell slot s).cell q).frame = (s.cell q).frame := by
  obtain ⟨_, _, h⟩ := State.hasIssued_cell pcell slot s q; rw [h]
@[simp] theorem State.hasIssued_globals : ((State.hasIssued pcell slot s).cell q).globals = (s.cell q).globals := by
  obtain ⟨_, _, h⟩ := State.hasIssued_cell pcell slot s q; rw [h]
@[simp] theorem State.hasIssued_dir : ((State.hasIssued pcell slot s).cell q).dir = (s.cell q).dir := by
  obtain ⟨_, _, h⟩ := State.hasIssued_cell pcell slot s q; rw [h]
@[simp] theorem State.hasIssued_inQ : ((State.hasIssued pcell slot s).cell q).inQ = (s.cell q).inQ := by
  obtain ⟨_, _, h⟩ := State.hasIssued_cell pcell slot s q; rw [h]
@[simp] theorem State.hasIssued_trapQ : ((State.hasIssued pcell slot s).cell q).trapQ = (s.cell q).trapQ := by
  obtain ⟨_, _, h⟩ := State.hasIssued_cell pcell slot s q; rw [h]
@[simp] theorem State.hasIssued_houseQ : ((State.hasIssued pcell slot s).cell q).houseQ = (s.cell q).houseQ := by
  obtain ⟨_, _, h⟩ := State.hasIssued_cell pcell slot s q; rw [h]
@[simp] theorem State.hasIssued_debugList :
    ((State.hasIssued pcell slot s).cell q).debugList = (s.cell q).debugList := by
  obtain ⟨_, _, h⟩ := State.hasIssued_cell pcell slot s q; rw [h]
@[simp] theorem State.hasIssued_strand (k : Nat) :
    ((State.hasIssued pcell slot s).cell q).strand k = (s.cell q).strand k := by
  simp [Cell.strand]
@[simp] theorem State.hasIssued_word (w : Nat) : ((State.hasIssued pcell slot s).cell q).word w = (s.cell q).word w := by
  simp [Cell.word]

theorem State.hasIssued_cell_other {q : Nat} (h : q ≠ pcell) : (State.hasIssued pcell slot s).cell q = s.cell q := by
  unfold State.hasIssued
  split
  · rfl
  · exact State.cell_modCell_other s _ h

/-- An issue changes the cells alone. -/
theorem State.hasIssued_rest :
    State.hasIssued pcell slot s = { s with cells := (State.hasIssued pcell slot s).cells } := by
  unfold State.hasIssued
  split <;> rfl

@[simp] theorem State.hasIssued_regs : (State.hasIssued pcell slot s).regs = s.regs := by rw [hasIssued_rest]
@[simp] theorem State.hasIssued_mem : (State.hasIssued pcell slot s).mem = s.mem := by rw [hasIssued_rest]
@[simp] theorem State.hasIssued_mode : (State.hasIssued pcell slot s).mode = s.mode := by rw [hasIssued_rest]
@[simp] theorem State.hasIssued_flt : (State.hasIssued pcell slot s).flt = s.flt := by rw [hasIssued_rest]
@[simp] theorem State.hasIssued_dsp : (State.hasIssued pcell slot s).dsp = s.dsp := by rw [hasIssued_rest]
@[simp] theorem State.hasIssued_part (k : Nat) : (State.hasIssued pcell slot s).part k = s.part k := by
  rw [hasIssued_rest]; rfl

end

/-! ### The strand after its instruction (R106, R111) -/

/-- A pending multiply's value goes to PL and PH, and nothing else of the strand changes (R106). -/
theorem Strand.flushMul_eq (t : Strand) : t.flushMul = { t with
    pl := (t.mulPend.map (BitVec.setWidth 32)).getD t.pl
    ph := (t.mulPend.map (fun v : BitVec 64 => (v >>> 32).setWidth 32)).getD t.ph, mulPend := none } := by
  unfold flushMul
  cases h : t.mulPend with
  | none => cases t; cases h; rfl
  | some v => rfl

theorem Strand.flushMul_of_none {t : Strand} (h : t.mulPend = none) : t.flushMul = t := by simp [flushMul, h]

/-- The strand after an instruction: outside a repeat it goes on after it, or at the target (R109); in a repeat RC counts
down and k up, and it stays at the body until RC comes to 0 (R111). -/
theorem Strand.advance_eq (t : Strand) (len : Nat) (target : Option (BitVec 14)) : t.advance len target = { t with
    executed := t.executed + 1
    rc := if t.rep then t.rc - 1 else t.rc
    k := if t.rep then t.k + 1 else t.k
    rep := t.rep && decide (t.rc ≠ 1)
    repu := if t.rep && decide (t.rc = 1) then false else t.repu
    steps := if t.rep && decide (t.rc = 1) then 0 else t.steps
    pc := if t.rep && decide (t.rc ≠ 1) then t.pc else if t.rep then t.pc + BitVec.ofNat 14 len
      else target.getD (t.pc + BitVec.ofNat 14 len)
    stiWins := if t.rep then t.stiWins else if target.isSome then []
      else t.stiWins.filter (fun w => w.covers (t.pc + BitVec.ofNat 14 len)) } := by
  have hz : t.rc - 1 = 0 ↔ t.rc = 1 := by bv_omega
  unfold advance
  dsimp only
  cases hrep : t.rep with
  | true =>
    rw [if_pos rfl]
    by_cases hrc : t.rc = 1
    · rw [if_pos (hz.2 hrc)]; simp [hrc]
    · rw [if_neg (fun h => hrc (hz.1 h))]; simp [show t.rc ≠ 1#32 from hrc]
  | false => cases target <;> simp

/-! ### The end of an instruction -/

/-- The word that a strand fetches rests on its program counter, its STI windows and the instruction store. -/
theorem Cell.fetchWord_congr {c d : Cell} {t u : Strand} (hc : c.istore = d.istore) (hpc : t.pc = u.pc)
    (hw : t.stiWins = u.stiWins) : c.fetchWord t = d.fetchWord u := by
  simp only [Cell.fetchWord, Cell.parcel, hc, hpc, hw]

/-- A strand goes on as another one that differs in nothing that the end of an instruction looks at. -/
theorem continues_congr {c d : Cell} {t u : Strand} (h : Continues c t) (hc : c.istore = d.istore)
    (hsingle : u.single = t.single) (hdying : u.dying = t.dying) (hstep : u.stepping = t.stepping)
    (hrep : u.rep = t.rep) (hpc : u.pc = t.pc) (hw : u.stiWins = t.stiWins) : Continues d u where
  single := hsingle.trans h.single
  dying := hdying.trans h.dying
  stepping := hstep.trans h.stepping
  noFence := by rw [hrep, ← Cell.fetchWord_congr hc hpc.symm hw.symm]; exact h.noFence

@[simp] theorem Cell.strand_putStrand_same (c : Cell) (slot : Nat) (t : Strand) :
    (c.putStrand slot t).strand slot = some t := tfind_tins_same ..

/-- A strand that stands at no FENCE passes none (R123). -/
theorem State.pass_of_noFence {s : State} {pcell slot : Nat} {t : Strand}
    (hs : (s.cell pcell).strand slot = some t)
    (h : t.rep = true ∨ isFence ((s.cell pcell).fetchWord t) = false) : s.pass pcell slot = s := by
  unfold State.pass
  generalize 8192 = n
  cases n with
  | zero => rfl
  | succ n =>
    have hno : ¬ (¬ t.rep = true ∧ isFence ((s.cell pcell).fetchWord t) = true) := by
      rintro ⟨hrep, hf⟩; rcases h with h | h <;> simp_all
    simp only [State.passFences, hs]
    exact if_neg fun hc => hno ⟨hc.2.1, hc.2.2.1⟩

/-- A strand that goes on stands in its slot as its instruction leaves it. -/
theorem State.settleStrand_of_continues {s : State} {pcell slot : Nat} {c : Cell} {u : Strand} (sent : Bool)
    (h : Continues c u) : s.settleStrand pcell slot u sent = s.modCell pcell (fun c => c.putStrand slot u) := by
  simp [State.settleStrand, h.single, h.dying, h.stepping]

/-- A strand that goes on passes no FENCE, also where the cell has another state but the same instruction store. -/
theorem State.pass_of_continues {s : State} {pcell slot : Nat} {c : Cell} {u : Strand}
    (hs : (s.cell pcell).strand slot = some u) (hc : (s.cell pcell).istore = c.istore) (h : Continues c u) :
    s.pass pcell slot = s := by
  refine State.pass_of_noFence hs ?_
  rw [Cell.fetchWord_congr hc rfl rfl]
  exact h.noFence

theorem State.completeInstr_of_continues {s : State} {pcell slot : Nat} {u : Strand} (sent : Bool)
    (h : Continues (s.cell pcell) u) :
    s.completeInstr pcell slot u sent = s.modCell pcell (fun c => c.putStrand slot u) := by
  rw [State.completeInstr, State.settleStrand_of_continues sent h]
  exact State.pass_of_continues (by simp) (by rw [State.cell_modCell_same]; rfl) h

end Sys2Proof.Machine
end

section
namespace Sys2Proof.Machine
open Sys2Proof.Safety

/-! ### The results of Jithar instructions as numbers (R103 to R105) -/

/-- The low bits of a word are its remainder by a power of two. -/
theorem fld_zero (v : Word) (hi : Nat) : fld v hi 0 = v.toNat % 2 ^ (hi + 1) := by
  simp [fld, bitsOf]

/-- Saturation to 32 bits is the clamp to the signed range (R104). -/
theorem satWord_eq_clamp32 (z : Int) : satWord z = clamp32 z := by
  unfold satWord clamp32
  split
  · rw [show max (-2147483648) (min 2147483647 z) = 2147483647 by omega]; rfl
  · split
    · rw [show max (-2147483648) (min 2147483647 z) = -2147483648 by omega]; rfl
    · rw [show max (-2147483648) (min 2147483647 z) = z by omega]

/-- Saturation to 64 bits is the clamp to the signed range (R105). -/
theorem sat64_eq (z : Int) : sat64 z = BitVec.ofInt 64 (max (-2 ^ 63) (min (2 ^ 63 - 1) z)) := by
  unfold sat64
  split
  · rw [show max (-2 ^ 63) (min (2 ^ 63 - 1) z) = 9223372036854775807 by omega]; rfl
  · split
    · rw [show max (-2 ^ 63) (min (2 ^ 63 - 1) z) = -9223372036854775808 by omega]; rfl
    · rw [show max (-2 ^ 63) (min (2 ^ 63 - 1) z) = z by omega]

theorem shiftLeft_eq_ofNat (a : Word) (n : Nat) : a <<< n = BitVec.ofNat 32 (a.toNat * 2 ^ n) := by
  apply BitVec.eq_of_toNat_eq; simp [Nat.shiftLeft_eq]

theorem ushiftRight_eq_ofNat (a : Word) (n : Nat) : a >>> n = BitVec.ofNat 32 (a.toNat / 2 ^ n) := by
  apply BitVec.eq_of_toNat_eq
  rw [BitVec.toNat_ushiftRight, Nat.shiftRight_eq_div_pow, BitVec.toNat_ofNat,
    Nat.mod_eq_of_lt ((Nat.div_le_self _ _).trans_lt a.isLt)]

theorem sshiftRight_eq_ofInt (a : Word) (n : Nat) : a.sshiftRight n = BitVec.ofInt 32 (a.toInt / 2 ^ n) := by
  rw [← BitVec.ofInt_toInt (x := a.sshiftRight n), BitVec.toInt_sshiftRight, Int.shiftRight_eq_div_pow]
  norm_cast

/-- A word's low part in the place of the zeros that a left shift brings in. -/
theorem shifted_or_eq_add (x y : Nat) {n : Nat} (hn : n ≤ 32) (hy : y < 2 ^ n) :
    x <<< n % 2 ^ 32 ||| y = (x * 2 ^ n + y) % 2 ^ 32 := by
  obtain ⟨m, hm⟩ : ∃ m, m + n = 32 := ⟨32 - n, by omega⟩
  have hx : x % 2 ^ m < 2 ^ m := Nat.mod_lt _ (by positivity)
  have hsplit : x * 2 ^ n % (2 ^ m * 2 ^ n) = x % 2 ^ m * 2 ^ n := Nat.mul_mod_mul_right _ _ _
  have hlt : x % 2 ^ m * 2 ^ n + y < 2 ^ m * 2 ^ n := by nlinarith
  rw [Nat.shiftLeft_eq, ← hm, pow_add, hsplit, Nat.add_mod, hsplit, Nat.mod_eq_of_lt (a := y) (by omega),
    Nat.mod_eq_of_lt hlt, Nat.mul_comm, Nat.two_pow_add_eq_or_of_lt hy]

/-- What a right shift by the rest of the word leaves is below the power of the shift. -/
theorem shiftRight_lt (a : Word) {n : Nat} (hn : n ≤ 32) : a.toNat >>> (32 - n) < 2 ^ n := by
  rw [Nat.shiftRight_eq_div_pow]
  refine Nat.div_lt_of_lt_mul ?_
  rw [← pow_add, Nat.sub_add_cancel hn]
  exact a.isLt

theorem rotateLeft_eq_ofNat (a : Word) {n : Nat} (h : n < 32) :
    a.rotateLeft n = BitVec.ofNat 32 (a.toNat * 2 ^ n + a.toNat / 2 ^ (32 - n)) := by
  apply BitVec.eq_of_toNat_eq
  rw [BitVec.toNat_rotateLeft, Nat.mod_eq_of_lt h, shifted_or_eq_add _ _ h.le (shiftRight_lt a h.le),
    Nat.shiftRight_eq_div_pow, BitVec.toNat_ofNat]

theorem rotateRight_eq_ofNat (a : Word) {n : Nat} (h : n < 32) :
    a.rotateRight n = BitVec.ofNat 32 (a.toNat / 2 ^ n + a.toNat * 2 ^ (32 - n)) := by
  have hlow : a.toNat >>> n < 2 ^ (32 - n) := by
    simpa [Nat.sub_sub_self h.le] using shiftRight_lt a (Nat.sub_le 32 n)
  apply BitVec.eq_of_toNat_eq
  rw [BitVec.toNat_rotateRight, Nat.mod_eq_of_lt h, Nat.or_comm, shifted_or_eq_add _ _ (Nat.sub_le 32 n) hlow,
    Nat.shiftRight_eq_div_pow, BitVec.toNat_ofNat, Nat.add_comm]

theorem flag_slt (a b : Word) : flag (a.slt b) = if a.toInt < b.toInt then 1 else 0 := by
  simp [flag, BitVec.slt]

theorem flag_ult (a b : Word) : flag (a.ult b) = if a.toNat < b.toNat then 1 else 0 := by
  simp [flag, BitVec.ult]

theorem ite_slt_eq_min (a b : Word) : (if b.slt a then b else a) = BitVec.ofInt 32 (min a.toInt b.toInt) := by
  simp only [BitVec.slt, decide_eq_true_eq]
  split
  · rw [min_eq_right (by omega), BitVec.ofInt_toInt]
  · rw [min_eq_left (by omega), BitVec.ofInt_toInt]

theorem ite_slt_eq_max (a b : Word) : (if a.slt b then b else a) = BitVec.ofInt 32 (max a.toInt b.toInt) := by
  simp only [BitVec.slt, decide_eq_true_eq]
  split
  · rw [max_eq_right (by omega), BitVec.ofInt_toInt]
  · rw [max_eq_left (by omega), BitVec.ofInt_toInt]

theorem ite_ult_eq_min (a b : Word) : (if b.ult a then b else a) = BitVec.ofNat 32 (min a.toNat b.toNat) := by
  simp only [BitVec.ult, decide_eq_true_eq]
  split
  · rw [min_eq_right (by omega), BitVec.ofNat_toNat, BitVec.setWidth_eq]
  · rw [min_eq_left (by omega), BitVec.ofNat_toNat, BitVec.setWidth_eq]

theorem ite_ult_eq_max (a b : Word) : (if a.ult b then b else a) = BitVec.ofNat 32 (max a.toNat b.toNat) := by
  simp only [BitVec.ult, decide_eq_true_eq]
  split
  · rw [max_eq_right (by omega), BitVec.ofNat_toNat, BitVec.setWidth_eq]
  · rw [max_eq_left (by omega), BitVec.ofNat_toNat, BitVec.setWidth_eq]

theorem ite_msb_eq_abs (a : Word) : (if a.msb then -a else a) = BitVec.ofInt 32 |a.toInt| := by
  rw [BitVec.msb_eq_toInt]
  simp only [decide_eq_true_eq]
  split
  · rw [abs_of_neg ‹_›, BitVec.ofInt_neg, BitVec.ofInt_toInt]
  · rw [abs_of_nonneg (by omega), BitVec.ofInt_toInt]

/-- The first one bit from the top of a word stands at its logarithm (R104). -/
theorem leadingZeros_eq (a : Word) :
    leadingZeros a = if a = 0 then 32 else BitVec.ofNat 32 (31 - a.toNat.log2) := by
  split
  case isTrue h => subst h; decide
  case isFalse h =>
    have hne : a.toNat ≠ 0 := fun h0 => h (BitVec.eq_of_toNat_eq h0)
    have hlog : a.toNat.log2 < 32 := (Nat.log2_lt hne).2 a.isLt
    have hfound : (upTo 32).find? (fun i => a.getLsbD (31 - i)) = some (31 - a.toNat.log2) := by
      refine List.find?_range_eq_some.2 ⟨?_, List.mem_range.2 (by omega), fun j hj => ?_⟩
      · rw [Nat.sub_sub_self (by omega)]
        exact Nat.testBit_log2 hne
      · have habove : a.toNat < 2 ^ (31 - j) := (Nat.log2_lt hne).1 (by omega)
        simpa [BitVec.getLsbD] using Nat.testBit_lt_two_pow habove
    simp only [leadingZeros, hfound]

theorem setWidth8_eq_and (a : Word) : (a.setWidth 8).setWidth 32 = a &&& 0xFF := by
  apply BitVec.eq_of_toNat_eq
  have hand : a.toNat &&& 255 = a.toNat % 256 := Nat.and_two_pow_sub_one_eq_mod a.toNat 8
  simp [hand]; omega

theorem setWidth16_eq_and (a : Word) : (a.setWidth 16).setWidth 32 = a &&& 0xFFFF := by
  apply BitVec.eq_of_toNat_eq
  have hand : a.toNat &&& 65535 = a.toNat % 65536 := Nat.and_two_pow_sub_one_eq_mod a.toNat 16
  simp [hand]; omega

/-- MOVHI joins the halfwords of two words (R102). -/
theorem shiftLeft_or_low (a b : Word) :
    a <<< 16 ||| (b &&& 0xFFFF) = BitVec.ofNat 32 (a.toNat * 65536 + b.toNat % 65536) := by
  have hand : b.toNat &&& 65535 = b.toNat % 65536 := Nat.and_two_pow_sub_one_eq_mod b.toNat 16
  apply BitVec.eq_of_toNat_eq
  rw [BitVec.toNat_or, BitVec.toNat_shiftLeft, BitVec.toNat_and, show BitVec.toNat (0xFFFF : Word) = 65535 from rfl,
    hand, shifted_or_eq_add _ (b.toNat % 65536) (n := 16) (by omega) (Nat.mod_lt _ (by omega)), BitVec.toNat_ofNat]
  norm_num

/-- The quotient and remainder of DIV, also at the ends of the signed range (R104). -/
theorem divSigned_eq (a b : Word) :
    divSigned a b = (if b = 0 then 0xFFFFFFFF else a.sdiv b, if b = 0 then a else a.srem b) := by
  unfold divSigned
  split
  · rfl
  · refine Prod.ext ?_ ?_
    · exact BitVec.eq_of_toInt_eq (by rw [BitVec.toInt_sdiv, BitVec.toInt_ofInt])
    · dsimp only
      rw [← BitVec.toInt_srem, BitVec.ofInt_toInt]

theorem divUnsigned_eq (a b : Word) :
    divUnsigned a b = (if b = 0 then 0xFFFFFFFF else a / b, if b = 0 then a else a % b) := by
  unfold divUnsigned
  split
  · rfl
  · simp [← BitVec.toNat_udiv, ← BitVec.toNat_umod]

end Sys2Proof.Machine
end

section
namespace Sys2Proof.Machine
open Sys2Proof.Safety

/-! ### Words of the frame store -/

theorem leNat_leBytes (n v : Nat) : leNat (leBytes n v) = v % 256 ^ n := by
  induction n generalizing v with
  | zero => simp [leBytes, leNat, Nat.mod_one]
  | succ n ih =>
    have hmod : v % (256 * 256 ^ n) = v % 256 + 256 * (v / 256 % 256 ^ n) := Nat.mod_mul
    rw [leBytes, leNat, ih, BitVec.toNat_ofNat, pow_succ' 256 n, hmod]

@[simp] theorem length_leBytes (n v : Nat) : (leBytes n v).length = n := by
  induction n generalizing v with
  | zero => rfl
  | succ n ih => simp [leBytes, ih]

/-- Bytes that agree at each place of a range read alike. -/
theorem mread_congr {m k : Memory} {a n : Nat} (h : ∀ c, a ≤ c → c < a + n → mget m c = mget k c) :
    mread m a n = mread k a n := by
  induction n generalizing a with
  | zero => rfl
  | succ n ih =>
    simp only [mread]
    rw [h a (by omega) (by omega), ih fun c h1 h2 => h c (by omega) (by omega)]

theorem mread_mwrite_same (m : Memory) (a : Nat) (bs : List Byte) : mread (mwrite m a bs) a bs.length = bs := by
  induction bs generalizing m a with
  | nil => rfl
  | cons b bs ih =>
    simp only [mwrite, List.length_cons, mread, ih]
    rw [mget_mwrite_outside _ _ _ _ (by omega), mget_mset_same]

theorem mwrite_append (m : Memory) (a : Nat) (bs cs : List Byte) :
    mwrite m a (bs ++ cs) = mwrite (mwrite m a bs) (a + bs.length) cs := by
  induction bs generalizing m a with
  | nil => rfl
  | cons b bs ih =>
    simp only [List.cons_append, mwrite, ih, List.length_cons]
    rw [show a + 1 + bs.length = a + (bs.length + 1) by omega]

@[simp] theorem Cell.word_putWord_same (c : Cell) (w : Nat) (v : Word) : (c.putWord w v).word w = v := by
  have h := mread_mwrite_same c.frame (w * 4) (leBytes 4 v.toNat)
  rw [length_leBytes] at h
  apply BitVec.eq_of_toNat_eq
  simp only [word, putWord, mputWord, mword, h, leNat_leBytes, BitVec.toNat_ofNat]
  have := v.isLt
  omega

theorem Cell.word_putWord_other (c : Cell) {w y : Nat} (v : Word) (h : y ≠ w) : (c.putWord w v).word y = c.word y := by
  have hread : mread (c.putWord w v).frame (y * 4) 4 = mread c.frame (y * 4) 4 :=
    mread_congr fun a h1 h2 => mget_mwrite_outside c.frame (w * 4) a _ (by rw [length_leBytes]; omega)
  simp only [word, mword, hread]

/-- Words written one after the other: the first, then the rest. -/
theorem Cell.putWords_cons (c : Cell) (w : Nat) (v : Word) (vs : List Word) :
    c.putWords w (v :: vs) = (c.putWord w v).putWords (w + 1) vs := by
  simp only [putWords, putWord, mputWord, List.flatMap_cons, mwrite_append, length_leBytes]
  rw [show (w + 1) * 4 = w * 4 + 4 by omega]

@[simp] theorem Cell.putWords_nil (c : Cell) (w : Nat) : c.putWords w [] = c := by cases c; rfl

/-! ### A register written and read back (R89 to R94) -/

/-- A write of a global that was just made is not seen by every strand (R94). -/
theorem GlobalWrite.not_seenByAll (w : GlobalWrite) {now span : Nat} (hage : w.age < 3) (hcycle : w.cycle = now)
    (hspan : 0 < span) : w.seenByAll now span = false := by
  simp only [seenByAll, Bool.or_eq_false_iff, decide_eq_false_iff_not]
  omega

theorem State.cellCycle_pos (s : State) (pcell : Nat) : 0 < s.cellCycle pcell := by
  unfold cellCycle; split <;> omega

/-- A strand reads its own latest write of a global (R94). -/
theorem State.readGlobal_own {s : State} {pcell : Nat} {t : Strand} {w : GlobalWrite}
    (hl : (s.cell pcell).lately.head? = some w) (huid : w.uid = t.uid) :
    s.readGlobal pcell t w.reg = tget (fun _ => 0) (s.cell pcell).globals w.reg := by
  obtain ⟨rest, hl⟩ := List.head?_eq_some_iff.1 hl
  simp [readGlobal, hl, globalUnder, GlobalWrite.seenBy, huid]

/-- It still does once the instruction has issued. -/
theorem State.readGlobal_hasIssued_own {s : State} {pcell slot : Nat} {t : Strand} {w : GlobalWrite}
    (hl : (s.cell pcell).lately.head? = some w) (huid : w.uid = t.uid) (hage : w.age = 0)
    (hcycle : w.cycle = s.zen.cycle) :
    (State.hasIssued pcell slot s).readGlobal pcell t w.reg = tget (fun _ => 0) (s.cell pcell).globals w.reg := by
  obtain ⟨rest, hlist⟩ := List.head?_eq_some_iff.1 hl
  unfold hasIssued
  split
  · exact readGlobal_own hl huid
  · have hkept := GlobalWrite.not_seenByAll { w with age := w.age + 1 } (now := s.zen.cycle)
      (span := s.cellCycle pcell) (by simp [hage]) hcycle (s.cellCycle_pos pcell)
    refine (readGlobal_own (w := { w with age := w.age + 1 }) ?_ huid).trans (by rw [cell_modCell_same])
    rw [cell_modCell_same, hlist, List.map_cons, List.filter_cons_of_pos (by simp [hkept]), List.head?_cons]

section
variable (s : State) (pcell slot : Nat) (t : Strand) (r : Nat) (v : Word)

/-- An instruction's write of a register, with the note of a global's old value (R94): the state and the strand after it. -/
def State.wrote : State × Strand := (s.noteGlobal pcell t r).writeReg pcell t r v

variable {r} in
theorem State.readReg_window (h : r < 32) : s.readReg pcell slot t r = (s.cell pcell).word (t.windowWord r) := by
  unfold readReg
  exact if_pos h

variable {r} in
theorem State.readReg_global (h : 32 ≤ r) (h' : r < 40) :
    s.readReg pcell slot t r = s.readGlobal pcell t (r - 32) := by
  unfold readReg
  exact (if_neg (by omega)).trans (if_pos h')

variable {r} in
theorem State.wrote_window (h : r < 32) : s.wrote pcell t r v =
    ((s.modCell pcell (fun c => c.putWord (t.windowWord r) v)).clearPoison (framePoison pcell) (t.windowWord r), t) := by
  simp only [wrote, writeReg, noteGlobal, if_pos h]
  rw [if_neg (by omega)]

variable {r} in
theorem State.wrote_global (h : 32 ≤ r) (h' : r < 40) : s.wrote pcell t r v =
    ((s.modCell pcell (fun c => { c with lately :=
      { reg := r - 32, old := tget (fun _ => 0) c.globals (r - 32), uid := t.uid, cycle := s.zen.cycle, age := 0 }
        :: c.lately })).modCell pcell (fun c => { c with globals := tset (fun _ => 0) c.globals (r - 32) v }), t) := by
  simp only [wrote, writeReg, noteGlobal, if_neg (show ¬ r < 32 by omega), if_pos h', if_pos (And.intro h h')]

variable {r} in
theorem State.wrote_special (h : 40 ≤ r) : s.wrote pcell t r v = (s, t.writeSpecial r v) := by
  simp only [wrote, writeReg, noteGlobal, if_neg (show ¬ r < 32 by omega), if_neg (show ¬ r < 40 by omega)]
  rw [if_neg (by omega)]

/-- A register is a window word, a global or a special (R89). -/
theorem register_cases (r : Nat) : r < 32 ∨ (32 ≤ r ∧ r < 40) ∨ 40 ≤ r := by omega

/-- A register's write leaves the set-up registers, the instruction store and every other cell alone. -/
theorem State.wrote_rest : (s.wrote pcell t r v).1.regs = s.regs ∧
    ((s.wrote pcell t r v).1.cell pcell).istore = (s.cell pcell).istore ∧
    ∀ q, q ≠ pcell → (s.wrote pcell t r v).1.cell q = s.cell q := by
  have hclear (k : State) (m w q : Nat) : (k.clearPoison m w).cell q = k.cell q := rfl
  obtain h | ⟨h, h'⟩ | h := register_cases r
  · rw [wrote_window s pcell t v h]
    refine ⟨rfl, ?_, fun q hq => ?_⟩
    · rw [hclear, cell_modCell_same]; rfl
    · rw [hclear, cell_modCell_other _ _ hq]
  · rw [wrote_global s pcell t v h h']
    refine ⟨rfl, ?_, fun q hq => ?_⟩
    · rw [cell_modCell_same, cell_modCell_same]
    · rw [cell_modCell_other _ _ hq, cell_modCell_other _ _ hq]
  · rw [wrote_special s pcell t v h]
    exact ⟨rfl, rfl, fun _ _ => rfl⟩

variable {r} in
/-- Of the strand, a write of a register below RC changes LK, PL, PH, QT and MD at most (R90). -/
theorem State.wrote_strand (hr : r < 45) :
    ∃ lk pl ph qt md, (s.wrote pcell t r v).2 = { t with lk, pl, ph, qt, md } := by
  obtain h | ⟨h, h'⟩ | h := register_cases r
  · rw [wrote_window s pcell t v h]; exact ⟨_, _, _, _, _, rfl⟩
  · rw [wrote_global s pcell t v h h']; exact ⟨_, _, _, _, _, rfl⟩
  · rw [wrote_special s pcell t v h]
    obtain rfl | rfl | rfl | rfl | rfl : r = 40 ∨ r = 41 ∨ r = 42 ∨ r = 43 ∨ r = 44 := by omega
    all_goals exact ⟨_, _, _, _, _, rfl⟩

variable {r} in
/-- Once the instruction has issued, the strand reads the value it wrote. -/
theorem State.readReg_wrote (hr : r < 45) {u : Strand} (huid : u.uid = t.uid) (hb : u.b = t.b)
    (hspecial : u.lk = (s.wrote pcell t r v).2.lk ∧ u.pl = (s.wrote pcell t r v).2.pl ∧
      u.ph = (s.wrote pcell t r v).2.ph ∧ u.qt = (s.wrote pcell t r v).2.qt ∧ u.md = (s.wrote pcell t r v).2.md) :
    (State.hasIssued pcell slot ((s.wrote pcell t r v).1.modCell pcell (fun c => c.putStrand slot u))).readReg
      pcell slot u r = v := by
  have hclear (k : State) (m w q : Nat) : (k.clearPoison m w).cell q = k.cell q := rfl
  obtain h | ⟨h, h'⟩ | h := register_cases r
  · have hword : u.windowWord r = t.windowWord r := by rw [Strand.windowWord, hb, Strand.windowWord]
    rw [wrote_window s pcell t v h, readReg_window _ _ _ _ h, hasIssued_word, cell_modCell_same, hclear, cell_modCell_same,
      hword]
    exact Cell.word_putWord_same ..
  · rw [wrote_global s pcell t v h h', readReg_global _ _ _ _ h h']
    refine (readGlobal_hasIssued_own 
      (w := ⟨r - 32, tget (fun _ => 0) (s.cell pcell).globals (r - 32), t.uid, s.zen.cycle, 0⟩) ?_ huid.symm rfl (by simp)).trans ?_
    · simp [Cell.putStrand]
    · simp [Cell.putStrand]
  · rw [wrote_special s pcell t v h] at hspecial ⊢
    obtain ⟨hlk, hpl, hph, hqt, hmd⟩ := hspecial
    obtain rfl | rfl | rfl | rfl | rfl : r = 40 ∨ r = 41 ∨ r = 42 ∨ r = 43 ∨ r = 44 := by omega
    · exact hlk
    · exact hpl
    · exact hph
    · exact hqt
    · exact hmd

end

end Sys2Proof.Machine
end

section
namespace Sys2Proof.Machine
open Sys2Proof.Safety

/-! ### What an instruction's command does to a strand that issues it -/

/-- A command whose meaning is an instruction's effect has that effect on the strand that issues it. -/
theorem exec_of_issues {s : State} {pcell slot : Nat} {op : Opc} {x : Ctx} {c : Instr} {effect : Ctx → State}
    (h : Issues s pcell slot op x) (he : exec c s = s.issue pcell slot op effect) :
    exec c s = .next (State.hasIssued pcell slot (effect x)) := he.trans (issue_of_issues h effect)

/-- A command of the list of Safety.arithmetic writes the value that stands beside it. -/
def Writes (s : State) (pcell slot : Nat) (x : Ctx) (e : Instr × Opc × (Ctx → Word)) : Prop :=
  Issues s pcell slot e.2.1 x → exec e.1 s = .next (State.hasIssued pcell slot (x.write (e.2.2 x)))

section
variable {s : State} {pcell slot : Nat} {x : Ctx}

/-- An instruction that writes a register, with its value in another form. -/
theorem issue_write {op : Opc} {v : Ctx → Word} {w : Word} (hv : v x = w) (h : Issues s pcell slot op x) :
    s.issue pcell slot op (fun x => x.write (v x)) = .next (State.hasIssued pcell slot (x.write w)) := by
  rw [issue_of_issues h, hv]

/-- The instructions that only write a register write the values of Safety.arithmetic (R101 to R104). -/
theorem arithmetic_writes : ∀ e ∈ arithmetic pcell slot, Writes s pcell slot x e := by
  have hlow6 (v : Word) : fld v 5 0 = v.toNat % 64 := fld_zero v 5
  have hlow5 (v : Word) : fld v 4 0 = v.toNat % 32 := fld_zero v 4
  have hmod32 (n : Nat) : n % 32 < 32 := Nat.mod_lt _ (by decide)
  simp only [arithmetic, List.forall_mem_cons]
  unfold Writes exec
  dsimp only [execAdd, execSub, execAddi, execAdds, execSubs, execAnd,
    execOr, execXor, execAndi, execOri, execXori, execNot, execShl, execShr, execSar, execShli, execShri, execSari,
    execRol, execRor, execSlt, execSltu, execSlti, execMin, execMax, execMinu, execMaxu, execAbs, execAbss, execNeg,
    execClz, execMov, execSextb, execSexth, execZextb, execZexth, execMovi, execMovhi, execMovS, execMoviS, execAddS,
    execSubS, execAddiS, execSubiS]
  refine ⟨issue_write rfl, issue_write rfl, issue_write rfl, issue_write (satWord_eq_clamp32 _),
    issue_write (satWord_eq_clamp32 _), issue_write rfl, issue_write rfl, issue_write rfl,
    issue_write rfl, issue_write rfl, issue_write rfl, issue_write rfl,
    issue_write ((shiftLeft_eq_ofNat _ _).trans (by rw [hlow6])),
    issue_write ((ushiftRight_eq_ofNat _ _).trans (by rw [hlow6])),
    issue_write ((sshiftRight_eq_ofInt _ _).trans (by rw [hlow6])),
    issue_write ((shiftLeft_eq_ofNat _ _).trans (by rw [hlow6])),
    issue_write ((ushiftRight_eq_ofNat _ _).trans (by rw [hlow6])),
    issue_write ((sshiftRight_eq_ofInt _ _).trans (by rw [hlow6])),
    issue_write ((congrArg _ (hlow5 _)).trans (rotateLeft_eq_ofNat _ (hmod32 _))),
    issue_write ((congrArg _ (hlow5 _)).trans (rotateRight_eq_ofNat _ (hmod32 _))), issue_write (flag_slt _ _),
    issue_write (flag_ult _ _), issue_write (flag_slt _ _), issue_write (ite_slt_eq_min _ _),
    issue_write (ite_slt_eq_max _ _), issue_write (ite_ult_eq_min _ _), issue_write (ite_ult_eq_max _ _),
    issue_write (ite_msb_eq_abs _), issue_write ((satWord_eq_clamp32 _).trans (by rw [Int.natCast_natAbs])),
    issue_write (BitVec.zero_sub _).symm, issue_write (leadingZeros_eq _), issue_write rfl, issue_write rfl,
    issue_write rfl, issue_write (setWidth8_eq_and _), issue_write (setWidth16_eq_and _), issue_write rfl,
    fun h => ?_, issue_write rfl, issue_write rfl, issue_write rfl, issue_write rfl, issue_write rfl,
    issue_write rfl, List.forall_mem_nil _⟩
  obtain ⟨rfl, rfl, rfl⟩ := h.here
  exact issue_write (shiftLeft_or_low _ _) h

end

/-! ### Multiplies (R105 to R107) -/

/-- The accumulator is the value still pending, or else PH:PL (R105, R107). -/
theorem Strand.acc_eq (t : Strand) : t.acc = t.mulPend.getD (t.ph ++ t.pl) := by
  unfold acc
  cases t.mulPend with
  | some v => rfl
  | none =>
    apply BitVec.eq_of_toNat_eq
    have hpl := t.pl.isLt
    have hph := t.ph.isLt
    simp only [Option.getD_none, BitVec.toNat_ofNat, BitVec.toNat_append, Nat.shiftLeft_eq]
    rw [Nat.mul_comm t.ph.toNat, ← Nat.two_pow_add_eq_or_of_lt hpl]
    omega

/-- A multiply makes its value pending: the strand goes on with it, and PL and PH take what was pending before (R106). -/
theorem multiply_of_issues {s : State} {pcell slot : Nat} {op : Opc} {x : Ctx} {u : Strand} {v : BitVec 64}
    (h : Issues s pcell slot op x) (hu : u = { x.t.flushMul with mulPend := some v }.advance x.ins.len none)
    (hcont : Continues (s.cell pcell) u) :
    x.multiply v = s.modCell pcell (fun k => k.putStrand slot u) ∧ u.mulPend = some v ∧
      (∀ m, x.t.mulPend = some m → u.pl = m.setWidth 32 ∧ u.ph = (m >>> 32).setWidth 32) ∧
      (x.t.mulPend = none → u.pl = x.t.pl ∧ u.ph = x.t.ph) ∧
      (x.t.rep = false → u.pc = x.t.pc + BitVec.ofNat 14 x.ins.len) := by
  obtain ⟨hs, hp, hl⟩ := h.here
  refine ⟨?_, ?_⟩
  · rw [Ctx.multiply, ← hu, hs, hp, hl]
    exact State.completeInstr_of_continues false hcont
  · rw [hu, Strand.advance_eq, Strand.flushMul_eq]
    refine ⟨rfl, fun m hm => ?_, fun hm => ?_, fun hrep => ?_⟩ <;> simp [*]

/-! ### Divides (R104, R108) -/

theorem divide_of_issues {s : State} {pcell slot : Nat} {op : Opc} {x : Ctx} (h : Issues s pcell slot op x)
    (qr : Word × Word) : x.divide qr = s.modCell pcell (fun k => k.putStrand slot
      { x.t.flushMul with wait := .divide qr.1 qr.2 x.t.mulPend.isSome }) := by
  obtain ⟨hs, hp, hl⟩ := h.here
  rw [Ctx.divide, hs, hp, hl]

/-! ### The start of a repeat (R111) -/

/-- The count of a repeat: of the register, or of the instruction (R111). -/
def Ctx.repeatCount (x : Ctx) : Nat := if x.ins.sh = 2 then x.a.toNat else x.ins.imm.toNat % 64 + 1

/-- The strand at the first repetition of its body (R111). -/
def Ctx.repeating (x : Ctx) (whole : Bool) : Strand :=
  { x.t.flushMul.advance x.ins.len none with
    rc := BitVec.ofNat 32 x.repeatCount, k := 0, rep := true, repu := whole
    steps := BitVec.ofNat 3 (x.ins.imm.toNat / 128) }

theorem Ctx.startRepeat_eq (x : Ctx) (whole : Bool) : x.startRepeat whole =
    if x.repeatCount < 1 ∨ 64 < x.repeatCount then x.trap .limit (BitVec.ofNat 32 x.repeatCount)
    else x.s.completeInstr x.pcell x.slot (x.repeating whole) false := by
  have hsteps : BitVec.ofNat 3 (fld x.ins.imm 9 7) = BitVec.ofNat 3 (x.ins.imm.toNat / 128) := by
    apply BitVec.eq_of_toNat_eq
    simp [fld, bitsOf]
  simp only [startRepeat, fld_zero, hsteps, repeatCount, repeating, Nat.reduceAdd, Nat.reducePow]
  rfl

/-- A strand that begins a repeat stands at its body, with nothing executed of it (R111). -/
theorem startRepeat_of_issues {s : State} {pcell slot : Nat} {op : Opc} {x : Ctx} (h : Issues s pcell slot op x)
    (whole : Bool) (hlo : 1 ≤ x.repeatCount) (hhi : x.repeatCount ≤ 64) (hsingle : x.t.single = false)
    (hdying : x.t.dying = false) (hstep : x.t.stepping = false) :
    x.startRepeat whole = s.modCell pcell (fun k => k.putStrand slot (x.repeating whole)) := by
  obtain ⟨hs, hp, hl⟩ := h.here
  have hcont : Continues (s.cell pcell) (x.repeating whole) := by
    constructor <;> simp [Ctx.repeating, Strand.advance_eq, Strand.flushMul_eq, hsingle, hdying, hstep]
  rw [Ctx.startRepeat_eq, if_neg (by omega), hs, hp, hl]
  exact State.completeInstr_of_continues false hcont

/-! ### A write inside a repeat (R111) -/

/-- In a repeat, an instruction that writes a register below RC has the strand count its repetition. -/
theorem write_in_repeat {s : State} {pcell slot : Nat} {op : Opc} {x : Ctx} (h : Issues s pcell slot op x) (v : Word)
    (hrep : x.t.rep = true) (hrd : x.ins.rd < 45) (hmul : x.t.mulPend = none)
    (hcont : Continues (s.cell pcell) (x.t.advance x.ins.len none)) :
    ∃ u, State.hasIssued pcell slot (x.write v) = State.hasIssued pcell slot
        ((s.wrote pcell x.t x.ins.rd v).1.modCell pcell (fun k => k.putStrand slot u)) ∧
      (State.hasIssued pcell slot (x.write v)).readReg pcell slot u x.ins.rd = v ∧
      u.rc = x.t.rc - 1 ∧ u.k = x.t.k + 1 ∧ u.rep = decide (x.t.rc ≠ 1) ∧
      u.pc = if x.t.rc = 1 then x.t.pc + BitVec.ofNat 14 x.ins.len else x.t.pc := by
  obtain ⟨hs, hp, hl⟩ := h.here
  obtain ⟨hregs, histore, hothers⟩ := State.wrote_rest s pcell x.t x.ins.rd v
  obtain ⟨lk, pl, ph, qt, md, ht⟩ := State.wrote_strand s pcell x.t v hrd
  have hnone : (s.wrote pcell x.t x.ins.rd v).2.mulPend = none := by rw [ht]; exact hmul
  have hwrite : x.write v = (s.wrote pcell x.t x.ins.rd v).1.completeInstr pcell slot
      ((s.wrote pcell x.t x.ins.rd v).2.advance x.ins.len none) false := by
    rw [← Strand.flushMul_of_none hnone, ← hs, ← hp, ← hl]; rfl
  have hgoes : Continues ((s.wrote pcell x.t x.ins.rd v).1.cell pcell)
      ((s.wrote pcell x.t x.ins.rd v).2.advance x.ins.len none) := by
    refine continues_congr hcont histore.symm ?_ ?_ ?_ ?_ ?_ ?_ <;> simp [ht, Strand.advance_eq]
  rw [hwrite, State.completeInstr_of_continues false hgoes]
  refine ⟨_, rfl, State.readReg_wrote s pcell slot x.t v hrd ?_ ?_ ?_, ?_⟩
  · simp [ht, Strand.advance_eq]
  · simp [ht, Strand.advance_eq]
  · simp [Strand.advance_eq]
  · simp only [ht, Strand.advance_eq, hrep]
    refine ⟨rfl, rfl, rfl, ?_⟩
    by_cases hrc : x.t.rc = 1 <;> simp [hrc]

end Sys2Proof.Machine
end

section
open Sys2Proof Sys2Proof.Machine Sys2Proof.Safety

namespace Sys2Proof.Machine

/-- A multiply's command, with its value in another form. -/
theorem exec_multiply {s : State} {pcell slot : Nat} {c : Instr} {op : Opc} {x : Ctx} {u : Strand} {v : Ctx → BitVec 64}
    {w : BitVec 64} (he : exec c s = s.issue pcell slot op (fun x => x.multiply (v x))) (hv : v x = w)
    (h : Issues s pcell slot op x) (hu : u = { x.t.flushMul with mulPend := some w }.advance x.ins.len none)
    (hcont : Continues (s.cell pcell) u) :
    exec c s = .next (State.hasIssued pcell slot <| s.modCell pcell (fun k => k.putStrand slot u)) ∧
      u.mulPend = some w ∧ (∀ m, x.t.mulPend = some m → u.pl = m.setWidth 32 ∧ u.ph = (m >>> 32).setWidth 32) ∧
      (x.t.mulPend = none → u.pl = x.t.pl ∧ u.ph = x.t.ph) ∧
      (x.t.rep = false → u.pc = x.t.pc + BitVec.ofNat 14 x.ins.len) := by
  obtain ⟨hstate, hrest⟩ := multiply_of_issues h hu hcont
  exact ⟨by rw [exec_of_issues h he, hv, hstate], hrest⟩

/-- A divide's command, with its results in another form. -/
theorem exec_divide {s : State} {pcell slot : Nat} {c : Instr} {op : Opc} {x : Ctx} {qr : Ctx → Word × Word} {q r : Word}
    (he : exec c s = s.issue pcell slot op (fun x => x.divide (qr x))) (hqr : qr x = (q, r))
    (h : Issues s pcell slot op x) :
    exec c s = .next (State.hasIssued pcell slot <| s.modCell pcell (fun k => k.putStrand slot
      { x.t.flushMul with wait := .divide q r x.t.mulPend.isSome })) := by
  rw [exec_of_issues h he, divide_of_issues h, hqr]

/-- A repeat's command starts it, or raises LIMIT for a count that no repeat has (R111, R113). -/
theorem exec_startRepeat {s : State} {pcell slot n : Nat} {c : Instr} {op : Opc} {whole : Bool} {x : Ctx}
    (he : exec c s = s.issue pcell slot op (fun x => x.startRepeat whole)) (h : Issues s pcell slot op x)
    (hrep : x.t.rep = false) (hn : n = x.repeatCount) :
    (1 ≤ n → n ≤ 64 → x.t.single = false → x.t.dying = false → x.t.stepping = false →
      ∃ u, exec c s = .next (State.hasIssued pcell slot <| s.modCell pcell (fun k => k.putStrand slot u)) ∧
        u.rc = BitVec.ofNat 32 n ∧ u.k = 0 ∧ u.rep = true ∧ u.repu = whole ∧
        u.steps = BitVec.ofNat 3 (x.ins.imm.toNat / 128) ∧ u.pc = x.t.pc + BitVec.ofNat 14 x.ins.len ∧
        u.uid = x.t.uid ∧ u.b = x.t.b ∧ u.wait = .nothing) ∧
    (n = 0 ∨ 64 < n → exec c s = .next (State.hasIssued pcell slot <| x.trap .limit (BitVec.ofNat 32 n))) := by
  rw [exec_of_issues h he, hn]
  refine ⟨fun hlo hhi hsingle hdying hstep => ⟨x.repeating whole, ?_, ?_⟩, fun hout => ?_⟩
  · rw [startRepeat_of_issues h whole hlo hhi hsingle hdying hstep]
  · simp [Ctx.repeating, Strand.advance_eq, Strand.flushMul_eq, hrep, h.ready.2]
  · rw [Ctx.startRepeat_eq, if_pos (by omega)]

end Sys2Proof.Machine

/-- Settles O46. Every instruction has its own effect on the strand that issues it (`issue_of_issues`); a strand that goes
on stands in its slot as its instruction leaves it (`completeInstr_of_continues`), and the values are those of the
statement by arithmetic on words. -/
theorem multipliesDividesAndRepeats : Obligations.MultipliesDividesAndRepeats := by
  unfold Obligations.MultipliesDividesAndRepeats
  refine ⟨fun pcell slot s c op f x u hmem h hu hcont => ?_, fun pcell slot s c op f x hmem h => ?_,
    fun pcell slot n s c op whole x hmem h hrep hn => ?_, fun pcell slot s c op f x hmem h hrep hrd hmul hcont => ?_⟩
  · simp only [List.mem_cons, Prod.mk.injEq, List.not_mem_nil, or_false] at hmem
    rcases hmem with ⟨rfl, rfl, rfl⟩ | ⟨rfl, rfl, rfl⟩ | ⟨rfl, rfl, rfl⟩ | ⟨rfl, rfl, rfl⟩
    · exact exec_multiply (v := fun x => BitVec.ofInt 64 (x.a.toInt * x.b.toInt)) rfl rfl h hu hcont
    · exact exec_multiply (v := fun x => BitVec.ofNat 64 (x.a.toNat * x.b.toNat)) rfl rfl h hu hcont
    · exact exec_multiply (v := fun x => x.t.acc + BitVec.ofInt 64 (x.a.toInt * x.b.toInt)) rfl
        (by rw [Strand.acc_eq]) h hu hcont
    · exact exec_multiply (v := fun x => sat64 (x.t.acc.toInt + x.a.toInt * x.b.toInt)) rfl
        (by rw [sat64_eq, Strand.acc_eq]) h hu hcont
  · simp only [List.mem_cons, Prod.mk.injEq, List.not_mem_nil, or_false] at hmem
    rcases hmem with ⟨rfl, rfl, rfl⟩ | ⟨rfl, rfl, rfl⟩
    · exact exec_divide (qr := fun x => divSigned x.a x.b) rfl (divSigned_eq _ _) h
    · exact exec_divide (qr := fun x => divUnsigned x.a x.b) rfl (divUnsigned_eq _ _) h
  · simp only [List.mem_cons, Prod.mk.injEq, List.not_mem_nil, or_false] at hmem
    rcases hmem with ⟨rfl, rfl, rfl⟩ | ⟨rfl, rfl, rfl⟩
    · exact exec_startRepeat (whole := false) rfl h hrep hn
    · exact exec_startRepeat (whole := true) rfl h hrep hn
  · obtain ⟨u, hstate, hread, hrc, hk, hu, hpc⟩ := write_in_repeat h (f x) hrep hrd hmul hcont
    obtain ⟨hregs, -, hothers⟩ := State.wrote_rest s pcell x.t x.ins.rd (f x)
    refine ⟨_, u, arithmetic_writes _ hmem h, ?_, hread, hrc, hk, hu, hpc, fun q hq => ?_, ?_⟩
    · rw [hstate]; simp
    · rw [hstate, State.hasIssued_cell_other _ _ _ hq, State.cell_modCell_other _ _ hq, hothers q hq]
    · rw [hstate, State.hasIssued_rest]; exact hregs
end

section
namespace Sys2Proof.Machine
open Sys2Proof.Safety

/-! ### Places in lists -/

theorem replaceAt_eq_set {α : Type} (l : List α) (i : Nat) (y : α) : replaceAt l i y = l.set i y := by
  induction l generalizing i with
  | nil => rfl
  | cons x l ih => cases i <;> simp [replaceAt, ih]

/-- The first place that satisfies a test stays the first when an element is replaced by one that the test cannot tell
from it. -/
theorem indexOf?_set {α : Type} {p : α → Bool} {l : List α} {i : Nat} {x y : α} (hx : l[i]? = some x) (h : p y = p x) :
    indexOf? p (l.set i y) = indexOf? p l := by
  induction l generalizing i with
  | nil => rfl
  | cons a l ih =>
    cases i with
    | zero =>
      obtain rfl : a = x := by simpa using hx
      simp [indexOf?, h]
    | succ i => simp [indexOf?, ih (by simpa using hx)]

/-! ### The directory entry of an activation (R143, R151) -/

/-- An activation has its entry at a place of the directory. -/
def Cell.Entered (c : Cell) (flow : BitVec 12) (iteration : BitVec 16) (i : Nat) (e : DirEntry) : Prop :=
  c.findDir flow iteration = some i ∧ c.dir[i]? = some e

namespace Cell
variable {c : Cell} {flow : BitVec 12} {iteration : BitVec 16} {i : Nat} {e : DirEntry} {f : DirEntry → DirEntry}

/-- The entry and its place, as a match over both looks for them. -/
theorem Entered.pair (h : c.Entered flow iteration i e) :
    (c.findDir flow iteration).bind (fun i => (c.dir[i]?).map (fun e => (i, e))) = some (i, e) := by
  simp [h.1, h.2]

theorem Entered.entry (h : c.Entered flow iteration i e) :
    (c.findDir flow iteration).bind (fun i => c.dir[i]?) = some e := by
  simp [h.1, h.2]

/-- Where the entry is rests on the directory alone. -/
theorem Entered.congr {d : Cell} (h : c.Entered flow iteration i e) (hd : d.dir = c.dir) :
    d.Entered flow iteration i e := by
  simpa only [Entered, findDir, hd] using h

/-- A change of an entry touches the directory and H3 of the frame. -/
theorem modDir_rest (c : Cell) (i : Nat) (f : DirEntry → DirEntry) :
    ∃ fr d, c.modDir i f = { c with frame := fr, dir := d } := by
  unfold modDir
  split
  · exact ⟨_, _, rfl⟩
  · exact ⟨_, _, rfl⟩

/-- A changed entry that keeps its name stands in its place. -/
theorem Entered.modDir (h : c.Entered flow iteration i e) (hhdr : (f e).hdr = e.hdr)
    (hsched : (f e).scheduled = e.scheduled) : (c.modDir i f).Entered flow iteration i (f e) := by
  obtain ⟨hfind, hdir⟩ := h
  have hmod : (c.modDir i f).dir = c.dir.set i (f e) := by
    simp only [Cell.modDir, hdir, putWord, replaceAt_eq_set]
  refine ⟨?_, ?_⟩
  · rw [← hfind, findDir, findDir, hmod]
    exact indexOf?_set hdir (by simp [hhdr, hsched])
  · rw [hmod, List.getElem?_set_self (List.getElem?_eq_some_iff.1 hdir).1]

/-- Of the frame, a change of an entry writes H3 alone (R145). -/
theorem word_modDir (hdir : c.dir[i]? = some e) (hhdr : (f e).hdr = e.hdr) {w : Nat} (hw : w ≠ e.hdr.base.toNat + 3) :
    (c.modDir i f).word w = c.word w := by
  simp only [Cell.modDir, hdir]
  exact word_putWord_other _ _ (by rwa [hhdr])

/-- The cell without a strand of a number, wherever it stands. -/
def without (c : Cell) (uid : Nat) : Cell :=
  { c with
    slots := c.slots.filter (fun e => e.2.uid ≠ uid)
    resume := c.resume.filter (fun x => x.uid ≠ uid)
    debugList := c.debugList.filter (fun x => x.uid ≠ uid) }

/-- The cell without a strand, whose area is free where its activation has an entry (R151). -/
theorem removeStrand_eq (c : Cell) (t : Strand) : c.removeStrand t =
    ((c.without t.uid).findDir t.flow t.iteration).elim (c.without t.uid) (fun i => (c.without t.uid).modDir i
      (fun e => { e with busy := e.busy &&& ~~~((1 : Byte) <<< t.area.toNat) })) := by
  unfold removeStrand without
  dsimp only
  split <;> simp only [*, Option.elim]

theorem removeStrand_of_entered {t : Strand} (h : c.Entered t.flow t.iteration i e) :
    c.removeStrand t = (c.without t.uid).modDir i
      (fun e => { e with busy := e.busy &&& ~~~((1 : Byte) <<< t.area.toNat) }) := by
  have hfind : (c.without t.uid).findDir t.flow t.iteration = some i := h.1
  rw [removeStrand_eq, hfind, Option.elim]

theorem removeStrand_rest (c : Cell) (t : Strand) :
    ∃ fr d, c.removeStrand t = { c.without t.uid with frame := fr, dir := d } := by
  rw [removeStrand_eq]
  cases (c.without t.uid).findDir t.flow t.iteration with
  | none => exact ⟨_, _, rfl⟩
  | some i => exact modDir_rest ..

/-- The area of a removed strand is free (R151). -/
theorem Entered.removeStrand {t : Strand} (h : c.Entered t.flow t.iteration i e) :
    (c.removeStrand t).Entered t.flow t.iteration i
      { e with busy := e.busy &&& ~~~((1 : Byte) <<< t.area.toNat) } := by
  rw [removeStrand_of_entered h]
  exact Entered.modDir (c := c.without t.uid) (f := fun e => { e with busy := _ }) h rfl rfl

theorem word_removeStrand {t : Strand} (h : c.Entered t.flow t.iteration i e) {w : Nat}
    (hw : w ≠ e.hdr.base.toNat + 3) : (c.removeStrand t).word w = c.word w := by
  rw [removeStrand_of_entered h]
  exact word_modDir (c := c.without t.uid) h.2 rfl hw

/-- No strand of the number is left. -/
theorem uid_ne_of_mem_removeStrand {t y : Strand} (h : y ∈ (c.removeStrand t).strands) : y.uid ≠ t.uid := by
  obtain ⟨fr, d, hc⟩ := removeStrand_rest c t
  rw [hc] at h
  simp only [strands, without, List.mem_append, List.mem_map, List.mem_filter, decide_eq_true_eq] at h
  rcases h with (⟨z, ⟨-, hz⟩, rfl⟩ | ⟨-, h⟩) | ⟨-, h⟩
  · exact hz
  · exact h
  · exact h

theorem mem_strands_of_mem_removeStrand {t y : Strand} (h : y ∈ (c.removeStrand t).strands) : y ∈ c.strands := by
  obtain ⟨fr, d, hc⟩ := removeStrand_rest c t
  rw [hc] at h
  simp only [strands, without, List.mem_append, List.mem_map, List.mem_filter] at h ⊢
  rcases h with (⟨z, ⟨hz, -⟩, rfl⟩ | ⟨h, -⟩) | ⟨h, -⟩
  · exact .inl (.inl ⟨z, hz, rfl⟩)
  · exact .inl (.inr h)
  · exact .inr h

/-- A strand in a slot is one of the cell's strands. -/
theorem mem_strands_of_mem_slots {z : Nat × Strand} (h : z ∈ c.slots) : z.2 ∈ c.strands := by
  simp only [strands, List.mem_append, List.mem_map]
  exact .inl (.inl ⟨z, h, rfl⟩)

end Cell

end Sys2Proof.Machine
end

section
namespace Sys2Proof.Machine
open Sys2Proof.Safety

/-! ### The work of a cell -/

/-- Between two states a cell has worked: its own part of the state, and the reports that reach the dispatcher, are all
that may differ. -/
structure CellWork (p : Nat) (s t : State) : Prop where
  rest : t = { s with cells := t.cells, dsp := { s.dsp with reports := t.dsp.reports } }
  others : ∀ q, q ≠ p → t.cell q = s.cell q

namespace CellWork
variable {p : Nat} {s t u : State}

theorem refl (p : Nat) (s : State) : CellWork p s s := ⟨rfl, fun _ _ => rfl⟩

theorem trans (h : CellWork p s t) (k : CellWork p t u) : CellWork p s u where
  rest := by
    have hk := k.rest
    rw [h.rest] at hk
    exact hk
  others q hq := (k.others q hq).trans (h.others q hq)

theorem modCell (p : Nat) (s : State) (f : Cell → Cell) : CellWork p s (s.modCell p f) :=
  ⟨rfl, fun _ hq => State.cell_modCell_other s f hq⟩

theorem report (p : Nat) (s : State) (r : Report) : CellWork p s (s.report r) := ⟨rfl, fun _ _ => rfl⟩

theorem hasIssued (p slot : Nat) (s : State) : CellWork p s (State.hasIssued p slot s) := by
  unfold State.hasIssued
  split
  · exact refl p s
  · exact modCell ..

theorem regs (h : CellWork p s t) : t.regs = s.regs := (congrArg State.regs h.rest).trans rfl
theorem mem (h : CellWork p s t) : t.mem = s.mem := (congrArg State.mem h.rest).trans rfl
theorem mode (h : CellWork p s t) : t.mode = s.mode := (congrArg State.mode h.rest).trans rfl
theorem flt (h : CellWork p s t) : t.flt = s.flt := (congrArg State.flt h.rest).trans rfl
theorem lidOf (h : CellWork p s t) : t.lidOf = s.lidOf := (congrArg State.lidOf h.rest).trans rfl
theorem idOf (h : CellWork p s t) : t.idOf = s.idOf := (congrArg State.idOf h.rest).trans rfl
theorem isSched (h : CellWork p s t) : t.isSched = s.isSched := (congrArg State.isSched h.rest).trans rfl
theorem isPaired (h : CellWork p s t) : t.isPaired = s.isPaired := (congrArg State.isPaired h.rest).trans rfl

/-- With the same reports the dispatcher is as it was. -/
theorem dsp (h : CellWork p s t) (hr : t.dsp.reports = s.dsp.reports) : t.dsp = s.dsp := by
  rw [congrArg State.dsp h.rest]
  show { s.dsp with reports := t.dsp.reports } = s.dsp
  rw [hr]

end CellWork

theorem foldl_induction {α β : Type} {P : β → Prop} {f : β → α → β} {l : List α} {b : β} (hb : P b)
    (hf : ∀ b, P b → ∀ x ∈ l, P (f b x)) : P (l.foldl f b) := by
  induction l generalizing b with
  | nil => exact hb
  | cons x l ih => exact ih (hf b hb x (by simp)) fun b hb y hy => hf b hb y (by simp [hy])

@[simp] theorem State.report_cell (s : State) (r : Report) (q : Nat) : (s.report r).cell q = s.cell q := rfl
@[simp] theorem State.report_reports (s : State) (r : Report) : (s.report r).dsp.reports = s.dsp.reports ++ [r] := rfl

/-! ### Messages of a stop: pair packets, trap notices, releases of locks -/

/-- A step of a cell's work that only queues pair packets and takes trap notices off. -/
structure Sends (p : Nat) (s t : State) : Prop where
  work : CellWork p s t
  reports : t.dsp.reports = s.dsp.reports
  cell : ∃ out ns, t.cell p = { s.cell p with outQ := out, notices := ns }

theorem Sends.trans {p : Nat} {s t u : State} (h : Sends p s t) (k : Sends p t u) : Sends p s u where
  work := h.work.trans k.work
  reports := k.reports.trans h.reports
  cell := by
    obtain ⟨out, ns, hc⟩ := h.cell
    obtain ⟨out', ns', hk⟩ := k.cell
    exact ⟨out', ns', by rw [hk, hc]⟩

theorem Sends.modCell {p : Nat} {s : State} {f : Cell → Cell}
    (hf : ∃ out ns, f (s.cell p) = { s.cell p with outQ := out, notices := ns }) : Sends p s (s.modCell p f) where
  work := .modCell ..
  reports := rfl
  cell := by rw [State.cell_modCell_same]; exact hf

theorem Sends.refl (p : Nat) (s : State) : Sends p s s := ⟨.refl p s, rfl, _, _, rfl⟩

theorem State.pairSend_sends (s : State) (p : Nat) (vc : Vc) (kind : PairKind) (t : Strand) (word : Word) :
    Sends p s (s.pairSend p vc kind t word) := by
  unfold pairSend
  split
  · exact .refl p s
  · exact .modCell ⟨_, _, rfl⟩

theorem State.sendNotices_sends (s : State) (p : Nat) (flow : BitVec 12) (iteration : BitVec 16) :
    Sends p s (s.sendNotices p flow iteration) := by
  unfold sendNotices
  dsimp only
  split
  · exact .refl p s
  · exact foldl_induction (.modCell ⟨_, _, rfl⟩) fun t ht x _ => ht.trans (pairSend_sends ..)

/-! ### The frame of an activation whose strands have gone (R151, R159) -/

/-- A frame is kept while its entry is of a flow record, LIVE, with an area busy or with a trap token to start. -/
def DirEntry.kept (e : DirEntry) : Prop := e.scheduled = true ∨ e.state = .live ∨ e.busy ≠ 0 ∨ e.trapPending = true

section
variable {s : State} {p i : Nat} {flow : BitVec 12} {iteration : BitVec 16} {e : DirEntry}

theorem State.frameCheck_of_kept (h : (s.cell p).Entered flow iteration i e) (hk : e.kept) :
    s.frameCheck p flow iteration = s.sendNotices p flow iteration := by
  obtain ⟨out, ns, hc⟩ := (s.sendNotices_sends p flow iteration).cell
  have hentered : ((s.sendNotices p flow iteration).cell p).Entered flow iteration i e := h.congr (by rw [hc])
  unfold frameCheck
  simp only [hentered.entry]
  exact if_pos hk

/-- A frame that is not kept is freed, and the dispatcher hears of it. -/
theorem State.frameCheck_of_not_kept {lid : Nat} (h : (s.cell p).Entered flow iteration i e) (hk : ¬ e.kept)
    (hlid : s.lidOf p = some lid) :
    (s.frameCheck p flow iteration).dsp.reports = s.dsp.reports ++ [.frameFree lid flow iteration] := by
  have hsends := s.sendNotices_sends p flow iteration
  obtain ⟨out, ns, hc⟩ := hsends.cell
  have hentered : ((s.sendNotices p flow iteration).cell p).Entered flow iteration i e := h.congr (by rw [hc])
  have hlid' : ((s.sendNotices p flow iteration).modCell p
      (fun c => { c with dir := c.dir.filter (fun d => d ≠ e) })).lidOf p = some lid := by
    rw [(CellWork.modCell ..).lidOf, hsends.work.lidOf, hlid]
  unfold DirEntry.kept at hk
  unfold frameCheck
  simp only [hentered.entry]
  rw [if_neg hk, hlid']
  simp [hsends.reports]

end

/-- Whatever becomes of the frame, the cell keeps all but its directory, its notices and the packets that it sends, and
the dispatcher hears at most of the freed frame. -/
theorem State.frameCheck_rest (s : State) (p : Nat) (flow : BitVec 12) (iteration : BitVec 16) :
    CellWork p s (s.frameCheck p flow iteration) ∧
    (∃ out ns d, (s.frameCheck p flow iteration).cell p = { s.cell p with outQ := out, notices := ns, dir := d }) ∧
    ∃ l, (s.frameCheck p flow iteration).dsp.reports = s.dsp.reports ++ l := by
  have hsends := s.sendNotices_sends p flow iteration
  obtain ⟨out, ns, hc⟩ := hsends.cell
  have hkept : CellWork p s (s.sendNotices p flow iteration) ∧
      (∃ out ns d, (s.sendNotices p flow iteration).cell p = { s.cell p with outQ := out, notices := ns, dir := d }) ∧
      ∃ l, (s.sendNotices p flow iteration).dsp.reports = s.dsp.reports ++ l :=
    ⟨hsends.work, ⟨_, _, _, hc⟩, [], by rw [hsends.reports, List.append_nil]⟩
  unfold frameCheck
  dsimp only
  split
  · split
    · exact hkept
    · split
      · exact ⟨(hsends.work.trans (.modCell ..)).trans (.report ..), ⟨out, ns, _, by rw [report_cell, cell_modCell_same, hc]⟩,
          _, by rw [report_reports, modCell_dsp, hsends.reports]⟩
      · exact ⟨hsends.work.trans (.modCell ..), ⟨out, ns, _, by rw [cell_modCell_same, hc]⟩, [],
          by rw [modCell_dsp, hsends.reports, List.append_nil]⟩
  · exact hkept

end Sys2Proof.Machine
end

section
namespace Sys2Proof.Machine
open Sys2Proof.Safety

/-! ### The end of a strand (R128, R151) -/

section
variable {s : State} {p i : Nat} {t : Strand} {e : DirEntry}

/-- A strand that ends leaves the cell; nothing outside the cell's own work changes, and the dispatcher hears at most of
its frame. -/
theorem State.endStrand_rest (s : State) (p : Nat) (t : Strand) :
    CellWork p s (s.endStrand p t) ∧
    (∃ out ns fr d, (s.endStrand p t).cell p =
      { (s.cell p).without t.uid with outQ := out, notices := ns, frame := fr, dir := d }) ∧
    ∃ l, (s.endStrand p t).dsp.reports = s.dsp.reports ++ l := by
  obtain ⟨hwork, ⟨out, ns, d, hc⟩, l, hr⟩ :=
    (s.modCell p (fun c => c.removeStrand t)).frameCheck_rest p t.flow t.iteration
  obtain ⟨fr, d', hrem⟩ := Cell.removeStrand_rest (s.cell p) t
  refine ⟨(CellWork.modCell ..).trans hwork, ⟨out, ns, fr, d, ?_⟩, l, hr⟩
  rw [endStrand, hc, cell_modCell_same, hrem]

theorem State.uid_ne_of_mem_endStrand {z : Nat × Strand} (h : z ∈ ((s.endStrand p t).cell p).slots) :
    z.2.uid ≠ t.uid := by
  obtain ⟨-, ⟨out, ns, fr, d, hc⟩, -⟩ := s.endStrand_rest p t
  rw [hc] at h
  simpa using (List.mem_filter.1 h).2

theorem State.endStrand_houseQ (s : State) (p : Nat) (t : Strand) :
    ((s.endStrand p t).cell p).houseQ = (s.cell p).houseQ := by
  obtain ⟨-, ⟨out, ns, fr, d, hc⟩, -⟩ := s.endStrand_rest p t
  rw [hc]; rfl

/-- The entry of the activation after one of its strands has ended: the strand's area is free (R151). -/
def DirEntry.freed (e : DirEntry) (t : Strand) : DirEntry :=
  { e with busy := e.busy &&& ~~~((1 : Byte) <<< t.area.toNat) }

theorem State.entered_modCell_removeStrand (h : (s.cell p).Entered t.flow t.iteration i e) :
    ((s.modCell p (fun c => c.removeStrand t)).cell p).Entered t.flow t.iteration i (e.freed t) := by
  rw [cell_modCell_same]
  exact h.removeStrand

/-- In a LIVE activation the strand's end frees its area, and the dispatcher hears of nothing. -/
theorem State.endStrand_of_live (h : (s.cell p).Entered t.flow t.iteration i e) (hlive : e.state = .live) :
    (s.endStrand p t).dsp = s.dsp ∧ ((s.endStrand p t).cell p).dir[i]? = some (e.freed t) := by
  have hentered := entered_modCell_removeStrand h
  have hsends := (s.modCell p (fun c => c.removeStrand t)).sendNotices_sends p t.flow t.iteration
  obtain ⟨out, ns, hc⟩ := hsends.cell
  rw [endStrand, frameCheck_of_kept hentered (.inr (.inl hlive))]
  exact ⟨(hsends.work.dsp hsends.reports).trans (modCell_dsp ..), by rw [hc]; exact hentered.2⟩

/-- The last strand of an activation that is over frees its frame (R151). -/
theorem State.endStrand_of_last {lid : Nat} (h : (s.cell p).Entered t.flow t.iteration i e) (hlive : e.state ≠ .live)
    (hsched : e.scheduled = false) (htrap : e.trapPending = false) (hbusy : (e.freed t).busy = 0)
    (hlid : s.lidOf p = some lid) :
    (s.endStrand p t).dsp.reports = s.dsp.reports ++ [.frameFree lid t.flow t.iteration] := by
  refine frameCheck_of_not_kept (entered_modCell_removeStrand h) ?_ hlid
  rintro (h | h | h | h)
  · exact Bool.false_ne_true (hsched.symm.trans h)
  · exact hlive h
  · exact h hbusy
  · exact Bool.false_ne_true (htrap.symm.trans h)

end

/-! ### The release of a flow's locks (R287) -/

/-- The request that releases a held lock with ABANDONED status. -/
def abandoned (cell : Nat) (flow : BitVec 12) (q : OutputSeq) (h : HeldLock) : HouseReq :=
  { what := .release flow, ea := h.addr, op := 0x53, data := lockWord cell flow 0 0, body := [], seq := q }

theorem State.house_cell (s : State) (p : Nat) (what : Pending) (ea : Word) (op : Byte) (data : BitVec 64)
    (seq : OutputSeq) : (s.house p what ea op data seq).cell p =
      { s.cell p with houseQ := (s.cell p).houseQ ++ [{ what, ea, op, data, body := [], seq }] } :=
  cell_modCell_same ..

/-- One release of those that `State.releaseLocks` queues in order. -/
def State.releaseHeld (p : Nat) (flow : BitVec 12) (q : OutputSeq) (s : State) (h : HeldLock × Nat) : State :=
  s.house p (.release flow) h.1.addr 0x53 (lockWord (s.idOf p) flow 0 0) { q with n := q.n + BitVec.ofNat 8 h.2 }

/-- Releases join the cell's own requests in order. -/
theorem State.foldl_releaseHeld (p : Nat) (flow : BitVec 12) (q : OutputSeq) (l : List (HeldLock × Nat)) (s : State) :
    CellWork p s (l.foldl (releaseHeld p flow q) s) ∧
    (l.foldl (releaseHeld p flow q) s).dsp.reports = s.dsp.reports ∧
    (l.foldl (releaseHeld p flow q) s).cell p = { s.cell p with
      houseQ := (s.cell p).houseQ ++
        l.map (fun h => abandoned (s.idOf p) flow { q with n := q.n + BitVec.ofNat 8 h.2 } h.1) } := by
  induction l generalizing s with
  | nil => exact ⟨.refl p s, rfl, by simp⟩
  | cons h l ih =>
    have hwork : CellWork p s (releaseHeld p flow q s h) := by
      unfold releaseHeld house; exact .modCell ..
    obtain ⟨hw, hr, hc⟩ := ih (releaseHeld p flow q s h)
    refine ⟨hwork.trans hw, hr, hc.trans ?_⟩
    rw [hwork.idOf, releaseHeld, house_cell]
    simp [abandoned]

/-- Every lock that the flow holds is released, and of the cell only its own requests change (R287). -/
theorem State.releaseLocks_rest (s : State) (p : Nat) (flow : BitVec 12) (q : OutputSeq) :
    CellWork p s (s.releaseLocks p flow q) ∧ (s.releaseLocks p flow q).dsp.reports = s.dsp.reports ∧
    ∃ hq, (s.releaseLocks p flow q).cell p = { s.cell p with houseQ := (s.cell p).houseQ ++ hq } ∧
      ∀ h ∈ (s.cell p).held, h.flow = flow → ∃ q', abandoned (s.idOf p) flow q' h ∈ hq := by
  obtain ⟨hw, hr, hc⟩ := foldl_releaseHeld p flow q ((s.cell p).held.filter (fun h => h.flow = flow)).zipIdx s
  refine ⟨hw, hr, _, hc, fun h hh hf => ?_⟩
  have hmem : h ∈ (((s.cell p).held.filter (fun h => h.flow = flow)).zipIdx.map Prod.fst) := by
    rw [List.zipIdx_map_fst]
    exact List.mem_filter.2 ⟨hh, by simpa using hf⟩
  obtain ⟨z, hz, rfl⟩ := List.mem_map.1 hmem
  exact ⟨_, List.mem_map.2 ⟨z, hz, rfl⟩⟩

/-! ### The end of an activation (R128) -/

section
variable {x : Ctx} {i lid : Nat} {e : DirEntry}

/-- ENDR acts as END in a Scheduled cell and in an activation that is complete (R213). -/
theorem Ctx.endActivation_of_over (h : (x.s.cell x.pcell).Entered x.t.flow x.t.iteration i e)
    (hover : e.scheduled = true ∨ e.complete = true) : x.endActivation = x.s.endStrand x.pcell x.t := by
  simp only [endActivation, h.pair]
  exact if_pos hover

/-- ENDR reports the completion and releases the flow's locks before the strand ends (R128, R122). -/
theorem Ctx.endActivation_rest (h : (x.s.cell x.pcell).Entered x.t.flow x.t.iteration i e)
    (hsched : e.scheduled = false) (hcomplete : e.complete = false) (hlid : x.s.lidOf x.pcell = some lid) :
    CellWork x.pcell x.s x.endActivation ∧ (∀ z ∈ (x.endActivation.cell x.pcell).slots, z.2.uid ≠ x.t.uid) ∧
    (∃ l, x.endActivation.dsp.reports = x.s.dsp.reports ++ .completion lid x.t.flow x.t.iteration :: l) ∧
    ∀ h ∈ (x.s.cell x.pcell).held, h.flow = x.t.flow →
      ∃ q, abandoned (x.s.idOf x.pcell) x.t.flow q h ∈ (x.endActivation.cell x.pcell).houseQ := by
  let s₁ := x.s.modCell x.pcell (fun c => c.modDir i (fun e => { e with
    state := if e.state = .live then .done else e.state, complete := true }))
  let s₂ := s₁.report (.completion lid x.t.flow x.t.iteration)
  let s₃ := s₂.releaseLocks x.pcell x.t.flow (x.t.seqAt 0)
  have hend : x.endActivation = s₃.endStrand x.pcell x.t := by
    have hlid₁ : s₁.lidOf x.pcell = some lid := hlid
    simp only [endActivation, h.pair, hsched, hcomplete, Bool.false_eq_true, or_self, if_false]
    simp only [s₃, s₂, s₁] at hlid₁ ⊢
    rw [hlid₁]
  have hwork₂ : CellWork x.pcell x.s s₂ := (CellWork.modCell ..).trans (.report ..)
  have hheld : (s₂.cell x.pcell).held = (x.s.cell x.pcell).held := by
    obtain ⟨fr, d, hc⟩ := Cell.modDir_rest (x.s.cell x.pcell) i
      (fun e => { e with state := if e.state = .live then .done else e.state, complete := true })
    rw [State.report_cell, State.cell_modCell_same, hc]
  obtain ⟨hwork₃, hr₃, hq, hc₃, hreleased⟩ := s₂.releaseLocks_rest x.pcell x.t.flow (x.t.seqAt 0)
  obtain ⟨hwork, -, l, hr⟩ := s₃.endStrand_rest x.pcell x.t
  rw [hend]
  refine ⟨(hwork₂.trans hwork₃).trans hwork, fun z hz => State.uid_ne_of_mem_endStrand hz, ⟨l, ?_⟩, fun h hh hf => ?_⟩
  · rw [hr, hr₃, State.report_reports, State.modCell_dsp, List.append_assoc, List.singleton_append]
  · obtain ⟨q, hmem⟩ := hreleased h (hheld ▸ hh) hf
    refine ⟨q, ?_⟩
    rw [State.endStrand_houseQ, hc₃, ← hwork₂.idOf]
    exact List.mem_append_right _ hmem

end

end Sys2Proof.Machine
end

section
namespace Sys2Proof.Machine
open Sys2Proof.Safety

/-! ### The strands of an activation are stopped (R159) -/

/-- Between two states a cell has stopped strands of an activation: no strand has come, the queues of tokens are as they
were, and the activation's entry has only seen areas come free, with them H3 of its frame. -/
structure Stops (p : Nat) (flow : BitVec 12) (iteration : BitVec 16) (s t : State) : Prop where
  work : CellWork p s t
  reports : t.dsp.reports = s.dsp.reports
  uids : ∀ y ∈ (t.cell p).strands, ∃ z ∈ (s.cell p).strands, z.uid = y.uid
  inQ : (t.cell p).inQ = (s.cell p).inQ
  trapQ : (t.cell p).trapQ = (s.cell p).trapQ
  entry : ∀ i e, (s.cell p).Entered flow iteration i e →
    ∃ b, (t.cell p).Entered flow iteration i { e with busy := b }
  words : ∀ i e, (s.cell p).Entered flow iteration i e → ∀ w, w ≠ e.hdr.base.toNat + 3 →
    (t.cell p).word w = (s.cell p).word w

section
variable {p : Nat} {flow : BitVec 12} {iteration : BitVec 16} {s t u : State}

theorem Stops.refl (p : Nat) (flow : BitVec 12) (iteration : BitVec 16) (s : State) : Stops p flow iteration s s where
  work := .refl p s
  reports := rfl
  uids y hy := ⟨y, hy, rfl⟩
  inQ := rfl
  trapQ := rfl
  entry _ e h := ⟨e.busy, h⟩
  words _ _ _ _ _ := rfl

theorem Stops.trans (h : Stops p flow iteration s t) (k : Stops p flow iteration t u) : Stops p flow iteration s u where
  work := h.work.trans k.work
  reports := k.reports.trans h.reports
  uids y hy := by
    obtain ⟨z, hz, hzy⟩ := k.uids y hy
    obtain ⟨z', hz', hz'z⟩ := h.uids z hz
    exact ⟨z', hz', hz'z.trans hzy⟩
  inQ := k.inQ.trans h.inQ
  trapQ := k.trapQ.trans h.trapQ
  entry i e he := by
    obtain ⟨b, hb⟩ := h.entry i e he
    obtain ⟨b', hb'⟩ := k.entry i _ hb
    exact ⟨b', hb'⟩
  words i e he w hw := by
    obtain ⟨b, hb⟩ := h.entry i e he
    exact (k.words i _ hb w hw).trans (h.words i e he w hw)

/-- A change of the cell that leaves its strands, token queues, directory and frame store alone stops nothing. -/
theorem Stops.of_cell (hwork : CellWork p s t) (hr : t.dsp.reports = s.dsp.reports)
    (hstrands : (t.cell p).strands = (s.cell p).strands) (hin : (t.cell p).inQ = (s.cell p).inQ)
    (htrap : (t.cell p).trapQ = (s.cell p).trapQ) (hdir : (t.cell p).dir = (s.cell p).dir)
    (hframe : (t.cell p).frame = (s.cell p).frame) : Stops p flow iteration s t where
  work := hwork
  reports := hr
  uids y hy := ⟨y, hstrands ▸ hy, rfl⟩
  inQ := hin
  trapQ := htrap
  entry _ e h := ⟨e.busy, h.congr hdir⟩
  words _ _ _ w _ := by rw [Cell.word, hframe, Cell.word]

theorem State.removeStrand_stops (s : State) (p : Nat) (v : Strand) :
    Stops p v.flow v.iteration s (s.modCell p (fun c => c.removeStrand v)) := by
  obtain ⟨fr, d, hc⟩ := Cell.removeStrand_rest (s.cell p) v
  refine ⟨.modCell .., rfl, fun y hy => ?_, ?_, ?_, fun i e h =>
    ⟨e.busy &&& ~~~((1 : Byte) <<< v.area.toNat), ?_⟩, fun i e h w hw => ?_⟩
  · rw [cell_modCell_same] at hy
    exact ⟨y, Cell.mem_strands_of_mem_removeStrand hy, rfl⟩
  · rw [cell_modCell_same, hc]; rfl
  · rw [cell_modCell_same, hc]; rfl
  · rw [cell_modCell_same]; exact h.removeStrand
  · rw [cell_modCell_same]; exact Cell.word_removeStrand h hw

/-- A strand is dropped; a wait for a lock leaves a request behind (R292). -/
theorem State.dropStrand_stops (s : State) (p : Nat) (v : Strand) :
    Stops p v.flow v.iteration s (s.dropStrand p v) := by
  have hremoved := s.removeStrand_stops p v
  unfold dropStrand
  dsimp only
  split
  · refine hremoved.trans (.of_cell (.modCell ..) rfl ?_ ?_ ?_ ?_ ?_) <;> rw [house_cell]
    rfl
  · exact hremoved

/-- The slot of a strand holds one with its number. -/
theorem Cell.exists_of_slotOf {c : Cell} {uid slot : Nat} (h : c.slotOf uid = some slot) :
    ∃ z ∈ c.strands, z.uid = uid := by
  obtain ⟨e, he, -⟩ := Option.map_eq_some_iff.1 h
  exact ⟨e.2, mem_strands_of_mem_slots (List.mem_of_find?_eq_some he), by simpa using List.find?_some he⟩

/-- A running strand that is not at a point is marked, and stays in its slot (R159). -/
theorem State.putStrand_stops {v : Strand} {slot : Nat} (hv : ∃ z ∈ (s.cell p).strands, z.uid = v.uid) :
    Stops p flow iteration s (s.modCell p (fun c => c.putStrand slot v)) := by
  refine ⟨.modCell .., rfl, fun y hy => ?_, ?_, ?_, fun i e h => ⟨e.busy, ?_⟩, fun i e h w hw => ?_⟩ <;>
    rw [cell_modCell_same] at *
  · simp only [Cell.strands, Cell.putStrand, List.mem_append, List.mem_map] at hy
    rcases hy with (⟨z, hz, rfl⟩ | hy) | hy
    · rcases mem_tins hz with rfl | hz
      · exact hv
      · exact ⟨z.2, Cell.mem_strands_of_mem_slots hz, rfl⟩
    · exact ⟨y, by simp [Cell.strands, hy], rfl⟩
    · exact ⟨y, by simp [Cell.strands, hy], rfl⟩
  · rfl
  · rfl
  · exact h.congr rfl
  · rfl

/-- Each strand of an activation is stopped in turn. -/
theorem State.stopActivation_stops (s : State) (p : Nat) (flow : BitVec 12) (iteration : BitVec 16) :
    Stops p flow iteration s (s.stopActivation p flow iteration) := by
  unfold stopActivation
  refine foldl_induction (.refl p flow iteration s) fun t ht v hv => ?_
  obtain ⟨hmem, hown⟩ := List.mem_filter.1 hv
  obtain ⟨rfl, rfl⟩ : v.flow = flow ∧ v.iteration = iteration := by simpa using hown
  have hdropped := ht.trans (t.dropStrand_stops p v)
  unfold stopStrand
  split
  case h_1 => exact hdropped
  case h_2 slot hslot =>
    dsimp only
    split
    · exact hdropped
    · exact ht.trans (putStrand_stops (Cell.exists_of_slotOf hslot))

end

/-! ### A trap (R159 to R162) -/

/-- The report of an abort touches the slot engine and the releases of locks, and the dispatcher hears of an activation
of a Dynamic cell (R159 step 4). -/
theorem State.reportAbort_rest (s : State) (p : Nat) (flow : BitVec 12) (iteration : BitVec 16) (hen : Bool)
    (q : OutputSeq) : CellWork p s (s.reportAbort p flow iteration hen q) ∧
    (∃ en hq, (s.reportAbort p flow iteration hen q).cell p = { s.cell p with engine := en, houseQ := hq }) ∧
    ∀ lid, s.isSched p = false → s.lidOf p = some lid → (s.reportAbort p flow iteration hen q).dsp.reports =
      s.dsp.reports ++ [.abort lid flow iteration hen] := by
  unfold reportAbort
  dsimp only
  split
  case isTrue hsched =>
    obtain ⟨hw, -, hq, hc, -⟩ := (s.modCell p (fun c => { c with engine := { c.engine with
      trapped := if flow ∈ c.engine.trapped then c.engine.trapped else c.engine.trapped ++ [flow] } })).releaseLocks_rest
        p flow q
    refine ⟨(CellWork.modCell ..).trans hw, ⟨_, _, by rw [hc, cell_modCell_same]⟩, fun _ hno _ => ?_⟩
    exact absurd hsched (by simp [hno])
  case isFalse =>
    split
    case h_1 lid hlid =>
      obtain ⟨hw, hr, hq, hc, -⟩ := (s.report (.abort lid flow iteration hen)).releaseLocks_rest p flow q
      refine ⟨(CellWork.report ..).trans hw, ⟨_, _, by rw [hc, report_cell]⟩, fun lid' _ hlid' => ?_⟩
      obtain rfl : lid = lid' := Option.some.inj (hlid.symm.trans hlid')
      rw [hr, report_reports]
    case h_2 hlid =>
      obtain ⟨hw, hr, hq, hc, -⟩ := s.releaseLocks_rest p flow q
      exact ⟨hw, ⟨_, _, hc⟩, fun lid' _ hlid' => absurd hlid' (by simp [hlid])⟩

theorem Cell.fillOwn_rest (c : Cell) : ∃ q tq, c.fillOwn = { c with inQ := q, trapQ := tq } := by
  unfold fillOwn
  dsimp only
  split
  · split <;> exact ⟨_, _, rfl⟩
  · exact ⟨_, _, rfl⟩

theorem own_mem_frontOf (q : List Intake) (t : Token) : .own t ∈ frontOf q (.own t) := by simp [frontOf]

/-- A trap token stays in the cell: in its input queue, or where it waits for it (R237). -/
theorem Cell.mem_fillOwn {c : Cell} {k : Token} (h : k ∈ c.trapQ) : .own k ∈ c.fillOwn.inQ ∨ k ∈ c.fillOwn.trapQ := by
  unfold fillOwn
  dsimp only
  split
  case h_1 t rest ht =>
    split
    · rcases List.mem_cons.1 (ht ▸ h) with rfl | h
      · exact .inl (own_mem_frontOf ..)
      · exact .inr h
    · exact .inr h
  case h_2 => exact .inr h

/-- The one trap token of a cell enters the input queue at once where none of the cell's own waits in it (R237). -/
theorem Cell.own_mem_fillOwn {c : Cell} {k : Token} (h : c.trapQ = [k]) (hnone : ∀ j, .own j ∉ c.inQ) :
    .own k ∈ c.fillOwn.inQ := by
  unfold fillOwn
  simp only [h]
  rw [if_pos]
  · exact own_mem_frontOf ..
  · rw [List.filter_eq_nil_iff.2]
    · decide
    · rintro (_ | _ | j | _) hi
      · simp
      · simp
      · exact absurd hi (hnone j)
      · simp

/-- A trapped strand leaves the cell, its entry is TRAPPED, and H4 to H6 take three words (R159 steps 1 and 2). -/
def State.markTrapped (s : State) (p : Nat) (v : Strand) (i : Nat) (e : DirEntry) (pending : Bool) (h4 h5 h6 : Word) :
    State :=
  s.modCell p (fun c => ((c.removeStrand v).putWords (e.hdr.base.toNat + 4) [h4, h5, h6]).modDir i
    (fun e => { e with state := .trapped, trapPending := pending }))

/-- The trap token of a trap with a trap word (R159). -/
def State.trapToken (s : State) (p : Nat) (v : Strand) (e : DirEntry) (w : Word) : Token :=
  { value := w, stamp := v.stamp, flow := v.flow, iteration := v.iteration
    addr := e.hdr.handler, port := 0, cell := BitVec.ofNat 8 (s.idOf p), cls := 0
    pair := false, replay := false, spilled := false, late := false, ordered := false, fmt := 3 }

/-- A trap's token goes to its handler, or its notice to the station of a pair (R159, R327). -/
def State.notifyTrap (s : State) (p : Nat) (v : Strand) (e : DirEntry) (handler paired : Bool) (w : Word) : State :=
  if handler then s.modCell p (fun c => { c with trapQ := c.trapQ ++ [s.trapToken p v e w] }.fillOwn)
  else if paired then s.modCell p (fun c => { c with notices := c.notices ++ [(v, w)] })
  else s

section
variable {s : State} {p slot i : Nat} {v : Strand} {e : DirEntry}

/-- A trap in a LIVE activation, step by step (R159, R161). -/
theorem State.trapStrand_eq (h : (s.cell p).Entered v.flow v.iteration i e) (hlive : e.state = .live)
    (cause : TrapCause) (code : Nat) (info : Word) (write : Bool) :
    s.trapStrand p slot v cause code info write =
      ((((((s.markTrapped p v i e (e.hdr.hen && !s.isPaired p) (trapWord cause false code v.pc) (s.ssOf p v slot)
        info).raise srcCellTrap (cellMaster p) (cause.accessType write) info (trapWord cause false code v.pc)
        ).stopActivation p v.flow v.iteration).reportAbort p v.flow v.iteration e.hdr.hen (v.seqAt 0)).notifyTrap p v e
        (e.hdr.hen && !s.isPaired p) (s.isPaired p) (trapWord cause false code v.pc))).frameCheck p v.flow v.iteration := by
  have hdouble : decide (e.state = .trapped) = false := by simp [hlive]
  unfold trapStrand
  simp only [h.pair, hdouble, Bool.not_false, Bool.and_true, Bool.false_eq_true, if_false]
  rfl

variable (s p v i e) in
theorem State.markTrapped_work (pending : Bool) (h4 h5 h6 : Word) :
    CellWork p s (s.markTrapped p v i e pending h4 h5 h6) := .modCell ..

/-- Of the cell, the mark of a trap changes what the strand's leaving does, the frame store and the directory. -/
theorem State.markTrapped_cell (s : State) (p : Nat) (v : Strand) (i : Nat) (e : DirEntry) (pending : Bool)
    (h4 h5 h6 : Word) : ∃ fr d, (s.markTrapped p v i e pending h4 h5 h6).cell p =
      { (s.cell p).without v.uid with frame := fr, dir := d } := by
  obtain ⟨fr, d, hmod⟩ := Cell.modDir_rest (((s.cell p).removeStrand v).putWords (e.hdr.base.toNat + 4) [h4, h5, h6]) i
    (fun e => { e with state := .trapped, trapPending := pending })
  obtain ⟨fr', d', hrem⟩ := Cell.removeStrand_rest (s.cell p) v
  refine ⟨fr, d, ?_⟩
  rw [markTrapped, cell_modCell_same, hmod, Cell.putWords, hrem]

theorem State.uid_ne_of_mem_markTrapped {pending : Bool} {h4 h5 h6 : Word} {y : Strand}
    (hy : y ∈ ((s.markTrapped p v i e pending h4 h5 h6).cell p).strands) : y.uid ≠ v.uid := by
  obtain ⟨fr, d, hc⟩ := s.markTrapped_cell p v i e pending h4 h5 h6
  obtain ⟨fr', d', hrem⟩ := Cell.removeStrand_rest (s.cell p) v
  refine Cell.uid_ne_of_mem_removeStrand (c := s.cell p) (t := v) ?_
  rw [hrem]
  rw [hc] at hy
  exact hy

/-- The entry of an activation that has trapped (R159). -/
def DirEntry.trapped (e : DirEntry) (v : Strand) (pending : Bool) : DirEntry :=
  { e.freed v with state := .trapped, trapPending := pending }

theorem State.markTrapped_entered (h : (s.cell p).Entered v.flow v.iteration i e) (pending : Bool) (h4 h5 h6 : Word) :
    ((s.markTrapped p v i e pending h4 h5 h6).cell p).Entered v.flow v.iteration i (e.trapped v pending) := by
  rw [markTrapped, cell_modCell_same]
  exact Cell.Entered.modDir (f := fun e => { e with state := .trapped, trapPending := pending })
    (h.removeStrand.congr rfl) rfl rfl

/-- H4 to H6 hold the three words: the write of H3 comes after them and lies before them (R145, R159). -/
theorem State.markTrapped_words (h : (s.cell p).Entered v.flow v.iteration i e) (pending : Bool) (h4 h5 h6 : Word) :
    ((s.markTrapped p v i e pending h4 h5 h6).cell p).word (e.hdr.base.toNat + 4) = h4 ∧
    ((s.markTrapped p v i e pending h4 h5 h6).cell p).word (e.hdr.base.toNat + 5) = h5 ∧
    ((s.markTrapped p v i e pending h4 h5 h6).cell p).word (e.hdr.base.toNat + 6) = h6 := by
  have hdir : (((s.cell p).removeStrand v).putWords (e.hdr.base.toNat + 4) [h4, h5, h6]).dir[i]? = some (e.freed v) :=
    h.removeStrand.2
  have hword {w : Nat} (hw : w ≠ e.hdr.base.toNat + 3) := Cell.word_modDir (w := w) hdir
    (f := fun e => { e with state := .trapped, trapPending := pending }) rfl hw
  rw [markTrapped, cell_modCell_same, hword (by omega), hword (by omega), hword (by omega)]
  simp only [Cell.putWords_cons, Cell.putWords_nil]
  refine ⟨?_, ?_, Cell.word_putWord_same ..⟩
  · rw [Cell.word_putWord_other _ _ (by omega), Cell.word_putWord_other _ _ (by omega), Cell.word_putWord_same]
  · rw [Cell.word_putWord_other _ _ (by omega), Cell.word_putWord_same]

/-- The notice of a trap changes queues of the cell alone. -/
theorem State.notifyTrap_rest (s : State) (p : Nat) (v : Strand) (e : DirEntry) (handler paired : Bool) (w : Word) :
    CellWork p s (s.notifyTrap p v e handler paired w) ∧ (s.notifyTrap p v e handler paired w).dsp = s.dsp ∧
    ∃ q tq ns, (s.notifyTrap p v e handler paired w).cell p =
      { s.cell p with inQ := q, trapQ := tq, notices := ns } := by
  unfold notifyTrap
  split
  · obtain ⟨q, tq, hc⟩ := Cell.fillOwn_rest { s.cell p with trapQ := (s.cell p).trapQ ++ [s.trapToken p v e w] }
    exact ⟨.modCell .., rfl, q, tq, _, by rw [cell_modCell_same, hc]⟩
  · split
    · exact ⟨.modCell .., rfl, _, _, _, by rw [cell_modCell_same]⟩
    · exact ⟨.refl p s, rfl, _, _, _, rfl⟩

/-- A report to the collector changes the collector alone. -/
theorem State.raise_rest (s : State) (n : Nat) (m : BitVec 10) (x : BitVec 3) (a w : Word) :
    s.raise n m x a w = { s with flt := (s.raise n m x a w).flt } := by
  unfold raise
  split <;> rfl

/-- A report to the collector is the same for a state that differs in its cells alone. -/
theorem State.raise_flt_modCell (s : State) (p : Nat) (f : Cell → Cell) (n : Nat) (m : BitVec 10) (x : BitVec 3)
    (a w : Word) : ((s.modCell p f).raise n m x a w).flt = (s.raise n m x a w).flt := by
  unfold raise
  simp only [modCell_mode, modCell_flt, modCell_zen]
  split <;> simp

/-- What follows the report of a trap: the activation's other strands stop, the dispatcher hears of the abort, the handler
or the station is told, and the frame is freed where nothing keeps it (R159). -/
def State.afterTrap (s : State) (p : Nat) (v : Strand) (e : DirEntry) (handler paired : Bool) (w : Word) : State :=
  (((s.stopActivation p v.flow v.iteration).reportAbort p v.flow v.iteration e.hdr.hen (v.seqAt 0)).notifyTrap p v e
    handler paired w).frameCheck p v.flow v.iteration

theorem State.afterTrap_rest (s : State) (p : Nat) (v : Strand) (e : DirEntry) (handler paired : Bool) (w : Word) :
    CellWork p s (s.afterTrap p v e handler paired w) ∧
    (∀ z ∈ ((s.afterTrap p v e handler paired w).cell p).slots, ∃ y ∈ (s.cell p).strands, y.uid = z.2.uid) ∧
    (∀ i e₁, (s.cell p).Entered v.flow v.iteration i e₁ → ∀ a, a ≠ e₁.hdr.base.toNat + 3 →
      ((s.afterTrap p v e handler paired w).cell p).word a = (s.cell p).word a) ∧
    ∀ lid, s.isSched p = false → s.lidOf p = some lid → ∃ l, (s.afterTrap p v e handler paired w).dsp.reports =
      s.dsp.reports ++ .abort lid v.flow v.iteration e.hdr.hen :: l := by
  have hstops := s.stopActivation_stops p v.flow v.iteration
  obtain ⟨hwork₁, ⟨en, hq, hc₁⟩, hr₁⟩ := (s.stopActivation p v.flow v.iteration).reportAbort_rest p v.flow v.iteration
    e.hdr.hen (v.seqAt 0)
  obtain ⟨hwork₂, hdsp₂, q, tq, ns, hc₂⟩ := ((s.stopActivation p v.flow v.iteration).reportAbort p v.flow v.iteration
    e.hdr.hen (v.seqAt 0)).notifyTrap_rest p v e handler paired w
  obtain ⟨hwork₃, ⟨out, ns', d, hc₃⟩, l, hr₃⟩ := (((s.stopActivation p v.flow v.iteration).reportAbort p v.flow
    v.iteration e.hdr.hen (v.seqAt 0)).notifyTrap p v e handler paired w).frameCheck_rest p v.flow v.iteration
  rw [← afterTrap] at hwork₃ hc₃ hr₃
  have hslots : ((s.afterTrap p v e handler paired w).cell p).slots =
      ((s.stopActivation p v.flow v.iteration).cell p).slots := by rw [hc₃, hc₂, hc₁]
  have hframe : ((s.afterTrap p v e handler paired w).cell p).frame =
      ((s.stopActivation p v.flow v.iteration).cell p).frame := by rw [hc₃, hc₂, hc₁]
  refine ⟨((hstops.work.trans hwork₁).trans hwork₂).trans hwork₃, fun z hz => ?_, fun i e₁ h a ha => ?_,
    fun lid hsched hlid => ⟨l, ?_⟩⟩
  · exact hstops.uids z.2 (Cell.mem_strands_of_mem_slots (hslots ▸ hz))
  · rw [Cell.word, hframe]
    exact hstops.words i e₁ h a ha
  · rw [hr₃, hdsp₂, hr₁ lid (by rw [hstops.work.isSched, hsched]) (by rw [hstops.work.lidOf, hlid]), hstops.reports,
      List.append_assoc, List.singleton_append]

/-- With a handler the entry stays, and the token goes to the cell's own queue (R159, R237). -/
theorem State.notifyTrap_handler (h : (s.cell p).Entered v.flow v.iteration i e) (hpend : e.trapPending = true)
    (e₀ : DirEntry) (paired : Bool) (w : Word) {t : State}
    (ht : t = (s.notifyTrap p v e₀ true paired w).frameCheck p v.flow v.iteration) :
    e ∈ (t.cell p).dir ∧
    (.own (s.trapToken p v e₀ w) ∈ (t.cell p).inQ ∨ s.trapToken p v e₀ w ∈ (t.cell p).trapQ) ∧
    ((s.cell p).trapQ = [] → (∀ j, .own j ∉ (s.cell p).inQ) → .own (s.trapToken p v e₀ w) ∈ (t.cell p).inQ) := by
  have hnotify : (s.notifyTrap p v e₀ true paired w).cell p =
      { s.cell p with trapQ := (s.cell p).trapQ ++ [s.trapToken p v e₀ w] }.fillOwn := by
    rw [notifyTrap, if_pos rfl, cell_modCell_same]
  obtain ⟨-, -, q, tq, ns, hc⟩ := s.notifyTrap_rest p v e₀ true paired w
  have hentered : ((s.notifyTrap p v e₀ true paired w).cell p).Entered v.flow v.iteration i e := h.congr (by rw [hc])
  rw [frameCheck_of_kept hentered (.inr (.inr (.inr hpend)))] at ht
  obtain ⟨out, ns', hsent⟩ := ((s.notifyTrap p v e₀ true paired w).sendNotices_sends p v.flow v.iteration).cell
  rw [← ht] at hsent
  have hdir : (t.cell p).dir = ((s.notifyTrap p v e₀ true paired w).cell p).dir := by rw [hsent]
  have hin : (t.cell p).inQ = ((s.notifyTrap p v e₀ true paired w).cell p).inQ := by rw [hsent]
  have htrap : (t.cell p).trapQ = ((s.notifyTrap p v e₀ true paired w).cell p).trapQ := by rw [hsent]
  rw [hdir, hin, htrap]
  refine ⟨List.mem_of_getElem? hentered.2, ?_, fun hempty hnone => ?_⟩
  · rw [hnotify]
    exact Cell.mem_fillOwn (List.mem_append_right _ (List.mem_singleton_self _))
  · rw [hnotify]
    exact Cell.own_mem_fillOwn (by rw [hempty, List.nil_append]) hnone

theorem State.afterTrap_handler (h : (s.cell p).Entered v.flow v.iteration i e) (hpend : e.trapPending = true)
    (e₀ : DirEntry) (paired : Bool) (w : Word) :
    (∃ b, { e with busy := b } ∈ ((s.afterTrap p v e₀ true paired w).cell p).dir) ∧
    (.own (s.trapToken p v e₀ w) ∈ ((s.afterTrap p v e₀ true paired w).cell p).inQ ∨
      s.trapToken p v e₀ w ∈ ((s.afterTrap p v e₀ true paired w).cell p).trapQ) ∧
    ((s.cell p).trapQ = [] → (∀ j, .own j ∉ (s.cell p).inQ) →
      .own (s.trapToken p v e₀ w) ∈ ((s.afterTrap p v e₀ true paired w).cell p).inQ) := by
  have hstops := s.stopActivation_stops p v.flow v.iteration
  obtain ⟨b, hentered⟩ := hstops.entry i e h
  obtain ⟨hwork, ⟨en, hq, hc⟩, -⟩ := (s.stopActivation p v.flow v.iteration).reportAbort_rest p v.flow v.iteration
    e₀.hdr.hen (v.seqAt 0)
  obtain ⟨hdir, htoken, hempty⟩ := notifyTrap_handler (hentered.congr (by rw [hc])) hpend e₀ paired w
    (t := s.afterTrap p v e₀ true paired w) rfl
  rw [trapToken, (hstops.work.trans hwork).idOf, ← trapToken] at htoken hempty
  refine ⟨⟨b, hdir⟩, htoken, fun htq hnone => hempty ?_ fun j => ?_⟩
  · rw [hc]; exact hstops.trapQ.trans htq
  · rw [hc]; exact hstops.inQ ▸ hnone j

/-- What a trap of a strand in a LIVE activation leaves (R159 to R162, R237, R327). -/
structure Trapped (s t : State) (p : Nat) (v : Strand) (e : DirEntry) (acc : BitVec 3) (w ss info : Word) : Prop where
  gone : ∀ z ∈ (t.cell p).slots, z.2.uid ≠ v.uid
  h4 : (t.cell p).word (e.hdr.base.toNat + 4) = w
  h5 : (t.cell p).word (e.hdr.base.toNat + 5) = ss
  h6 : (t.cell p).word (e.hdr.base.toNat + 6) = info
  flt : t.flt = (s.raise srcCellTrap (cellMaster p) acc info w).flt
  aborted : ∀ lid, s.isSched p = false → s.lidOf p = some lid →
    ∃ l, t.dsp.reports = s.dsp.reports ++ .abort lid v.flow v.iteration e.hdr.hen :: l
  entry : e.hdr.hen = true → s.isPaired p = false →
    ∃ e' ∈ (t.cell p).dir, e'.hdr = e.hdr ∧ e'.state = .trapped ∧ e'.trapPending = true
  token : e.hdr.hen = true → s.isPaired p = false →
    (.own (s.trapToken p v e w) ∈ (t.cell p).inQ ∨ s.trapToken p v e w ∈ (t.cell p).trapQ) ∧
    ((s.cell p).trapQ = [] → (∀ j, .own j ∉ (s.cell p).inQ) → .own (s.trapToken p v e w) ∈ (t.cell p).inQ)
  others : ∀ q, q ≠ p → t.cell q = s.cell q
  regs : t.regs = s.regs
  mem : t.mem = s.mem

/-- What the first steps of a trap leave: the strand is gone, its entry is marked, H4 to H6 are written and the trap is
reported (R159 steps 1 and 2, R162). -/
structure TrapReported (s k : State) (p : Nat) (v : Strand) (i : Nat) (e : DirEntry) (pending : Bool) (acc : BitVec 3)
    (w ss info : Word) : Prop where
  rest : k = { s with cells := k.cells, flt := (s.raise srcCellTrap (cellMaster p) acc info w).flt }
  others : ∀ q, q ≠ p → k.cell q = s.cell q
  gone : ∀ y ∈ (k.cell p).strands, y.uid ≠ v.uid
  inQ : (k.cell p).inQ = (s.cell p).inQ
  trapQ : (k.cell p).trapQ = (s.cell p).trapQ
  entered : (k.cell p).Entered v.flow v.iteration i (e.trapped v pending)
  h4 : (k.cell p).word (e.hdr.base.toNat + 4) = w
  h5 : (k.cell p).word (e.hdr.base.toNat + 5) = ss
  h6 : (k.cell p).word (e.hdr.base.toNat + 6) = info

theorem State.trapReported_of_entered (h : (s.cell p).Entered v.flow v.iteration i e) (pending : Bool) (acc : BitVec 3)
    (w ss info : Word) : TrapReported s ((s.markTrapped p v i e pending w ss info).raise srcCellTrap (cellMaster p) acc
      info w) p v i e pending acc w ss info := by
  have hcell (q) : ((s.markTrapped p v i e pending w ss info).raise srcCellTrap (cellMaster p) acc info w).cell q =
      (s.markTrapped p v i e pending w ss info).cell q := by rw [raise_rest]; rfl
  obtain ⟨h4, h5, h6⟩ := markTrapped_words h pending w ss info
  obtain ⟨fr, d, hc⟩ := s.markTrapped_cell p v i e pending w ss info
  have hcells : ((s.markTrapped p v i e pending w ss info).raise srcCellTrap (cellMaster p) acc info w).cells =
      (s.markTrapped p v i e pending w ss info).cells := (congrArg State.cells (raise_rest ..)).trans rfl
  have hflt : ((s.markTrapped p v i e pending w ss info).raise srcCellTrap (cellMaster p) acc info w).flt =
      (s.raise srcCellTrap (cellMaster p) acc info w).flt := raise_flt_modCell ..
  refine ⟨?_, fun q hq => ?_, fun y hy => ?_, ?_, ?_, ?_, ?_, ?_, ?_⟩
  · rw [hcells, ← hflt]
    exact raise_rest ..
  · rw [hcell, (s.markTrapped_work p i v e pending w ss info).others q hq]
  · exact uid_ne_of_mem_markTrapped (hcell p ▸ hy)
  · rw [hcell, hc]
    rfl
  · rw [hcell, hc]
    rfl
  · rw [hcell]
    exact markTrapped_entered h pending w ss info
  · rw [hcell, h4]
  · rw [hcell, h5]
  · rw [hcell, h6]

/-- What follows leaves the marks of the trap, and reports the abort. -/
theorem Trapped.of_reported {k : State} {acc : BitVec 3} {w ss info : Word}
    (h : TrapReported s k p v i e (e.hdr.hen && !s.isPaired p) acc w ss info) :
    Trapped s (k.afterTrap p v e (e.hdr.hen && !s.isPaired p) (s.isPaired p) w) p v e acc w ss info := by
  have hsched : k.isSched = s.isSched := (congrArg State.isSched h.rest).trans rfl
  have hlid : k.lidOf = s.lidOf := (congrArg State.lidOf h.rest).trans rfl
  have hdsp : k.dsp = s.dsp := (congrArg State.dsp h.rest).trans rfl
  have htoken : k.trapToken p v e w = s.trapToken p v e w :=
    (congrArg (fun s : State => s.trapToken p v e w) h.rest).trans rfl
  obtain ⟨hwork, hslots, hwords, haborted⟩ := k.afterTrap_rest p v e (e.hdr.hen && !s.isPaired p) (s.isPaired p) w
  have hkept (a) (ha : a ≠ e.hdr.base.toNat + 3) := hwords i _ h.entered a ha
  have hhandler (hhen : e.hdr.hen = true) (hpair : s.isPaired p = false) :
      (e.hdr.hen && !s.isPaired p) = true := by simp [hhen, hpair]
  refine ⟨fun z hz => ?_, ?_, ?_, ?_, ?_, fun lid hs hl => ?_, fun hhen hpair => ?_, fun hhen hpair => ?_,
    fun q hq => ?_, ?_, ?_⟩
  · obtain ⟨y, hy, hyz⟩ := hslots z hz
    exact hyz ▸ h.gone y hy
  · rw [hkept _ (by omega), h.h4]
  · rw [hkept _ (by omega), h.h5]
  · rw [hkept _ (by omega), h.h6]
  · rw [hwork.flt]
    exact (congrArg State.flt h.rest).trans rfl
  · obtain ⟨l, hl⟩ := haborted lid (by rw [hsched, hs]) (by rw [hlid, hl])
    exact ⟨l, by rw [hl, hdsp]⟩
  · rw [hhandler hhen hpair] at h ⊢
    obtain ⟨⟨b, hb⟩, -⟩ := k.afterTrap_handler h.entered rfl e (s.isPaired p) w
    exact ⟨_, hb, rfl, rfl, rfl⟩
  · rw [hhandler hhen hpair] at h ⊢
    obtain ⟨-, hown, hempty⟩ := k.afterTrap_handler h.entered rfl e (s.isPaired p) w
    rw [htoken, h.inQ, h.trapQ] at hempty
    exact ⟨htoken ▸ hown, hempty⟩
  · rw [hwork.others q hq, h.others q hq]
  · rw [hwork.regs]
    exact (congrArg State.regs h.rest).trans rfl
  · rw [hwork.mem]
    exact (congrArg State.mem h.rest).trans rfl

theorem State.trapStrand_of_live (h : (s.cell p).Entered v.flow v.iteration i e) (hlive : e.state = .live)
    (cause : TrapCause) (code : Nat) (info : Word) (write : Bool) :
    Trapped s (s.trapStrand p slot v cause code info write) p v e (cause.accessType write)
      (trapWord cause false code v.pc) (s.ssOf p v slot) info := by
  rw [trapStrand_eq h hlive]
  exact .of_reported (trapReported_of_entered h ..)

/-- An instruction that traps writes its pending multiply first, which the trap does not show (R106, R135). -/
theorem State.trapStrand_flushMul_of_live (h : (s.cell p).Entered v.flow v.iteration i e) (hlive : e.state = .live)
    (cause : TrapCause) (code : Nat) (info : Word) (write : Bool) :
    Trapped s (s.trapStrand p slot v.flushMul cause code info write) p v e (cause.accessType write)
      (trapWord cause false code v.pc) (s.ssOf p v slot) info := by
  rw [Strand.flushMul_eq]
  have k := trapStrand_of_live (slot := slot) (v := { v with
    pl := (v.mulPend.map (BitVec.setWidth 32)).getD v.pl
    ph := (v.mulPend.map (fun m : BitVec 64 => (m >>> 32).setWidth 32)).getD v.ph, mulPend := none }) h hlive cause code
    info write
  exact ⟨k.gone, k.h4, k.h5, k.h6, k.flt, k.aborted, k.entry, k.token, k.others, k.regs, k.mem⟩

/-- That the slot has issued changes nothing of it. -/
theorem Trapped.hasIssued {t : State} {acc : BitVec 3} {w ss info : Word} (h : Trapped s t p v e acc w ss info) :
    Trapped s (State.hasIssued p slot t) p v e acc w ss info where
  gone := by simpa using h.gone
  h4 := by simpa using h.h4
  h5 := by simpa using h.h5
  h6 := by simpa using h.h6
  flt := by simpa using h.flt
  aborted := by simpa using h.aborted
  entry := by simpa using h.entry
  token := by simpa using h.token
  others q hq := (State.hasIssued_cell_other p slot t hq).trans (h.others q hq)
  regs := by simpa using h.regs
  mem := by simpa using h.mem

end

end Sys2Proof.Machine
end

section
namespace Sys2Proof.Machine
open Sys2Proof.Safety

theorem tfind_map {α : Type} {f : Nat × α → Nat × α} (hf : ∀ e, (f e).1 = e.1) (l : Table α) (k : Nat) :
    tfind (l.map f) k = (tfind l k).map (fun v => (f (k, v)).2) := by
  induction l with
  | nil => rfl
  | cons e l ih =>
    obtain ⟨k', v⟩ := e
    simp only [List.map_cons, tfind]
    rw [show (f (k', v)) = (k', (f (k', v)).2) from Prod.ext (hf _) rfl]
    split
    case isTrue h => subst h; rfl
    case isFalse => exact ih

/-! ### A partition is halted (R487) -/

theorem State.transit_halted (s : State) (new : Mode) (cause : Nat) :
    (s.transit new cause).mode.halted = s.mode.halted := by
  unfold transit
  dsimp only
  split <;> simp

/-- The mode follows the halted partitions, or stays. -/
theorem State.settle_eq (s : State) : s.settle = s ∨ ∃ new cause, s.settle = s.transit new cause := by
  have hto (new : Mode) (cause : Nat) : (if new = s.mode.mode then s else s.transit new cause) = s ∨
      ∃ new' cause', (if new = s.mode.mode then s else s.transit new cause) = s.transit new' cause' := by
    split
    · exact .inl rfl
    · exact .inr ⟨_, _, rfl⟩
  unfold settle
  split
  · exact hto ..
  · exact .inl rfl

/-- Neither the cells nor the memories change with it, nor which partitions are halted. -/
theorem State.settle_rest (s : State) :
    s.settle.mode.halted = s.mode.halted ∧ s.settle.cells = s.cells ∧ s.settle.mem = s.mem := by
  obtain h | ⟨new, cause, h⟩ := s.settle_eq
  · rw [h]; exact ⟨rfl, rfl, rfl⟩
  · rw [h]; exact ⟨s.transit_halted .., s.transit_cells .., s.transit_mem ..⟩

/-- A Dynamic partition is halted at once, a Scheduled one asks for its next boundary (R219, R487). -/
theorem State.haltPartition_rest (s : State) {part : Nat} (hp : part < 8) :
    (s.haltPartition part).cells = s.cells ∧ (s.haltPartition part).mem = s.mem ∧
    ((s.partition part).sched = false → (s.haltPartition part).mode.halted.getLsbD part = true) ∧
    ((s.partition part).sched = true →
      ((s.haltPartition part).part part).haltAsk = true ∧ (s.haltPartition part).mode = s.mode) := by
  unfold haltPartition
  split
  case isTrue h => exact ⟨modPart_cells .., modPart_mem .., fun hno => absurd h (by simp [hno]), fun _ => by simp⟩
  case isFalse h =>
    obtain ⟨hhalted, hcells, hmem⟩ :=
      ({ s with mode := { s.mode with halted := s.mode.halted ||| (1 : BitVec 8) <<< part } } : State).settle_rest
    refine ⟨hcells, hmem, fun _ => ?_, fun hyes => absurd hyes h⟩
    rw [hhalted]
    simp [hp]

/-! ### A strand stops for the debugger (R487) -/

/-- The strand as the debug list holds it. -/
def Strand.held (t : Strand) : Strand := { t with wait := .nothing, stepping := false }

/-- The cell with a strand moved from its slot to the debug list, its state saved in its record. -/
def Cell.holdStrand (c : Cell) (t : Strand) (slot : Nat) : Cell :=
  { c with
    slots := c.slots.filter (fun e => e.2.uid ≠ t.uid)
    debugList := c.debugList ++ [t.held] }.saveStrand t.held slot 2

/-- The main of a pair sends a debug stop (R330). -/
def State.sendStop (p : Nat) (t : Strand) (s : State) : State :=
  if s.isPaired p && !s.checks p then s.pairSend p .s .debugStop t.held (BitVec.ofNat 32 t.executed) else s

theorem State.sendStop_sends (p : Nat) (t : Strand) (s : State) : Sends p s (s.sendStop p t) := by
  unfold sendStop
  split
  · exact s.pairSend_sends ..
  · exact .refl p s

/-- Where the debug list has room, the strand goes there and its partition is halted. -/
theorem State.debugHold_eq {s : State} {p slot part : Nat} {t : Strand} (hroom : (s.cell p).listRoom = true)
    (hpart : s.partOfCell p = some part) : s.debugHold p slot t = State.sendStop p t
      ((s.modCell p (fun c => c.holdStrand t (if s.isPaired p then 0 else slot))).haltPartition part) := by
  unfold debugHold
  rw [if_pos hroom]
  dsimp only
  rw [show State.partOfCell (s.modCell p _) p = some part from hpart]
  rfl

/-- A strand that stops for the debugger: it leaves its slot for the debug list, and its partition is halted. -/
theorem State.debugHold_rest {s : State} {p slot part : Nat} {t : Strand} (hroom : (s.cell p).listRoom = true)
    (hpart : s.partOfCell p = some part) (h8 : part < 8) :
    (∃ out ns fr, (s.debugHold p slot t).cell p = { s.cell p with
      outQ := out, notices := ns, frame := fr, slots := (s.cell p).slots.filter (fun e => e.2.uid ≠ t.uid)
      debugList := (s.cell p).debugList ++ [t.held] }) ∧
    ((s.partition part).sched = false → (s.debugHold p slot t).mode.halted.getLsbD part = true) ∧
    ((s.partition part).sched = true →
      ((s.debugHold p slot t).part part).haltAsk = true ∧ (s.debugHold p slot t).mode = s.mode) ∧
    (∀ q, q ≠ p → (s.debugHold p slot t).cell q = s.cell q) ∧ (s.debugHold p slot t).mem = s.mem := by
  rw [debugHold_eq hroom hpart]
  generalize (if s.isPaired p then 0 else slot) = n
  have hhalt := (s.modCell p (fun c => c.holdStrand t n)).haltPartition_rest h8
  have hcell (q) : ((s.modCell p (fun c => c.holdStrand t n)).haltPartition part).cell q =
      (s.modCell p (fun c => c.holdStrand t n)).cell q := by rw [cell, hhalt.1, ← cell]
  generalize (s.modCell p (fun c => c.holdStrand t n)).haltPartition part = k at *
  obtain ⟨-, hmem, hdynamic, hsched⟩ := hhalt
  have hsends := k.sendStop_sends p t
  have hseq : (k.sendStop p t).part part = k.part part :=
    (congrArg (fun s : State => s.part part) hsends.work.rest).trans rfl
  obtain ⟨out, ns, hc⟩ := hsends.cell
  refine ⟨⟨out, ns, ((s.cell p).holdStrand t n).frame, ?_⟩, fun h => ?_, fun h => ?_, fun q hq => ?_, ?_⟩
  · rw [hc, hcell, cell_modCell_same]
    rfl
  · rw [hsends.work.mode]
    exact hdynamic h
  · rw [hsends.work.mode, hseq]
    exact hsched h
  · rw [hsends.work.others q hq, hcell, cell_modCell_other _ _ hq]
  · rw [hsends.work.mem, hmem, modCell_mem]

/-! ### BRK (R136, R487) -/

section
variable {s : State} {pcell slot : Nat} {x : Ctx}

/-- The cell with the strands of a number marked as stepped, or not. -/
def Cell.setStepping (c : Cell) (uid : Nat) (b : Bool) : Cell :=
  { c with slots := c.slots.map (fun e => if e.2.uid = uid then (e.1, { e.2 with stepping := b }) else e) }

/-- A strand whose mark is already so stays as it is. -/
theorem Cell.strand_setStepping {c : Cell} {uid slot : Nat} {b : Bool} {u : Strand} (hs : c.strand slot = some u)
    (hu : u.stepping = b) : (c.setStepping uid b).strand slot = some u := by
  subst hu
  have hs : tfind c.slots slot = some u := hs
  rw [strand, setStepping, tfind_map (by intro e; split <;> rfl), hs, Option.map_some]
  split <;> rfl

/-- What BRK does, by where its strand stands (R136, R488). -/
def Ctx.breakPoint (pcell slot : Nat) (x : Ctx) : State :=
  if x.t.dying then (x.s.dropStrand pcell x.t.flushMul).frameCheck pcell x.t.flow x.t.iteration
  else if x.s.attachedCell pcell ∧ ¬ x.t.passBrk then x.s.debugHold pcell slot x.t.flushMul
  else
    let t := { x.t.flushMul with passBrk := false, wait := .nothing }
    let u := { t with stepping := t.stepping && !x.t.passBrk }.advance x.ins.len none
    let s := x.s.settleStrand pcell slot u false
    let s := s.modCell pcell (fun c => c.setStepping t.uid t.stepping)
    s.pass pcell slot

theorem exec_brk (h : Issues s pcell slot .brk x) :
    exec (.brk pcell slot) s = .next (State.hasIssued pcell slot (x.breakPoint pcell slot)) :=
  exec_of_issues (effect := fun x => x.breakPoint pcell slot) h rfl

end

end Sys2Proof.Machine
end

section
open Sys2Proof Sys2Proof.Machine Sys2Proof.Safety

namespace Sys2Proof.Machine
section
variable {s : State} {pcell slot i lid : Nat} {x : Ctx} {e : DirEntry}

theorem exec_endStrand (h : Issues s pcell slot .endStrand x) :
    exec (.endStrand pcell slot) s = .next (State.hasIssued pcell slot (s.endStrand pcell x.t)) := by
  obtain ⟨hs, hp, -⟩ := h.here
  have hexec := exec_of_issues (c := .endStrand pcell slot) (effect := fun x => x.s.endStrand x.pcell x.t) h rfl
  rwa [hs, hp] at hexec

theorem uid_ne_of_mem_hasIssued_endStrand {v : Strand} :
    ∀ z ∈ ((State.hasIssued pcell slot (s.endStrand pcell v)).cell pcell).slots, z.2.uid ≠ v.uid := by
  intro z hz
  rw [State.hasIssued_slots] at hz
  exact State.uid_ne_of_mem_endStrand hz

theorem exec_endr (h : Issues s pcell slot .endr x) :
    exec (.endr pcell slot) s = .next (State.hasIssued pcell slot x.endActivation) :=
  exec_of_issues (effect := fun x => x.endActivation) h rfl

theorem exec_trap (h : Issues s pcell slot .trap x) : exec (.trap pcell slot) s =
    .next (State.hasIssued pcell slot (s.trapStrand pcell slot x.t.flushMul .trap (fld x.ins.imm 9 0) 0 false)) := by
  obtain ⟨hs, hp, hl⟩ := h.here
  have hexec := exec_of_issues (c := .trap pcell slot)
    (effect := fun x => x.trap .trap 0 false (fld x.ins.imm 9 0)) h rfl
  rwa [Ctx.trap, hs, hp, hl] at hexec

/-- The instruction word that H6 takes of an undefined encoding: a 16-bit one alone in its parcel (R100, R160). -/
theorem undefined_info (w : Word) : (if wordLen w = 1 then BitVec.ofNat 32 (fld w 15 0) else w) =
    if fld w 15 14 = 3 then w else BitVec.ofNat 32 (fld w 15 0) := by
  unfold wordLen
  by_cases h : fld w 15 14 = 3 <;> simp [h]

theorem exec_undefinedEncoding {v : Strand} (hcell : pcell < s.variant.pcells) (hslot : slot < 8)
    (hstrand : (s.cell pcell).strand slot = some v) (hdec : (s.cell pcell).decodeAt v = none)
    (hmay : s.mayIssue pcell slot v = true)
    (hfetch : s.fetchPoison pcell v (wordLen ((s.cell pcell).fetchWord v)) = none) :
    exec (.undefinedEncoding pcell slot) s = .next (State.hasIssued pcell slot (s.trapStrand pcell slot v.flushMul .udf
      0 (if fld ((s.cell pcell).fetchWord v) 15 14 = 3 then (s.cell pcell).fetchWord v
        else BitVec.ofNat 32 (fld ((s.cell pcell).fetchWord v) 15 0)) false)) := by
  rw [← undefined_info]
  show execUndefinedEncoding pcell slot s = _
  unfold execUndefinedEncoding unitOk
  simp only [hcell, hslot, and_self, decide_true, if_true, hstrand, hdec, hmay, Option.isSome_none, Bool.false_eq_true,
    not_true_eq_false, or_self, if_false, hfetch]

/-- The trap word of a cause that comes first on its strand (R160). -/
theorem trapWord_false (cause : TrapCause) (code : Nat) (pc : BitVec 14) :
    trapWord cause false code pc = BitVec.ofNat 32 (cause.code + code % 1024 * 2 ^ 8 + pc.toNat * 2 ^ 18) := rfl

/-- The first ENDR of an activation that is not Scheduled completes it and releases the flow's locks (R151). -/
theorem exec_endr_of_first (h : Issues s pcell slot .endr x) (hentered : (s.cell pcell).Entered x.t.flow x.t.iteration i e)
    (hsched : e.scheduled = false) (hcomplete : e.complete = false) (hlid : s.lidOf pcell = some lid) :
    ∃ t, exec (.endr pcell slot) s = .next t ∧ CellWork pcell s t ∧ (∀ z ∈ (t.cell pcell).slots, z.2.uid ≠ x.t.uid) ∧
      (∃ l, t.dsp.reports = s.dsp.reports ++ .completion lid x.t.flow x.t.iteration :: l) ∧
      ∀ k ∈ (s.cell pcell).held, k.flow = x.t.flow →
        ∃ r ∈ (t.cell pcell).houseQ, r.what = .release x.t.flow ∧ r.ea = k.addr ∧ r.op = 0x53 ∧
          r.data = lockWord (s.idOf pcell) x.t.flow 0 0 := by
  obtain ⟨rfl, rfl, -⟩ := h.here
  obtain ⟨hwork, hgone, hreports, hreleased⟩ := Ctx.endActivation_rest hentered hsched hcomplete hlid
  refine ⟨_, exec_endr h, hwork.trans (.hasIssued x.pcell slot _), fun z hz => ?_, ?_, fun k hk hf => ?_⟩
  · rw [State.hasIssued_slots] at hz
    exact hgone z hz
  · rw [State.hasIssued_dsp]
    exact hreports
  · obtain ⟨q, hq⟩ := hreleased k hk hf
    rw [State.hasIssued_houseQ]
    exact ⟨_, hq, rfl, rfl, rfl, rfl⟩

/-- The ENDR of an activation that is over, or Scheduled, is an END (R151). -/
theorem exec_endr_of_over (h : Issues s pcell slot .endr x) (hentered : (s.cell pcell).Entered x.t.flow x.t.iteration i e)
    (hover : e.scheduled = true ∨ e.complete = true) :
    exec (.endr pcell slot) s = .next (State.hasIssued pcell slot (s.endStrand pcell x.t)) := by
  obtain ⟨rfl, rfl, -⟩ := h.here
  rw [exec_endr h, Ctx.endActivation_of_over hentered hover]

theorem exec_trap_of_live (h : Issues s pcell slot .trap x) (hentered : (s.cell pcell).Entered x.t.flow x.t.iteration i e)
    (hlive : e.state = .live) :
    ∃ t, exec (.trap pcell slot) s = .next t ∧
      Trapped s t pcell x.t e accToken (BitVec.ofNat 32 (6 + fld x.ins.imm 9 0 * 2 ^ 8 + x.t.pc.toNat * 2 ^ 18))
        (s.ssOf pcell x.t slot) 0 := by
  refine ⟨_, exec_trap h, Trapped.hasIssued ?_⟩
  have hcode : fld x.ins.imm 9 0 % 1024 = fld x.ins.imm 9 0 := by rw [fld_zero]; omega
  have htrap := State.trapStrand_flushMul_of_live (slot := slot) hentered hlive .trap (fld x.ins.imm 9 0) 0 false
  rwa [trapWord_false, hcode] at htrap

theorem exec_undefinedEncoding_of_live {v : Strand} (hcell : pcell < s.variant.pcells) (hslot : slot < 8)
    (hstrand : (s.cell pcell).strand slot = some v) (hdec : (s.cell pcell).decodeAt v = none)
    (hmay : s.mayIssue pcell slot v = true)
    (hfetch : s.fetchPoison pcell v (wordLen ((s.cell pcell).fetchWord v)) = none)
    (hentered : (s.cell pcell).Entered v.flow v.iteration i e) (hlive : e.state = .live) :
    ∃ t, exec (.undefinedEncoding pcell slot) s = .next t ∧
      Trapped s t pcell v e accFetch (BitVec.ofNat 32 (1 + v.pc.toNat * 2 ^ 18)) (s.ssOf pcell v slot)
        (if fld ((s.cell pcell).fetchWord v) 15 14 = 3 then (s.cell pcell).fetchWord v
          else BitVec.ofNat 32 (fld ((s.cell pcell).fetchWord v) 15 0)) := by
  refine ⟨_, exec_undefinedEncoding hcell hslot hstrand hdec hmay hfetch, Trapped.hasIssued ?_⟩
  have htrap := State.trapStrand_flushMul_of_live (slot := slot) hentered hlive .udf 0
    (if fld ((s.cell pcell).fetchWord v) 15 14 = 3 then (s.cell pcell).fetchWord v
      else BitVec.ofNat 32 (fld ((s.cell pcell).fetchWord v) 15 0)) false
  rwa [trapWord_false] at htrap

/-- A BRK of a strand that is to stop ends it (R159). -/
theorem breakPoint_of_dying (h : Issues s pcell slot .brk x) (hdying : x.t.dying = true) :
    x.breakPoint pcell slot = s.endStrand pcell x.t.flushMul := by
  obtain ⟨hs, -, -⟩ := h.here
  have hwait : x.t.flushMul.wait = .nothing := by rw [Strand.flushMul_eq]; exact h.ready.2
  have hdrop : s.dropStrand pcell x.t.flushMul = s.modCell pcell (fun c => c.removeStrand x.t.flushMul) := by
    simp only [State.dropStrand, hwait]
  rw [Ctx.breakPoint, if_pos hdying, hs, hdrop, State.endStrand]
  rw [Strand.flushMul_eq]

theorem breakPoint_of_attached (h : Issues s pcell slot .brk x) (hdying : x.t.dying = false)
    (hatt : s.attachedCell pcell = true) (hpass : x.t.passBrk = false) :
    x.breakPoint pcell slot = s.debugHold pcell slot x.t.flushMul := by
  obtain ⟨rfl, -, -⟩ := h.here
  rw [Ctx.breakPoint, if_neg (by simp [hdying]), if_pos ⟨hatt, by simp [hpass]⟩]

/-- A strand passes a BRK where nobody debugs, as a NOP: it goes on after it, a pending multiply written (R106, R136). -/
theorem breakPoint_of_not_attached (h : Issues s pcell slot .brk x) (hpass : x.t.passBrk = false)
    (hno : s.attachedCell pcell = false) (hcont : Continues (s.cell pcell) (x.t.advance x.ins.len none)) :
    CellWork pcell s (x.breakPoint pcell slot) ∧
    ((x.breakPoint pcell slot).cell pcell).frame = (s.cell pcell).frame ∧
    ((x.breakPoint pcell slot).cell pcell).debugList = (s.cell pcell).debugList ∧
    ((x.breakPoint pcell slot).cell pcell).strand slot = some (x.t.flushMul.advance x.ins.len none) := by
  obtain ⟨rfl, -, -⟩ := h.here
  have hgoes : Continues (x.s.cell pcell) (x.t.flushMul.advance x.ins.len none) := by
    refine continues_congr hcont rfl ?_ ?_ ?_ ?_ ?_ ?_ <;> simp [Strand.advance_eq, Strand.flushMul_eq]
  have hdying : x.t.dying = false := by simpa [Strand.advance_eq] using hcont.dying
  have hstep : (x.t.flushMul.advance x.ins.len none).stepping = x.t.flushMul.stepping := by simp [Strand.advance_eq]
  have hsame : { x.t.flushMul with passBrk := false, wait := .nothing } = x.t.flushMul := by
    rw [Strand.flushMul_eq, ← hpass, ← h.ready.2]
  have hstrand := Cell.strand_setStepping (uid := x.t.flushMul.uid)
    (Cell.strand_putStrand_same (x.s.cell pcell) slot _) hstep
  rw [Ctx.breakPoint, if_neg (by simp [hdying]), if_neg (by simp [hno])]
  simp only [hsame, hpass, Bool.not_false, Bool.and_true]
  rw [State.settleStrand_of_continues false hgoes, State.pass_of_continues (c := x.s.cell pcell) _ _ hgoes]
  · refine ⟨(CellWork.modCell ..).trans (.modCell ..), ?_, ?_, ?_⟩
    · rw [State.cell_modCell_same, State.cell_modCell_same]
      rfl
    · rw [State.cell_modCell_same, State.cell_modCell_same]
      rfl
    · rwa [State.cell_modCell_same, State.cell_modCell_same]
  · rwa [State.cell_modCell_same, State.cell_modCell_same]
  · rw [State.cell_modCell_same, State.cell_modCell_same]
    rfl

/-- A BRK in a partition that is not attached is a NOP (R136). -/
theorem exec_brk_of_not_attached (h : Issues s pcell slot .brk x) (hpass : x.t.passBrk = false)
    (hno : s.attachedCell pcell = false) (hcont : Continues (s.cell pcell) (x.t.advance x.ins.len none)) :
    ∃ t, exec (.brk pcell slot) s = .next t ∧
      (t.cell pcell).strand slot = some (x.t.flushMul.advance x.ins.len none) ∧
      (t.cell pcell).frame = (s.cell pcell).frame ∧ (t.cell pcell).debugList = (s.cell pcell).debugList ∧
      t.mode = s.mode ∧ (∀ q, q ≠ pcell → t.cell q = s.cell q) ∧ t.regs = s.regs := by
  obtain ⟨hwork, hframe, hlist, hslot⟩ := breakPoint_of_not_attached h hpass hno hcont
  have hissued := hwork.trans (.hasIssued pcell slot _)
  refine ⟨_, exec_brk h, ?_, ?_, ?_, hissued.mode, hissued.others, hissued.regs⟩
  · rw [State.hasIssued_strand, hslot]
  · rw [State.hasIssued_frame, hframe]
  · rw [State.hasIssued_debugList, hlist]

theorem exec_brk_of_dying (h : Issues s pcell slot .brk x) (hdying : x.t.dying = true) :
    ∃ t, exec (.brk pcell slot) s = .next t ∧ (∀ z ∈ (t.cell pcell).slots, z.2.uid ≠ x.t.uid) ∧
      (∀ z ∈ (t.cell pcell).debugList, z ∈ (s.cell pcell).debugList) ∧ t.mode = s.mode := by
  have hexec := exec_brk h
  rw [breakPoint_of_dying h hdying] at hexec
  obtain ⟨hwork, ⟨out, ns, fr, d, hc⟩, -⟩ := s.endStrand_rest pcell x.t.flushMul
  refine ⟨_, hexec, fun z hz => ?_, fun z hz => ?_, (hwork.trans (.hasIssued pcell slot _)).mode⟩
  · simpa only [Strand.flushMul_eq] using uid_ne_of_mem_hasIssued_endStrand z hz
  · rw [State.hasIssued_debugList, hc] at hz
    exact (List.mem_filter.1 hz).1

/-- A BRK in a partition that is attached stops the strand in the debug list and halts the partition (R136, R487). -/
theorem exec_brk_of_attached {p : Nat} (h : Issues s pcell slot .brk x) (hpass : x.t.passBrk = false)
    (hpart : s.partOfCell pcell = some p) (hatt : s.mode.attached.getLsbD p = true) (h8 : p < 8)
    (hroom : (s.cell pcell).listRoom = true) (hdying : x.t.dying = false) :
    ∃ t, exec (.brk pcell slot) s = .next t ∧ (∀ z ∈ (t.cell pcell).slots, z.2.uid ≠ x.t.uid) ∧
      (t.cell pcell).debugList = (s.cell pcell).debugList ++ [{ x.t.flushMul with wait := .nothing, stepping := false }] ∧
      ((s.partition p).sched = false → t.mode.halted.getLsbD p = true) ∧
      ((s.partition p).sched = true → (t.part p).haltAsk = true ∧ t.mode = s.mode) ∧
      (∀ q, q ≠ pcell → t.cell q = s.cell q) ∧ t.mem = s.mem := by
  have hexec := exec_brk h
  rw [breakPoint_of_attached h hdying (by simpa only [State.attachedCell, hpart] using hatt) hpass] at hexec
  obtain ⟨⟨out, ns, fr, hc⟩, hdynamic, hsched, hothers, hmem⟩ :=
    State.debugHold_rest (slot := slot) (t := x.t.flushMul) hroom hpart h8
  refine ⟨_, hexec, fun z hz => ?_, ?_, fun hd => ?_, fun hs => ?_, fun q hq => ?_, ?_⟩
  · rw [State.hasIssued_slots, hc] at hz
    simpa [Strand.flushMul_eq] using (List.mem_filter.1 hz).2
  · rw [State.hasIssued_debugList, hc]
    rfl
  · rw [State.hasIssued_mode]
    exact hdynamic hd
  · rw [State.hasIssued_part, State.hasIssued_mode]
    exact hsched hs
  · rw [State.hasIssued_cell_other _ _ _ hq, hothers q hq]
  · rw [State.hasIssued_mem, hmem]

end
end Sys2Proof.Machine

/-- Settles O48. A strand that ends or traps is taken out of its cell once, by `removeStrand`, and what follows changes
the cell's own part of the state alone (`CellWork`): the end of a strand is `endStrand_rest` and `frameCheck_rest`, a trap
`trapStrand_of_live`, a stop for the debugger `debugHold_rest`. -/
theorem strandsEndTrapAndBreak : Obligations.StrandsEndTrapAndBreak := by
  unfold Obligations.StrandsEndTrapAndBreak
  refine ⟨fun pcell slot i s x e h hfind hdir => ?_, fun pcell slot i lid s x e h hfind hdir hlid => ?_,
    fun pcell slot i s c v e w info acc hcause hfind hdir hlive => ?_, fun pcell slot s x h hpass _ =>
      ⟨exec_brk_of_not_attached h hpass, exec_brk_of_dying h, fun _ => exec_brk_of_attached h hpass⟩⟩
  · obtain ⟨hwork, -, -⟩ := s.endStrand_rest pcell x.t
    have hentered : (s.cell pcell).Entered x.t.flow x.t.iteration i e := ⟨hfind, hdir⟩
    have hissued := hwork.trans (.hasIssued pcell slot _)
    refine ⟨_, exec_endStrand h, uid_ne_of_mem_hasIssued_endStrand, fun hlive => ?_,
      fun lid hlive hsched htrap hbusy hlid => ?_, hissued.others, hissued.regs, hissued.mem, hissued.flt⟩
    · rw [State.hasIssued_dsp, State.hasIssued_dir]
      exact State.endStrand_of_live hentered hlive
    · rw [State.hasIssued_dsp]
      exact State.endStrand_of_last hentered hlive hsched htrap hbusy hlid
  · have hentered : (s.cell pcell).Entered x.t.flow x.t.iteration i e := ⟨hfind, hdir⟩
    by_cases hover : e.scheduled = true ∨ e.complete = true
    · obtain ⟨hwork, -, -⟩ := s.endStrand_rest pcell x.t
      have hissued := hwork.trans (.hasIssued pcell slot _)
      exact ⟨_, exec_endr_of_over h hentered hover, uid_ne_of_mem_hasIssued_endStrand,
        fun hsched hcomplete => absurd hover (by simp [hsched, hcomplete]), fun _ => rfl, hissued.others, hissued.regs,
        hissued.mem⟩
    · obtain ⟨hsched, hcomplete⟩ : e.scheduled = false ∧ e.complete = false := by simpa using hover
      obtain ⟨t, hexec, hwork, hgone, hdone⟩ := exec_endr_of_first h hentered hsched hcomplete hlid
      exact ⟨t, hexec, hgone, fun _ _ => hdone, fun ho => absurd ho hover, hwork.others, hwork.regs, hwork.mem⟩
  · have hentered : (s.cell pcell).Entered v.flow v.iteration i e := ⟨hfind, hdir⟩
    obtain ⟨t, hexec, htrap⟩ : ∃ t, exec c s = .next t ∧ Trapped s t pcell v e acc w (s.ssOf pcell v slot) info := by
      rcases hcause with ⟨x, h, rfl, rfl, rfl, rfl, rfl⟩ | ⟨hcell, hslot, hstrand, hdec, hmay, hfetch, rfl, rfl, rfl, rfl⟩
      · exact exec_trap_of_live h hentered hlive
      · exact exec_undefinedEncoding_of_live hcell hslot hstrand hdec hmay hfetch hentered hlive
    refine ⟨t, hexec, htrap.gone, htrap.h4, htrap.h5, htrap.h6, htrap.flt, htrap.aborted, fun hhen hpair => ?_,
      htrap.others, htrap.regs, htrap.mem⟩
    obtain ⟨hin, hempty⟩ := htrap.token hhen hpair
    exact ⟨htrap.entry hhen hpair, s.trapToken pcell v e w, hin, rfl, rfl, rfl, rfl, rfl, rfl, hempty⟩
end

section
namespace Sys2Proof.Machine

/-! ### Fields of a word (R13) -/

/-- A field's bits are the word's, moved down to place 0. -/
theorem testBit_fld (v : Word) (hi lo i : Nat) :
    (fld v hi lo).testBit i = (decide (i < hi + 1 - lo) && v.getLsbD (lo + i)) := by
  simp only [fld, bitsOf, Nat.testBit_mod_two_pow, Nat.testBit_div_two_pow, BitVec.getLsbD, Nat.add_comm]

/-- The word with a field replaced is what lies above the field, the field's new value and what lies below. -/
theorem toNat_putFld (v : Word) {hi lo : Nat} (x : Nat) (hlo : lo ≤ hi) (hhi : hi < 32) :
    (putFld v hi lo x).toNat =
      2 ^ lo * (2 ^ (hi + 1 - lo) * (v.toNat / 2 ^ (hi + 1)) + x % 2 ^ (hi + 1 - lo)) + v.toNat % 2 ^ lo := by
  obtain ⟨w, hw⟩ : ∃ w, hi + 1 = lo + w := ⟨hi + 1 - lo, by omega⟩
  have htop : v.toNat / 2 ^ lo / 2 ^ w + 1 ≤ 2 ^ (32 - (lo + w)) := by
    rw [Nat.div_div_eq_div_mul, ← pow_add]
    exact Nat.div_lt_of_lt_mul (by rw [← pow_add, Nat.add_sub_of_le (by omega)]; exact v.isLt)
  have hword : v.toNat = 2 ^ lo * (2 ^ w * (v.toNat / 2 ^ lo / 2 ^ w) + v.toNat / 2 ^ lo % 2 ^ w) + v.toNat % 2 ^ lo := by
    rw [Nat.div_add_mod, Nat.div_add_mod]
  have hlow : v.toNat % 2 ^ lo < 2 ^ lo := Nat.mod_lt _ (by positivity)
  have hx : x % 2 ^ w < 2 ^ w := Nat.mod_lt _ (by positivity)
  have hall : 2 ^ lo * (2 ^ w * 2 ^ (32 - (lo + w))) = 2 ^ 32 := by
    rw [← pow_add, ← pow_add]; congr 1; omega
  rw [putFld, BitVec.toNat_ofNat, fld, bitsOf, hw, Nat.add_sub_cancel_left, pow_add, ← Nat.div_div_eq_div_mul]
  generalize v.toNat / 2 ^ lo / 2 ^ w = high at *
  generalize v.toNat / 2 ^ lo % 2 ^ w = old at *
  generalize v.toNat % 2 ^ lo = low at *
  rw [hword, Nat.mod_eq_of_lt]
  · rw [Nat.mul_add, Nat.mul_add, Nat.mul_comm old, Nat.mul_comm (x % _)]; omega
  · have h1 : 2 ^ w * high + x % 2 ^ w + 1 ≤ 2 ^ w * (high + 1) := by rw [Nat.mul_succ]; omega
    have h2 := Nat.mul_le_mul_left (2 ^ lo) (h1.trans (Nat.mul_le_mul_left _ htop))
    rw [hall, Nat.mul_succ, Nat.mul_add] at h2
    rw [Nat.mul_add, Nat.mul_comm old, Nat.mul_comm (x % _)]; omega

/-- A field replaced: its bits are the new value's, and the other bits stay. -/
theorem getLsbD_putFld (v : Word) {hi lo : Nat} (x i : Nat) (hlo : lo ≤ hi) (hhi : hi < 32) :
    (putFld v hi lo x).getLsbD i = if lo ≤ i ∧ i ≤ hi then x.testBit (i - lo) else v.getLsbD i := by
  rw [BitVec.getLsbD, toNat_putFld v x hlo hhi, Nat.testBit_two_pow_mul_add _ (Nat.mod_lt _ (by positivity)),
    Nat.testBit_two_pow_mul_add _ (Nat.mod_lt _ (by positivity))]
  simp only [Nat.testBit_mod_two_pow, Nat.testBit_div_two_pow, BitVec.getLsbD]
  by_cases hbelow : i < lo
  · simp [hbelow, Nat.not_le.2 hbelow]
  · by_cases habove : i ≤ hi
    · rw [if_neg hbelow, if_pos (by omega), if_pos (by omega)]
      simp; omega
    · rw [if_neg hbelow, if_neg (by omega), if_neg (by omega)]
      congr 1; omega

/-- A field written reads back. -/
theorem fld_putFld_same (v : Word) {hi lo : Nat} (x : Nat) (hlo : lo ≤ hi) (hhi : hi < 32) :
    fld (putFld v hi lo x) hi lo = x % 2 ^ (hi + 1 - lo) := by
  refine Nat.eq_of_testBit_eq fun i => ?_
  rw [testBit_fld, getLsbD_putFld v x _ hlo hhi, Nat.testBit_mod_two_pow]
  by_cases hi' : i < hi + 1 - lo
  · rw [if_pos (by omega), Nat.add_sub_cancel_left]
  · simp [hi']

/-- A field that another one does not meet stays. -/
theorem fld_putFld_other (v : Word) {hi lo hi' lo' : Nat} (x : Nat) (hlo : lo ≤ hi) (hhi : hi < 32)
    (h : hi' < lo ∨ hi < lo') : fld (putFld v hi lo x) hi' lo' = fld v hi' lo' := by
  refine Nat.eq_of_testBit_eq fun i => ?_
  rw [testBit_fld, testBit_fld, getLsbD_putFld v x _ hlo hhi]
  by_cases hi' : i < hi' + 1 - lo'
  · rw [if_neg (by omega)]
  · simp [hi']

end Sys2Proof.Machine
end

section
namespace Sys2Proof.Machine

/-! ### Work on registers (R13) -/

theorem State.regF_setRegF_same (s : State) (a : Nat) {hi lo : Nat} (x : Nat) (hlo : lo ≤ hi) (hhi : hi < 32) :
    (s.setRegF a hi lo x).regF a hi lo = x % 2 ^ (hi + 1 - lo) := by
  simp only [regF, setRegF, reg_setReg_same, fld_putFld_same _ _ hlo hhi]

theorem State.regF_setRegF_field (s : State) (a : Nat) {hi lo hi' lo' : Nat} (x : Nat) (hlo : lo ≤ hi) (hhi : hi < 32)
    (h : hi' < lo ∨ hi < lo') : (s.setRegF a hi lo x).regF a hi' lo' = s.regF a hi' lo' := by
  simp only [regF, setRegF, reg_setReg_same, fld_putFld_other _ _ hlo hhi h]

theorem State.reg_setRegF_other (s : State) {a b hi lo x : Nat} (h : b ≠ a) : (s.setRegF a hi lo x).reg b = s.reg b :=
  s.reg_setReg_other _ h

/-- Between two states registers alone differ, and of them only those that a test names. -/
structure RegWork (named : Nat → Prop) (s t : State) : Prop where
  rest : t = { s with regs := t.regs }
  others : ∀ a, ¬ named a → t.reg a = s.reg a

namespace RegWork
variable {named : Nat → Prop} {s t u : State}

theorem refl (named : Nat → Prop) (s : State) : RegWork named s s := ⟨rfl, fun _ _ => rfl⟩

theorem trans (h : RegWork named s t) (k : RegWork named t u) : RegWork named s u where
  rest := by
    have hk := k.rest
    rw [h.rest] at hk
    exact hk
  others a ha := (k.others a ha).trans (h.others a ha)

theorem setReg (s : State) {a : Nat} (v : Word) (ha : named a) : RegWork named s (s.setReg a v) :=
  ⟨rfl, fun _ hb => s.reg_setReg_other v fun h => hb (h ▸ ha)⟩

theorem andSetReg (h : RegWork named s t) {a : Nat} (v : Word) (ha : named a) : RegWork named s (t.setReg a v) :=
  h.trans (.setReg t v ha)

theorem setRegF (s : State) {a : Nat} (hi lo x : Nat) (ha : named a) : RegWork named s (s.setRegF a hi lo x) :=
  .setReg s _ ha

theorem mode (h : RegWork named s t) : t.mode = s.mode := (congrArg State.mode h.rest).trans rfl
theorem flt (h : RegWork named s t) : t.flt = s.flt := (congrArg State.flt h.rest).trans rfl
theorem asserting (h : RegWork named s t) : t.asserting = s.asserting := (congrArg State.asserting h.rest).trans rfl

end RegWork

/-! ### A host's write of a register with a row of its own (R15, R500, R501, R505) -/

/-- The fault collector's registers are those of no block that a variant may lack. -/
theorem Variant.absent_collector (v : Variant) {a : Nat} (h : a < 0x21000) : v.absent a = false := by
  have hbelow (b : Nat) (hb : 0x21000 ≤ b) : ¬ b ≤ a := by omega
  have hne (b : Nat) (hb : 0x21000 ≤ b) : a ≠ b := by omega
  simp [absent, aPairCtrl, aPairInj, aJetTbud, hbelow, hne]

/-- Reserved bits are counted by a report, and by nothing else. -/
theorem State.countRsv_rest (s : State) (loader : Bool) (a : Nat) (v : Word) :
    s.countRsv loader a v = { s with flt := (s.countRsv loader a v).flt } := by
  unfold countRsv
  split
  · exact s.raise_rest ..
  · rfl

theorem State.countRsv_of_clean (s : State) (loader : Bool) {a : Nat} {v : Word} (h : v &&& w32 (rsvBits a) = 0) :
    s.countRsv loader a v = s := if_neg (by simp [h])

/-- A host's write of a register of the collector has its own effect, and its reserved bits are counted. -/
theorem State.ownWrite_collector {s : State} {a : Nat} (ha : a < 0x21000)
    (h : s.hostWrites a = true) (v : Word) (t : State) : s.ownWrite a v t = t.countRsv false a v := by
  simp [ownWrite, h, s.variant.absent_collector ha]

theorem State.ownWrite_of_not_hostWrites {s : State} {a : Nat} (h : s.hostWrites a = false) (v : Word) (t : State) :
    s.ownWrite a v t = s := by simp [ownWrite, h]

theorem State.mode_ne_reset_of_hostWrites {s : State} {a : Nat} (h : s.hostWrites a = true) : s.mode.mode ≠ .reset := by
  simp only [hostWrites, fieldOn, Bool.and_eq_true, decide_eq_true_eq] at h
  exact h.1

/-- While the loader checks or writes, no host writes a register of the collector (R505). -/
theorem State.hostWrites_of_loading {s : State} {a : Nat} (hmode : s.mode.mode = .load)
    (hl : s.mode.lstate = .check ∨ s.mode.lstate = .write) (h1 : 0x20000 ≤ a) (h2 : a < 0x21000) :
    s.hostWrites a = false := by
  have ha : 0x20000 ≤ a ∧ a < 0xF0000 := by omega
  rcases hl with hl | hl <;> simp [hostWrites, loaderOwns, hmode, hl, ha]

end Sys2Proof.Machine
end

section
namespace Sys2Proof.Machine

/-! ### FLT_PEND (R373) -/

/-- One bit of a write of FLT_PEND. -/
def State.clearPend (i : Nat) (v : Word) (s : State) (j : Nat) : State :=
  if v.getLsbD j ∧ ¬ s.asserting (i * 32 + j)
  then s.setReg (aFltPend i) (s.reg (aFltPend i) &&& ~~~((1 : Word) <<< j)) else s

theorem State.writeFltPend_eq (s : State) (i : Nat) (v : Word) :
    s.writeFltPend i v = (List.range 32).foldl (clearPend i v) s := rfl

theorem State.clearPend_work (i : Nat) (v : Word) (s : State) (j : Nat) :
    RegWork (· = aFltPend i) s (s.clearPend i v j) := by
  unfold clearPend
  split
  · exact .setReg s _ rfl
  · exact .refl _ s

/-- A bit that is written as 1 and whose source does not assert is cleared, and every other bit stays. -/
theorem State.getLsbD_clearPend (i : Nat) (v : Word) (s : State) {j k : Nat} (hk : k < 32) :
    ((s.clearPend i v j).reg (aFltPend i)).getLsbD k =
      ((s.reg (aFltPend i)).getLsbD k && !(decide (k = j) && (v.getLsbD j && !s.asserting (i * 32 + j)))) := by
  unfold clearPend
  split
  case isTrue h =>
    have hbit : ((1 : Word) <<< j).getLsbD k = decide (k = j) := by
      rw [BitVec.getLsbD_shiftLeft, show (1 : Word) = 1#32 from rfl, BitVec.getLsbD_one, Bool.eq_iff_iff]
      simp [hk]; omega
    rw [reg_setReg_same, BitVec.getLsbD_and, BitVec.getLsbD_not, hbit]
    simp [hk, h]
  case isFalse h =>
    have hstays : (v.getLsbD j && !s.asserting (i * 32 + j)) = false := by simpa using h
    simp [hstays]

theorem State.clearPends_work (i : Nat) (v : Word) (s : State) (l : List Nat) :
    RegWork (· = aFltPend i) s (l.foldl (clearPend i v) s) :=
  foldl_induction (.refl _ s) fun t ht j _ => ht.trans (t.clearPend_work i v j)

/-- The first n bits of a write of FLT_PEND. -/
theorem State.getLsbD_clearPends (i : Nat) (v : Word) (s : State) (n : Nat) {k : Nat} (hk : k < 32) :
    (((List.range n).foldl (clearPend i v) s).reg (aFltPend i)).getLsbD k =
      ((s.reg (aFltPend i)).getLsbD k && !(decide (k < n) && (v.getLsbD k && !s.asserting (i * 32 + k)))) := by
  induction n with
  | zero => simp
  | succ n ih =>
    rw [List.range_succ, List.foldl_append, List.foldl_cons, List.foldl_nil, getLsbD_clearPend _ _ _ hk, ih,
      (s.clearPends_work i v _).asserting]
    by_cases hkn : k = n
    · simp [hkn]
    · simp [hkn, show k < n + 1 ↔ k < n by omega]

/-! ### FLT_SRC (R352) -/

/-- The counts of the first n sources become 0. -/
theorem State.reg_clearedCounts (s : State) (n k : Nat) :
    ((List.range n).foldl (fun s j => s.setRegF (aFltSrc j) 31 16 0) s).reg (aFltSrc k) =
      if k < n then putFld (s.reg (aFltSrc k)) 31 16 0 else s.reg (aFltSrc k) := by
  induction n with
  | zero => rfl
  | succ n ih =>
    rw [List.range_succ, List.foldl_append, List.foldl_cons, List.foldl_nil]
    by_cases hkn : k = n
    · subst hkn
      rw [setRegF, reg_setReg_same, ih, if_neg (by omega), if_pos (by omega)]
    · rw [reg_setRegF_other _ (by unfold aFltSrc; omega), ih]
      simp [show k < n + 1 ↔ k < n by omega]

/-! ### The record of a class (R351, R374) -/

/-- The six registers of a class's record. -/
def ofRecord (c a : Nat) : Prop :=
  a = aFltRecTlo c ∨ a = aFltRecThi c ∨ a = aFltRecInfo c ∨ a = aFltRecAddr c ∨ a = aFltRecSyn c ∨ a = aFltRecMore c

theorem forall_ofRecord {c : Nat} {P : Nat → Prop} : (∀ a, ofRecord c a → P a) ↔ P (aFltRecTlo c) ∧ P (aFltRecThi c) ∧
    P (aFltRecInfo c) ∧ P (aFltRecAddr c) ∧ P (aFltRecSyn c) ∧ P (aFltRecMore c) := by
  simp [ofRecord, or_imp, forall_and]

/-- A record with no pending bit in its class is cleared whole. -/
theorem State.writeFltRec_of_clear {s : State} {c : Nat} {v : Word} (hv : v.getLsbD 31 = true)
    (hp : s.pendClass c = false) :
    RegWork (ofRecord c) s (s.writeFltRec c v) ∧ ∀ a, ofRecord c a → (s.writeFltRec c v).reg a = 0 := by
  unfold writeFltRec
  rw [if_pos ⟨hv, by simp [hp]⟩]
  refine ⟨?_, fun a ha => ?_⟩
  · iterate 6 refine RegWork.andSetReg ?_ 0 (by simp [ofRecord])
    exact .refl _ s
  · rcases ha with rfl | rfl | rfl | rfl | rfl | rfl <;>
      simp [reg_setReg_other, aFltRecTlo, aFltRecThi, aFltRecInfo, aFltRecAddr, aFltRecSyn, aFltRecMore]

theorem State.writeFltRec_of_kept {s : State} {c : Nat} {v : Word} (h : v.getLsbD 31 = false ∨ s.pendClass c = true) :
    s.writeFltRec c v = s := by
  exact if_neg fun ⟨hv, hp⟩ => h.elim (by simp [hv]) hp

theorem State.putRecord_reg (s : State) (c : Nat) (info addr syn : Word) :
    (s.putRecord c info addr syn).reg (aFltRecInfo c) = info ∧ (s.putRecord c info addr syn).reg (aFltRecAddr c) = addr ∧
      (s.putRecord c info addr syn).reg (aFltRecSyn c) = syn := by
  simp [putRecord, reg_setReg_other, aFltRecInfo, aFltRecAddr, aFltRecSyn]

/-- A log entry changes no register but the count of the entries that the log did not take. -/
theorem State.logFault_reg (s : State) (info addr syn : Word) (mode : Nat) (first safe : Bool) {a : Nat}
    (ha : a ≠ aFltLog) : (s.logFault info addr syn mode first safe).reg a = s.reg a := by
  unfold logFault
  dsimp only
  split
  · rw [reg, logField_regs, reg]
  · split
    · simp [reg]
    · rw [reg, logField_regs, ← reg, addRegF, reg_setRegF_other _ ha]

theorem State.reg_ite_logFault (b : Prop) [Decidable b] (t : State) (info addr syn : Word) (mode : Nat)
    (first safe : Bool) {a : Nat} (ha : a ≠ aFltLog) :
    (if b then t.logFault info addr syn mode first safe else t).reg a = t.reg a := by
  split
  · exact t.logFault_reg _ _ _ _ _ _ ha
  · rfl

/-- The record word of a report is valid. -/
theorem fld_infoWord_valid (source : Nat) (wire : Bool) (master : BitVec 10) (access : BitVec 3) (react cls : Nat) :
    fld (infoWord source wire master access react cls) 31 31 = 1 := by
  have hm := master.isLt
  have hx := access.isLt
  have hw : b2n wire ≤ 1 := by cases wire <;> decide
  simp only [fld, bitsOf, infoWord, BitVec.toNat_ofNat]
  omega

theorem srcClass_lt (n : Nat) : srcClass n < 4 := Nat.mod_lt _ (by decide)

/-- A report that finds its class's record empty, and whose reaction is LOG, is captured by it (R351, R354). -/
theorem State.collect_captures {s : State} {source : Nat} {d : Details} (hn : source < 96)
    (hlog : s.reactionOf source d false = 0) (hempty : s.regF (aFltRecInfo (srcClass source)) 31 31 = 0) :
    (s.collect source (some d) false).reg (aFltRecInfo (srcClass source)) =
        infoWord source false d.master d.access 0 (srcClass source) ∧
      (s.collect source (some d) false).reg (aFltRecAddr (srcClass source)) = d.addr ∧
      (s.collect source (some d) false).reg (aFltRecSyn (srcClass source)) = d.syn := by
  have hc := srcClass_lt source
  have hstill : ((s.setPending source).addRegF (aFltSrc source) 31 16 1).regF (aFltRecInfo (srcClass source)) 31 31 = 0 := by
    rw [regF, addRegF, reg_setRegF_other _ (by unfold aFltRecInfo aFltSrc; omega), setPending,
      reg_setReg_other _ _ (by unfold aFltRecInfo aFltPend; omega)]
    exact hempty
  obtain ⟨hinfo, haddr, hsyn⟩ := ((s.setPending source).addRegF (aFltSrc source) 31 16 1).putRecord_reg
    (srcClass source) (infoWord source false d.master d.access 0 (srcClass source)) d.addr d.syn
  unfold collect
  simp only [Option.getD_some, Bool.false_eq_true, false_and, if_false, hlog, hstill, react, if_true]
  rw [reg_ite_logFault _ _ _ _ _ _ _ _ (by unfold aFltRecInfo aFltLog; omega),
    reg_ite_logFault _ _ _ _ _ _ _ _ (by unfold aFltRecAddr aFltLog; omega),
    reg_ite_logFault _ _ _ _ _ _ _ _ (by unfold aFltRecSyn aFltLog; omega)]
  exact ⟨hinfo, haddr, hsyn⟩

/-- The collector takes the report at the head of its queue, outside RESET (R350, R356). -/
theorem exec_faultReport_waiting {s : State} {q : FaultIn} {rest : List FaultIn} (hmode : s.mode.mode ≠ .reset)
    (hq : s.flt.inQ = q :: rest) :
    exec (.faultReport .waiting) s =
      .next (State.collect { s with flt := { s.flt with inQ := rest } } q.source q.details q.wire) := by
  show execFaultReport .waiting s = _
  simp [execFaultReport, hmode, State.collectNext, hq]

end Sys2Proof.Machine
end

section
open Sys2Proof Sys2Proof.Machine Sys2Proof.Safety

namespace Sys2Proof.Machine

/-! ### The commands of the fault registers (R352, R353, R373, R374) -/

theorem exec_fltPendWrite {i : Nat} {s : State} (hi : i < 3) (h : s.hostWrites (aFltPend i) = true) (v : Word) :
    exec (.fltPendWrite i v) s = .next (s.writeFltPend i v) := by
  show execFltPendWrite i v s = _
  simp [execFltPendWrite, unitOk, hi, h]

theorem exec_fltRecInfoWrite {c : Nat} {s : State} (hc : c < 3) (h : s.hostWrites (aFltRecInfo c) = true) (v : Word) :
    exec (.fltRecInfoWrite c v) s = .next ((s.writeFltRec c v).countRsv false (aFltRecInfo c) v) := by
  show execFltRecInfoWrite c v s = _
  simp [execFltRecInfoWrite, unitOk, hc, State.ownWrite_collector (by unfold aFltRecInfo; omega) h]

theorem exec_fltSrcWrite {n : Nat} {s : State} (hn : n < 96) (h : s.hostWrites (aFltSrc n) = true) (v : Word) :
    exec (.fltSrcWrite n v) s = .next (if s.running = true ∨ s.mode.mode = .safe then s
      else (s.writeFltSrc n v).countRsv false (aFltSrc n) v) := by
  show execFltSrcWrite n v s = _
  simp only [execFltSrcWrite, unitOk, hn, decide_true, if_true, State.ownWrite_collector (by unfold aFltSrc; omega) h]

theorem exec_fltClearCounts {s : State} (h : s.hostWrites aFltCmd = true) :
    exec .fltClearCounts s = .next s.clearCounts := by
  show execFltClearCounts s = _
  simp [execFltClearCounts, h]

/-- A meaning without an effect on the units that the variant has leaves the state. -/
theorem unitOk_of_idle {s t : State} {i n : Nat} (h : i < n → t = s) : unitOk s (i < n) t = .next s := by
  unfold unitOk
  split
  case isTrue hi => rw [h (of_decide_eq_true hi)]
  case isFalse => rfl

/-- While the loader checks or writes an image, the commands of the fault registers have no effect (R505). -/
theorem exec_faultRegisters_of_loading {s : State} (i : Nat) (v : Word) (p : BitVec 3) (hmode : s.mode.mode = .load)
    (hl : s.mode.lstate = .check ∨ s.mode.lstate = .write) :
    exec (.fltPendWrite i v) s = .next s ∧ exec (.fltRecInfoWrite i v) s = .next s ∧
      exec (.fltSrcWrite i v) s = .next s ∧ exec .fltClearCounts s = .next s ∧ exec (.restart p) s = .next s := by
  have hno {a : Nat} (h1 : 0x20000 ≤ a) (h2 : a < 0x21000) : s.hostWrites a = false :=
    State.hostWrites_of_loading hmode hl h1 h2
  have hcmd : s.hostWrites aFltCmd = false := hno (by decide) (by decide)
  refine ⟨unitOk_of_idle fun _ => if_neg ?_, unitOk_of_idle fun _ => State.ownWrite_of_not_hostWrites (hno ?_ ?_) ..,
    unitOk_of_idle fun _ => ?_, congrArg Host.Outcome.next (if_neg (by simp [hcmd])),
    congrArg Host.Outcome.next (if_neg (by simp [hcmd]))⟩
  · simp [hno (a := aFltPend i) (by unfold aFltPend; omega) (by unfold aFltPend; omega)]
  · unfold aFltRecInfo; omega
  · unfold aFltRecInfo; omega
  · rw [State.ownWrite_of_not_hostWrites (hno (by unfold aFltSrc; omega) (by unfold aFltSrc; omega)), ite_self]

/-- A host's write of FLT_REC_INFO that clears the record leaves its six registers 0 (R374). -/
theorem exec_fltRecInfoWrite_of_clear {c : Nat} {s : State} {v : Word} (hc : c < 3)
    (h : s.hostWrites (aFltRecInfo c) = true) (hv : v.getLsbD 31 = true) (hp : s.pendClass c = false) :
    ∃ t, exec (.fltRecInfoWrite c v) s = .next t ∧ t = { s with regs := t.regs, flt := t.flt } ∧
      (v &&& w32 (rsvBits (aFltRecInfo c)) = 0 → t.flt = s.flt) ∧ ∀ a, ofRecord c a → t.reg a = 0 := by
  obtain ⟨hwork, hzero⟩ := State.writeFltRec_of_clear hv hp
  have hcount := (s.writeFltRec c v).countRsv_rest false (aFltRecInfo c) v
  refine ⟨_, exec_fltRecInfoWrite hc h v, ?_, fun hclean => ?_, fun a ha => ?_⟩
  · rw [hcount, hwork.rest]
  · rw [State.countRsv_of_clean _ _ hclean, hwork.flt]
  · rw [hcount]
    exact hzero a ha

/-- An empty record captures the next report of its class that the collector takes (R351, R374). -/
theorem exec_faultReport_captures {t : State} {c : Nat} {q : FaultIn} {rest : List FaultIn} {d : Details}
    (hmode : t.mode.mode ≠ .reset) (hempty : t.reg (aFltRecInfo c) = 0) (hq : t.flt.inQ = q :: rest)
    (hn : q.source < 96) (hwire : q.wire = false) (hcls : srcClass q.source = c) (hd : q.details = some d)
    (hlog : t.reactionOf q.source d false = 0) :
    ∃ u, exec (.faultReport .waiting) t = .next u ∧ u.reg (aFltRecAddr c) = d.addr ∧ u.reg (aFltRecSyn c) = d.syn ∧
      u.regF (aFltRecInfo c) 31 31 = 1 := by
  subst hcls
  obtain ⟨hinfo, haddr, hsyn⟩ := State.collect_captures (s := { t with flt := { t.flt with inQ := rest } }) hn hlog
    (by show fld (t.reg _) 31 31 = 0; rw [hempty]; rfl)
  refine ⟨_, exec_faultReport_waiting hmode hq, ?_⟩
  rw [hd, hwire]
  exact ⟨haddr, hsyn, by rw [State.regF, hinfo, fld_infoWord_valid]⟩

/-- A permitted reaction is taken outside RUN, DEGRADED, HALT and SAFE (R353). -/
theorem State.writeFltSrc_of_allowed {s : State} {n : Nat} {v : Word} (hrun : s.running = false)
    (hsafe : s.mode.mode ≠ .safe) (ha : srcAllows n (fld v 2 0) = true) :
    s.writeFltSrc n v = s.setRegF (aFltSrc n) 2 0 (fld v 2 0) := if_neg (by simp [hrun, hsafe, ha])

theorem State.writeFltSrc_of_not_allowed {s : State} {n : Nat} {v : Word} (ha : srcAllows n (fld v 2 0) = false) :
    s.writeFltSrc n v = s := if_pos (by simp [ha])

theorem State.clearCounts_work (s : State) : RegWork (fun _ => True) s s.clearCounts :=
  (foldl_induction (P := RegWork _ s) (.refl _ s) fun _ ht _ _ => ht.trans (.setRegF _ _ _ _ trivial)).trans
    (.setRegF _ _ _ _ trivial)

/-- CLEAR_COUNTS writes the count of each source, and no other field of FLT_SRC (R352). -/
theorem State.clearCounts_reg (s : State) {n : Nat} (hn : n < 96) :
    s.clearCounts.reg (aFltSrc n) = putFld (s.reg (aFltSrc n)) 31 16 0 := by
  rw [clearCounts, fltStatus, reg_setRegF_other _ (by unfold aFltSrc aFltCmd; omega)]
  exact (s.reg_clearedCounts 96 n).trans (if_pos hn)

end Sys2Proof.Machine

/-- Settles O15. Each command is one write of registers (`RegWork`) between a host's permission and the count of reserved
bits; bit by bit for FLT_PEND (`getLsbD_clearPends`), source by source for CLEAR_COUNTS (`reg_clearedCounts`), and a
cleared record captures because the collector finds it empty (`collect_captures`). -/
theorem faultRegistersClearAsWritten : Obligations.FaultRegistersClearAsWritten := by
  unfold Obligations.FaultRegistersClearAsWritten
  refine ⟨fun i v s hi h => ?_, fun c v s hc h => ⟨fun hv hp => ?_, fun hkept => ?_⟩,
    fun n v s hn h => ⟨fun hrun hsafe ha => ?_, fun hno => ?_, fun ha => ?_⟩, fun s h => ?_,
    fun i v p s hmode hl c hc => ?_⟩
  · have hwork := s.clearPends_work i v (List.range 32)
    refine ⟨_, exec_fltPendWrite hi h v, hwork.rest, fun j hj => ?_, hwork.others⟩
    rw [s.writeFltPend_eq, s.getLsbD_clearPends i v 32 hj]
    simp [hj]
  · obtain ⟨t, hexec, hrest, hclean, hzero⟩ := exec_fltRecInfoWrite_of_clear hc h hv hp
    have hmode : t.mode.mode ≠ .reset := by
      rw [hrest]; exact State.mode_ne_reset_of_hostWrites h
    obtain ⟨htlo, hthi, hinfo, haddr, hsyn, hmore⟩ := forall_ofRecord.1 hzero
    exact ⟨t, hexec, hrest, hclean, htlo, hthi, hinfo, haddr, hsyn, hmore, fun q rest d hq hn hwire hcls hd hlog =>
      exec_faultReport_captures hmode hinfo hq hn hwire hcls hd hlog⟩
  · refine ⟨_, exec_fltRecInfoWrite hc h v, ?_, fun hclean => ?_⟩ <;> rw [State.writeFltRec_of_kept hkept]
    · exact s.countRsv_rest ..
    · exact s.countRsv_of_clean _ hclean
  · have hcount := (s.setRegF (aFltSrc n) 2 0 (fld v 2 0)).countRsv_rest false (aFltSrc n) v
    refine ⟨_, exec_fltSrcWrite hn h v, ?_⟩
    rw [if_neg (by simp [hrun, hsafe]), State.writeFltSrc_of_allowed hrun hsafe ha]
    refine ⟨by rw [hcount]; rfl, fun hclean => by rw [State.countRsv_of_clean _ _ hclean]; rfl, ?_, fun a hne => ?_⟩
    · rw [hcount]
      refine (s.regF_setRegF_same (aFltSrc n) (fld v 2 0) (by decide) (by decide)).trans ?_
      exact Nat.mod_eq_of_lt (Nat.mod_lt _ (by decide))
    · rw [hcount]
      exact s.reg_setRegF_other hne
  · rw [exec_fltSrcWrite hn h v, if_pos hno]
  · refine ⟨_, exec_fltSrcWrite hn h v, ?_⟩
    rw [State.writeFltSrc_of_not_allowed ha]
    split
    · exact ⟨rfl, fun _ => rfl⟩
    · exact ⟨s.countRsv_rest .., s.countRsv_of_clean _⟩
  · refine ⟨_, exec_fltClearCounts h, s.clearCounts_work.rest, fun n hn => ?_⟩
    rw [State.regF, State.regF, s.clearCounts_reg hn, fld_putFld_same _ _ (by decide) (by decide),
      fld_putFld_other _ _ (by decide) (by decide) (by decide)]
    exact ⟨rfl, rfl⟩
  · obtain ⟨hpend, hrec, hsrc, hcounts, hrestart⟩ := exec_faultRegisters_of_loading i v p hmode hl
    simp only [List.mem_cons, List.not_mem_nil, or_false] at hc
    rcases hc with rfl | rfl | rfl | rfl | rfl
    · exact hpend
    · exact hrec
    · exact hsrc
    · exact hcounts
    · exact hrestart
end

section
namespace Sys2Proof.Machine

/-! ### What FLT_CMD does not decide (R362) -/

theorem aFltPend_ne_aFltCmd (i : Nat) : aFltPend i ≠ aFltCmd := by unfold aFltPend aFltCmd; omega
theorem aFltSrc_ne_aFltCmd (i : Nat) : aFltSrc i ≠ aFltCmd := by unfold aFltSrc aFltCmd; omega
theorem aPairPair_ne_aFltCmd (i j : Nat) : aPairPair i j ≠ aFltCmd := by unfold aPairPair aFltCmd; omega

theorem State.fatal_setReg_cmd (s : State) (v : Word) : (s.setReg aFltCmd v).fatal = s.fatal := by
  unfold fatal
  congr 1
  funext n
  rw [pending?, regF, s.reg_setReg_other v (aFltPend_ne_aFltCmd _), s.reg_setReg_other v (aFltSrc_ne_aFltCmd n)]
  rfl

theorem State.pairs?_setReg_cmd (s : State) (v : Word) : (s.setReg aFltCmd v).pairs? = s.pairs? := by
  simp only [pairs?, setReg_variant, s.reg_setReg_other v (aPairPair_ne_aFltCmd _ _)]

theorem State.pairState_setReg_cmd (s : State) (v : Word) : (s.setReg aFltCmd v).pairState = s.pairState := by
  funext i j
  rw [pairState, regF, s.reg_setReg_other v (aPairPair_ne_aFltCmd i j)]
  rfl

/-! ### The refusal of a restart (R362) -/

/-- A pair of a partition is in MISMATCH or BROKEN. -/
def State.badPair (s : State) (p : Nat) : Bool :=
  s.pairs?.any (fun q => s.partOf q.2.2.1 = some p && decide (s.pairState q.1 q.2.1 ≠ 1))

/-- A logical cell of a partition has no place. -/
def State.unplacedCell (s : State) (p : Nat) : Bool :=
  ((upTo s.variant.lcells).filter (fun l => (s.partition p).cells.getLsbD l)).any (fun l => (s.placeOf l).isNone)

/-- The status of a restart by the four conditions of R362, in their order. -/
def restartCode (faulted bad unplaced fatal : Bool) : Nat :=
  if ¬ faulted then 1 else if bad then 2 else if unplaced then 3 else if fatal then 4 else 0

theorem State.restartStatus_eq (s : State) (p : Nat) :
    s.restartStatus p = restartCode (s.flt.faulted.getLsbD p) (s.badPair p) (s.unplacedCell p) s.fatal := rfl

theorem restartCode_lt : ∀ a b c d, restartCode a b c d < 5 := by decide

theorem restartCode_eq_zero_iff :
    ∀ a b c d, restartCode a b c d = 0 ↔ a = true ∧ b = false ∧ c = false ∧ d = false := by decide

theorem State.badPair_eq_false_iff (s : State) (p : Nat) : s.badPair p = false ↔
    ∀ q ∈ s.pairs?, s.partOf q.2.2.1 = some p → s.pairState q.1 q.2.1 = 1 := by
  simp [badPair, List.any_eq_false]

theorem State.unplacedCell_eq_false_iff (s : State) (p : Nat) : s.unplacedCell p = false ↔
    ∀ l, l < s.variant.lcells → (s.partition p).cells.getLsbD l = true → s.placeOf l ≠ none := by
  simp [unplacedCell, List.any_eq_false, upTo]

/-- A restart is accepted where the partition is FAULTED, its pairs are in order, its cells have places and no fatal bit
is set (R362). -/
theorem State.restartStatus_eq_zero_iff (s : State) (p : Nat) : s.restartStatus p = 0 ↔
    s.flt.faulted.getLsbD p = true ∧
    (∀ q ∈ s.pairs?, s.partOf q.2.2.1 = some p → s.pairState q.1 q.2.1 = 1) ∧
    (∀ l, l < s.variant.lcells → (s.partition p).cells.getLsbD l = true → s.placeOf l ≠ none) ∧ s.fatal = false := by
  rw [s.restartStatus_eq, restartCode_eq_zero_iff, s.badPair_eq_false_iff, s.unplacedCell_eq_false_iff]

/-- Each of the four cases of R362 refuses a restart. -/
theorem State.restartStatus_ne_zero {s : State} {p : Nat} (h : s.flt.faulted.getLsbD p = false ∨
    (∃ q ∈ s.pairs?, s.partOf q.2.2.1 = some p ∧ s.pairState q.1 q.2.1 ≠ 1) ∨
    (∃ l, l < s.variant.lcells ∧ (s.partition p).cells.getLsbD l = true ∧ s.placeOf l = none) ∨ s.fatal = true) :
    s.restartStatus p ≠ 0 := by
  intro hzero
  obtain ⟨hfaulted, hpairs, hplaces, hfatal⟩ := (s.restartStatus_eq_zero_iff p).1 hzero
  rcases h with h | ⟨q, hq, hpart, hbad⟩ | ⟨l, hl, hcell, hnone⟩ | h
  · exact absurd hfaulted (by simp [h])
  · exact hbad (hpairs q hq hpart)
  · exact hplaces l hl hcell hnone
  · exact absurd hfatal (by simp [h])

theorem State.restartStatus_setReg_cmd (s : State) (v : Word) (p : Nat) :
    (s.setReg aFltCmd v).restartStatus p = s.restartStatus p := by
  have hpairs : (s.setReg aFltCmd v).badPair p = s.badPair p := by
    unfold badPair
    rw [pairs?_setReg_cmd, pairState_setReg_cmd]
    rfl
  rw [restartStatus_eq, restartStatus_eq, fatal_setReg_cmd, hpairs]
  rfl

/-! ### The work of a restart (R363) -/

/-- Between two states the clouds, the jetstream and the memories are all that may differ. -/
def TrafficWork (s t : State) : Prop := t = { s with clouds := t.clouds, jet := t.jet, mem := t.mem }

namespace TrafficWork
variable {s t u : State}

theorem trans (h : TrafficWork s t) (k : TrafficWork t u) : TrafficWork s u := by
  unfold TrafficWork at *
  rw [h] at k
  exact k

theorem foldl {α : Type} {f : State → α → State} (hf : ∀ t x, TrafficWork t (f t x)) (l : List α) (s : State) :
    TrafficWork s (l.foldl f s) :=
  foldl_induction rfl fun t ht x _ => ht.trans (hf t x)

theorem cells (h : TrafficWork s t) : t.cells = s.cells := (congrArg State.cells h).trans rfl

theorem giveBack (s : State) (c : Option Credit) : TrafficWork s (s.giveBack c) := by cases c <;> rfl

theorem moveUp (s : State) (c i : Nat) : TrafficWork s (s.moveUp c i) := by
  unfold State.moveUp
  dsimp only
  split <;> rfl

/-- But for the cells, which are wiped, the purge of a partition's tokens is such work. -/
theorem wipeTokens (s : State) (p : Nat) : TrafficWork (s.modCells p Cell.wiped) (s.wipeTokens p) := by
  unfold State.wipeTokens
  dsimp only
  refine trans ?_ (foldl (fun _ _ => moveUp ..) ..)
  refine trans ?_ (foldl giveBack ..)
  rfl

end TrafficWork

/-- Between two states the cells, too, may differ. -/
def PurgeWork (s t : State) : Prop := t = { s with cells := t.cells, clouds := t.clouds, jet := t.jet, mem := t.mem }

namespace PurgeWork
variable {s t u : State}

theorem trans (h : PurgeWork s t) (k : PurgeWork t u) : PurgeWork s u := by
  unfold PurgeWork at *
  rw [h] at k
  exact k

theorem of_traffic (h : TrafficWork s t) : PurgeWork s t := by
  unfold TrafficWork at h
  unfold PurgeWork
  rw [h]

theorem foldl {α : Type} {f : State → α → State} (hf : ∀ t x, PurgeWork t (f t x)) (l : List α) (s : State) :
    PurgeWork s (l.foldl f s) :=
  foldl_induction rfl fun t ht x _ => ht.trans (hf t x)

theorem mode (h : PurgeWork s t) : t.mode = s.mode := (congrArg State.mode h).trans rfl
theorem flt (h : PurgeWork s t) : t.flt = s.flt := (congrArg State.flt h).trans rfl
theorem partition (h : PurgeWork s t) : t.partition = s.partition := (congrArg State.partition h).trans rfl

theorem modLid (s : State) (lid : Nat) (f : Cell → Cell) : PurgeWork s (s.modLid lid f) := by
  unfold State.modLid
  split <;> rfl

theorem modCells (s : State) (p : Nat) (f : Cell → Cell) : PurgeWork s (s.modCells p f) :=
  foldl (f := fun s pc => s.modCell pc f) (fun _ _ => rfl) ..

theorem putRecords (s : State) (rs : List (List Word)) : PurgeWork s (s.putRecords rs) :=
  foldl (fun _ _ => foldl (fun _ _ => modLid ..) ..) ..

theorem restorePresets (s : State) (p : Nat) : PurgeWork s (s.restorePresets p) :=
  foldl (fun _ _ => foldl (fun _ _ => modLid ..) ..) ..

theorem wipeTokens (s : State) (p : Nat) : PurgeWork s (s.wipeTokens p) :=
  (modCells ..).trans (of_traffic (.wipeTokens ..))

end PurgeWork

/-- What all cells of a partition are changed to shows in each of them. -/
theorem State.cell_modCells {s : State} {p pc : Nat} (f : Cell → Cell) (h : pc ∈ s.cellsOf p) :
    ∃ c, (s.modCells p f).cell pc = f c := by
  suffices hl : ∀ (l : List Nat) (t : State), (pc ∈ l ∨ ∃ c, t.cell pc = f c) →
      ∃ c, (l.foldl (fun s q => s.modCell q f) t).cell pc = f c from hl _ s (.inl h)
  intro l
  induction l with
  | nil => exact fun t ht => ht.resolve_left (by simp)
  | cons q l ih =>
    intro t ht
    refine ih (t.modCell q f) ?_
    by_cases hq : pc = q
    · subst hq
      exact .inr ⟨_, t.cell_modCell_same pc f⟩
    · rw [t.cell_modCell_other f hq]
      exact ht.imp_left fun hmem => (List.mem_cons.1 hmem).resolve_left hq

/-- The purge empties the matching stores of the partition's cells (R363 step 1). -/
theorem State.store_wipeTokens {s : State} {p pc : Nat} (h : pc ∈ s.cellsOf p) :
    ((s.wipeTokens p).cell pc).store = [] := by
  obtain ⟨c, hc⟩ := cell_modCells Cell.wiped h
  rw [cell, (TrafficWork.wipeTokens s p).cells, ← cell, hc]
  rfl

/-- The flags of the partition's flows are cleared (R363). -/
def State.clearFlags (s : State) (p : Nat) : State :=
  (upTo 4096).foldl (fun s f => if s.flowPart f = some p ∨ s.schedPart f = some p then s.setFlowW f 2 0 else s) s

/-- The directory entries and presets of a Scheduled partition are written again (R363). -/
def State.restock (s : State) (p : Nat) : State :=
  ((s.putRecords (s.part p).records).restorePresets p).modCells p
    (fun c => { c with engine := { c.engine with good := [], trapped := [] } })

/-- A Scheduled partition waits for its next start, or is HALTED (R363). -/
def State.await (s : State) (p : Nat) : State :=
  s.modPart p (fun q => { q with
    state := if s.mode.halted.getLsbD p then .halted else .wait
    resumeAt := s.zen.count + 50000, haltAsk := false })

/-- A partition's fault ends. -/
def State.unfault (s : State) (p : Nat) : State :=
  { s with flt := { s.flt with faulted := s.flt.faulted &&& ~~~((1 : BitVec 8) <<< p) } }

@[simp] theorem State.unfault_cells (s : State) (p : Nat) : (s.unfault p).cells = s.cells := rfl
@[simp] theorem State.unfault_seq (s : State) (p : Nat) : (s.unfault p).seq = s.seq := rfl
@[simp] theorem State.await_flt (s : State) (p : Nat) : (s.await p).flt = s.flt := rfl

/-- The state of a restart before its fault ends. -/
def State.purged (s : State) (p : Nat) : State := (s.wipeTokens p).clearFlags p

theorem State.restartPart_eq (s : State) (p : Nat) : s.restartPart p =
    ((if ((s.purged p).partition p).sched then ((s.purged p).restock p).await p else s.purged p).unfault p).settle := by
  unfold restartPart purged clearFlags restock await unfault
  dsimp only

theorem TrafficWork.clearFlags (s : State) (p : Nat) : TrafficWork s (s.clearFlags p) := by
  refine foldl (f := fun s f => if s.flowPart f = some p ∨ s.schedPart f = some p then s.setFlowW f 2 0 else s) ?_ _ s
  intro t f
  split <;> rfl

theorem PurgeWork.purged (s : State) (p : Nat) : PurgeWork s (s.purged p) :=
  (wipeTokens s p).trans (of_traffic (.clearFlags ..))

theorem PurgeWork.restock (s : State) (p : Nat) : PurgeWork s (s.restock p) :=
  ((putRecords ..).trans (restorePresets ..)).trans (modCells ..)

theorem State.store_purged {s : State} {p pc : Nat} (h : pc ∈ s.cellsOf p) : ((s.purged p).cell pc).store = [] := by
  rw [cell, purged, (TrafficWork.clearFlags ..).cells]
  exact store_wipeTokens h

theorem State.settle_flt (s : State) : s.settle.flt = s.flt := by
  obtain h | ⟨new, cause, h⟩ := s.settle_eq
  · rw [h]
  · rw [h, transit_flt]

theorem State.settle_seq (s : State) : s.settle.seq = s.seq := by
  obtain h | ⟨new, cause, h⟩ := s.settle_eq
  · rw [h]
  · rw [h, transit_seq]

theorem State.settle_cells (s : State) : s.settle.cells = s.cells := s.settle_rest.2.1

/-- A restart ends its partition's fault, and no other's. -/
theorem State.restartPart_faulted (s : State) (p : Nat) :
    (s.restartPart p).flt.faulted = s.flt.faulted &&& ~~~((1 : BitVec 8) <<< p) := by
  have hsame (t : State) (h : t.flt = s.flt) : (t.unfault p).settle.flt.faulted =
      s.flt.faulted &&& ~~~((1 : BitVec 8) <<< p) := by rw [settle_flt, unfault, h]
  rw [s.restartPart_eq]
  refine hsame _ ?_
  split
  · rw [State.await_flt]
    exact ((PurgeWork.purged s p).trans (.restock ..)).flt
  · exact (PurgeWork.purged s p).flt

/-- A restart leaves no token in the matching stores of a Dynamic partition's cells. -/
theorem State.restartPart_store {s : State} {p pc : Nat} (hsched : (s.partition p).sched = false)
    (h : pc ∈ s.cellsOf p) : ((s.restartPart p).cell pc).store = [] := by
  rw [s.restartPart_eq, (PurgeWork.purged s p).partition, if_neg (by simp [hsched]), cell, State.settle_cells,
    unfault_cells]
  exact store_purged h

/-- After a restart a Scheduled partition waits, or is HALTED. -/
theorem State.restartPart_state {s : State} {p : Nat} (hsched : (s.partition p).sched = true) :
    ((s.restartPart p).part p).state = if s.mode.halted.getLsbD p then .halted else .wait := by
  rw [s.restartPart_eq, (PurgeWork.purged s p).partition, if_pos hsched, part, State.settle_seq,
    unfault_seq, ← part, await, part_modPart_same, ((PurgeWork.purged s p).trans (.restock ..)).mode]

theorem getLsbD_clear_bit (x : BitVec 8) (p q : Nat) :
    (x &&& ~~~((1 : BitVec 8) <<< p)).getLsbD q = (x.getLsbD q && !decide (q = p)) := by
  by_cases hq : q < 8
  · have hbit : ((1 : BitVec 8) <<< p).getLsbD q = decide (q = p) := by
      rw [BitVec.getLsbD_shiftLeft, show (1 : BitVec 8) = 1#8 from rfl, BitVec.getLsbD_one, Bool.eq_iff_iff]
      simp [hq]; omega
    rw [BitVec.getLsbD_and, BitVec.getLsbD_not, hbit]
    simp [hq]
  · rw [BitVec.getLsbD_of_ge _ _ (by omega), BitVec.getLsbD_of_ge x q (by omega), Bool.false_and]

end Sys2Proof.Machine
end

section
open Sys2Proof Sys2Proof.Machine Sys2Proof.Safety

namespace Sys2Proof.Machine

/-! ### RESTART (R362, R363) -/

theorem exec_restart {s : State} (h : s.hostWrites aFltCmd = true) (p : BitVec 3) :
    exec (.restart p) s = .next (s.restart p.toNat) := congrArg Host.Outcome.next (if_pos h)

theorem State.restart_of_accepted {s : State} {p : Nat} (h : s.restartStatus p = 0) :
    s.restart p = ((s.setRegF aFltCmd 10 8 p).restartPart p).fltStatus 0 := by
  have hstatus : (s.setRegF aFltCmd 10 8 p).restartStatus p = 0 := (s.restartStatus_setReg_cmd _ p).trans h
  simp only [restart, hstatus]

theorem State.restart_of_refused {s : State} {p : Nat} (h : s.restartStatus p ≠ 0) :
    s.restart p = (s.setRegF aFltCmd 10 8 p).fltStatus (s.restartStatus p) := by
  have hstatus : (s.setRegF aFltCmd 10 8 p).restartStatus p = s.restartStatus p := s.restartStatus_setReg_cmd _ p
  simp only [restart, hstatus]

@[simp] theorem State.fltStatus_flt (s : State) (x : Nat) : (s.fltStatus x).flt = s.flt := rfl
@[simp] theorem State.fltStatus_cell (s : State) (x pc : Nat) : (s.fltStatus x).cell pc = s.cell pc := rfl
@[simp] theorem State.fltStatus_part (s : State) (x p : Nat) : (s.fltStatus x).part p = s.part p := rfl

theorem State.regF_fltStatus (s : State) {x : Nat} (hx : x < 8) : (s.fltStatus x).regF aFltCmd 14 12 = x :=
  (s.regF_setRegF_same aFltCmd x (by decide) (by decide)).trans (Nat.mod_eq_of_lt hx)

/-- An accepted restart ends the partition's fault alone, empties its stores where it is Dynamic, and lets its sequencer
wait where it is Scheduled. -/
theorem State.restart_accepted {s : State} {p : Nat} (h : s.restartStatus p = 0) :
    (∀ q, (s.restart p).flt.faulted.getLsbD q = (s.flt.faulted.getLsbD q && !decide (q = p))) ∧
    (s.restart p).regF aFltCmd 14 12 = 0 ∧
    ((s.partition p).sched = false → ∀ pc ∈ s.cellsOf p, ((s.restart p).cell pc).store = []) ∧
    ((s.partition p).sched = true →
      ((s.restart p).part p).state = if s.mode.halted.getLsbD p then .halted else .wait) := by
  rw [restart_of_accepted h]
  refine ⟨fun q => ?_, regF_fltStatus _ (by decide), fun hsched pc hpc => ?_, fun hsched => ?_⟩
  · rw [fltStatus_flt, restartPart_faulted, getLsbD_clear_bit, setRegF_flt]
  · rw [fltStatus_cell]
    exact restartPart_store (s := s.setRegF aFltCmd 10 8 p) hsched hpc
  · rw [fltStatus_part]
    exact restartPart_state (s := s.setRegF aFltCmd 10 8 p) hsched

/-- A refused restart writes FLT_CMD alone: its partition, and a status that is not 0. -/
theorem State.restart_refused {s : State} {p : Nat} (hp : p < 8) (h : s.restartStatus p ≠ 0) :
    RegWork (· = aFltCmd) s (s.restart p) ∧ (s.restart p).regF aFltCmd 14 12 ≠ 0 ∧
      (s.restart p).regF aFltCmd 10 8 = p := by
  have hlt := (s.restartStatus_eq p).trans_lt (restartCode_lt _ _ _ _)
  rw [restart_of_refused h]
  refine ⟨(RegWork.setRegF (named := (· = aFltCmd)) s _ _ _ rfl).trans (.setRegF _ _ _ _ rfl), ?_, ?_⟩
  · rwa [regF_fltStatus _ (by omega)]
  · rw [fltStatus, regF_setRegF_field _ _ _ (by decide) (by decide) (by decide),
      regF_setRegF_same _ _ _ (by decide) (by decide)]
    exact Nat.mod_eq_of_lt hp

end Sys2Proof.Machine

/-- Settles O16. The status decides (`restartStatus_eq_zero_iff`), and the write of FLT_CMD does not change it; a restart
then is `restart_accepted` or `restart_refused`. -/
theorem restartEndsAPartitionsFault : Obligations.RestartEndsAPartitionsFault := by
  unfold Obligations.RestartEndsAPartitionsFault
  refine fun p s h => ⟨fun hfaulted hpairs hplaces hfatal => ?_, fun hcase => ?_⟩
  · have hstatus := (s.restartStatus_eq_zero_iff p.toNat).2 ⟨hfaulted, hpairs, hplaces, hfatal⟩
    obtain ⟨hbits, hcode, hstores, hstate⟩ := State.restart_accepted hstatus
    exact ⟨_, exec_restart h p, by simp [hbits], hcode, fun q hq => by simp [hbits, hq], hstores, hstate⟩
  · obtain ⟨hwork, hcode, hpart⟩ := State.restart_refused p.isLt (State.restartStatus_ne_zero hcase)
    exact ⟨_, exec_restart h p, hwork.rest, hcode, hpart, hwork.others⟩
end
